-- ==== Sys2Proof/Word.lean ====
section
/-!
DEFINITION. Words, bytes and the operand types of the commands: who accesses a register, which queue or command
is named, what a DMA read delivered, and the few outcomes that only the environment can know.
-/
namespace Sys2Proof

/-- A byte (R5). -/
abbrev Byte := BitVec 8
/-- A 16-bit word (R5). -/
abbrev W16 := BitVec 16
/-- A 32-bit word (R5). -/
abbrev W32 := BitVec 32
/-- A 64-bit word (R5). -/
abbrev W64 := BitVec 64

/-- The two PCIe ports (R31). -/
inductive Port where
  | a
  | b
deriving DecidableEq, Repr

/-- The other PCIe port. -/
def Port.other : Port → Port
  | .a => .b
  | .b => .a

/-- Port number as registers and records give it: 0 port A, 1 port B (R343, R480). -/
def Port.num : Port → Nat
  | .a => 0
  | .b => 1

/-- A PCIe function: `vf = 0` is the PF of the port, `vf = n` is VF n (R33). -/
structure Fn where
  port : Port
  vf : Nat
deriving DecidableEq, Repr

/-- The scope of a queue and of duplicate detection: a partition, or the PF of a port (R38, R56). -/
inductive Scope where
  | part (p : Nat)
  | pf (port : Port)
deriving DecidableEq, Repr

/-- A queue pair: 0–16 of a partition, or the PF control queue, numbered 16 (R38). -/
structure QRef where
  scope : Scope
  q : Nat
deriving DecidableEq, Repr

/-- A command, named by its scope and request ID (R56). -/
structure CmdRef where
  scope : Scope
  rid : Nat
deriving DecidableEq, Repr

/-- What waits for an epoch that is not yet installed (R368): a command, or a message by its source and number. -/
inductive HoldRef where
  | command (c : CmdRef)
  | message (src msg : Nat)
deriving DecidableEq, Repr

/-- What one ECC codeword read found, as the physical error pattern decides it (R474, R475). -/
inductive EccOutcome where
  | clean
  | corrected (bytes : Nat)
  | uncorrectable
deriving DecidableEq, Repr

/-- Where a codeword read lies (R480): stack, pseudo-channel, bank, row and 64-byte unit of DRAM; of an SRAM, the quadrant
stands as the stack and the word as the row. -/
structure MemPlace where
  stack : Nat
  pc : Nat
  bank : Nat
  row : Nat
  unit : Nat
deriving DecidableEq, Repr

/-- Who reads a local counter (R465). -/
inductive Reader where
  | fn (f : Fn)
  | core (n : Nat)
  | aoc
deriving DecidableEq, Repr

/-- How much of a 64-bit counter one read takes (R465). -/
inductive Half where
  | whole
  | low
  | high
deriving DecidableEq, Repr

/-- The writer of a crier register (R452). -/
inductive Endpoint where
  | core (n : Nat)
  | aoc
  | host (p : Port)
deriving DecidableEq, Repr

/-- How a flash read ended, as the medium decides it (R87, R426). -/
inductive ReadOutcome where
  | ok
  | checkFail
  | uncorrectable
deriving DecidableEq, Repr

/-- What the module's DMA did for a command (R51, R52): the bytes its reads of the parameter block and of the input
buffer delivered (`none` is a failed read), whether its writes to the result buffer succeed; what the DRAM codewords
that the command reads as it starts turn out to be, with the place of one that is not clean (R474, R475); and how the reads of crates
that its linking searches make come out: `linkCrate` names the one that `linkRead` is about, the others are clean (R87, R173). -/
structure CmdIn where
  block : Option (List Byte)
  input : Option (List Byte)
  resultOk : Bool
  ecc : EccOutcome
  place : MemPlace
  linkCrate : Nat
  linkRead : ReadOutcome
deriving DecidableEq, Repr

/-- How one LDPC codeword of a flash read came out, as the medium decides it (R426): the first retry level that
decodes (0 is the hard decision), or `none` when no level does; which codeword it is; and whether a stripe rebuild, if
tried, succeeds. -/
structure FlashRead where
  level : Option Nat
  codeword : Nat
  rebuildOk : Bool
deriving DecidableEq, Repr

/-- What a channel's parts answered to the check of power-on (R414): the ONFI signature, the revision, page and spare size, LUNs per
chip enable, planes, READ ID, and whether they have every feature R411 requires and need none it refuses. -/
structure PartReport where
  channel : Nat
  onfi : Bool
  major : Nat
  minor : Nat
  page : Nat
  spare : Nat
  lunsPerCe : Nat
  planes : Nat
  id : Nat
  features : Bool
deriving DecidableEq, Repr

/-- The kinds of unit that are gated, woken, removed or substituted (R462, R489, R493). -/
inductive UnitKind where
  | tile
  | walker
  | tally
  | stall
  | selector
  | fwCore
  | quadrantNet
deriving DecidableEq, Repr

/-- Why a lane fails (R351). -/
inductive LaneFail where
  | fecLock
  | uncorrectableCodewords
deriving DecidableEq, Repr

/-- Causes of a reset that does not remove power, and of a power-on (R531). -/
inductive ResetCause where
  | powerOn
  | holdup
  | pin
  | smbus
  | fwArm
  | trialExpired
  | host
  | watchdog
  | recoveryDone
deriving DecidableEq, Repr

/-- The CAUSE code of R531. -/
def ResetCause.code : ResetCause → Nat
  | .powerOn => 0
  | .holdup => 1
  | .pin => 2
  | .smbus => 3
  | .fwArm => 4
  | .trialExpired => 5
  | .host => 6
  | .watchdog => 7
  | .recoveryDone => 8

/-- What the verification of the three signatures of a copy of the identity block gives: of the FACTORY and the ATTEST certificate under
their ISSUER_KEY, and of the block under the FACTORY certificate's SUBJECT_KEY (R504, R506). -/
structure IdSigs where
  factory : Bool
  attest : Bool
  block : Bool
deriving DecidableEq, Repr

/-- What the verification of the signatures of a firmware slot gives: of its certificate under the ISSUER_KEY, of its manifest under the
certificate's SUBJECT_KEY, and of its manifest under the owner key (R511, R513). -/
structure SlotSigs where
  cert : Bool
  image : Bool
  owner : Bool
deriving DecidableEq, Repr

/-- What the ROM and firmware find at a power-on that no register holds: the two copies of the identity block as NOR gives them, what the
verification of signatures gives, whether every stack trains, and the logical units that the self-test fails (R492, R507, R508, R513,
R519). -/
structure BootFindings where
  copy0 : List (Nat × Byte)
  copy1 : List (Nat × Byte)
  sigs0 : IdSigs
  sigs1 : IdSigs
  slotA : SlotSigs
  slotB : SlotSigs
  stacksTrained : Bool
  selfTestFails : List (UnitKind × Nat)
deriving DecidableEq, Repr

end Sys2Proof
end

