-- ==== Sys2Proof/Syntax.lean ====
section
/-!
DEFINITION. The commands of the block: one constructor per row of the opcode table, with the operands the row needs.
A command packet arrives by `commandFetch`; the row of its opcode is the start of that command, which names it by its
scope and request ID `c` and brings what the DMA delivered for it, `d`. Rows of a register are the write of that
register by a function `f`. `now` is the local counter in microseconds at the event.
-/
namespace Sys2Proof

/-- The commands of the block. -/
inductive Instr where
  /-- SQ_TAIL_DOORBELL (R45). -/
  | sqTailDoorbell (f : Fn) (page q : Nat) (value : W32)
  /-- CQ_HEAD_DOORBELL (R45). -/
  | cqHeadDoorbell (f : Fn) (page q : Nat) (value : W32)
  /-- COMMAND_FETCH (R47). -/
  | commandFetch (q : QRef) (packet : List Byte)
  /-- DUP_ENTRY_EXPIRY (R56). -/
  | dupEntryExpiry (c : CmdRef) (now : Nat)
  /-- INT_TIME_EXPIRY (R40). -/
  | intTimeExpiry (q : QRef) (now : Nat)
  /-- DEADLINE_EXPIRY (R57). -/
  | deadlineExpiry (c : CmdRef) (now : Nat)
  /-- RING_DMA_FAILURE (R44). -/
  | ringDmaFailure (q : QRef) (addr : W64)
  /-- QUEUE_ENABLE (R42). -/
  | queueEnable (f : Fn) (q : QRef) (value : W32)
  /-- QUEUE_DISABLE (R43). -/
  | queueDisable (f : Fn) (q : QRef) (value : W32)
  /-- QUEUE_DRAINED (R43). -/
  | queueDrained (q : QRef)
  /-- REGISTER_WRITE (R36). -/
  | registerWrite (f : Fn) (bar2 : Bool) (offset size : Nat) (value : W64)
  /-- COUNTER_READ (R465). -/
  | counterRead (r : Reader) (cycles : Bool) (half : Half)
  /-- FUNCTION_LEVEL_RESET_VF (R67). -/
  | functionLevelResetVf (port : Port) (n : Nat)
  /-- FUNCTION_LEVEL_RESET_PF (R67). -/
  | functionLevelResetPf (port : Port)
  /-- PCIE_LINK_UP (R508). -/
  | pcieLinkUp (port : Port)
  /-- PCIE_LINK_DOWN (R68). -/
  | pcieLinkDown (port : Port)
  /-- PERST_ASSERT (R542). -/
  | perstAssert (port : Port) (us : Nat)
  /-- HEARTBEAT_TIMEOUT (R459). -/
  | heartbeatTimeout (port : Port) (now : Nat)
  /-- ABORT (R66). -/
  | abort (c : CmdRef) (d : CmdIn)
  /-- PART_ADOPT (R69). -/
  | partAdopt (c : CmdRef) (d : CmdIn)
  /-- SEARCH (R115). -/
  | search (c : CmdRef) (d : CmdIn)
  /-- SEARCH_FILTERED (R116). -/
  | searchFiltered (c : CmdRef) (d : CmdIn)
  /-- RANGE (R132). -/
  | range (c : CmdRef) (d : CmdIn)
  /-- QUERY_ADMISSION (R105). -/
  | queryAdmission (p : Nat) (now : Nat)
  /-- WALK_STEP (R115). -/
  | walkStep (c : CmdRef) (now : Nat) (mid : Bool) (ecc : EccOutcome) (place : MemPlace)
  /-- CRATE_BATCH_ISSUE (R119). -/
  | crateBatchIssue (handle crate : Nat) (now : Nat)
  /-- CRATE_READ_COMPLETE (R87). -/
  | crateReadComplete (handle crate : Nat) (checksOk : Bool)
  /-- RERANK_READ_ISSUE (R123). -/
  | rerankReadIssue (c : CmdRef) (i : Nat)
  /-- RERANK_READ_COMPLETE (R122). -/
  | rerankReadComplete (c : CmdRef) (i : Nat)
  /-- SEARCH_SELECTION (R139). -/
  | searchSelection (c : CmdRef) (mid resultOk : Bool)
  /-- INSERT (R173). -/
  | insert (c : CmdRef) (d : CmdIn)
  /-- DELETE (R176). -/
  | delete (c : CmdRef) (d : CmdIn)
  /-- UPSERT (R174). -/
  | upsert (c : CmdRef) (d : CmdIn)
  /-- GROUP_PUBLISH (R162). -/
  | groupPublish (g crate : Nat) (read : ReadOutcome) (vectorsOk resultOk : Bool)
  /-- RING_WAIT_EXPIRY (R167). -/
  | ringWaitExpiry (g : Nat) (now : Nat)
  /-- CRATE_WRITEBACK (R178). -/
  | crateWriteback (handle crate : Nat)
  /-- SWAP_GENERATION (R185). -/
  | swapGeneration (c : CmdRef) (d : CmdIn)
  /-- REPAIR_START (R189). -/
  | repairStart (f : Fn) (value : W32)
  /-- REPAIR_CRATE_SWEEP (R182). -/
  | repairCrateSweep (crate : Nat) (read : ReadOutcome)
  /-- INDEX_MOUNT (R101). -/
  | indexMount (handle : Nat)
  /-- SELECT_TOPK (R145). -/
  | selectTopk (c : CmdRef) (d : CmdIn)
  /-- SELECT_THRESHOLD (R151). -/
  | selectThreshold (c : CmdRef) (d : CmdIn)
  /-- SELECTOR_ROW (R138). -/
  | selectorRow (sel : Nat) (mid : Bool) (sram : EccOutcome) (resultOk : Bool)
  /-- STALL_RUN (R212). -/
  | stallRun (c : CmdRef) (d : CmdIn)
  /-- ROW_OP_PLAIN (R228). -/
  | rowOpPlain (c : CmdRef) (d : CmdIn)
  /-- ROW_OP_DERIVE (R229). -/
  | rowOpDerive (c : CmdRef) (d : CmdIn)
  /-- ROW_OP_CLEAR (R230). -/
  | rowOpClear (c : CmdRef) (d : CmdIn)
  /-- ACTIVATION_BOUNDARY (R215). -/
  | activationBoundary (stall ns : Nat) (hub : List (Nat × Nat)) (ecc : EccOutcome) (row unit : Nat)
  /-- REFRESH_DEBT_INCREMENT (R217). -/
  | refreshDebtIncrement (stack pc : Nat)
  /-- REFRESH_CLASS_EVALUATION (R219). -/
  | refreshClassEvaluation (stack temp : Nat)
  /-- STALL_NOP (R204). -/
  | stallNop (st : Nat)
  /-- STALL_END (R204). -/
  | stallEnd (st : Nat)
  /-- STALL_SEG (R213). -/
  | stallSeg (st : Nat)
  /-- STALL_BR (R204). -/
  | stallBr (st : Nat) (target : Nat)
  /-- STALL_DBNZ (R204). -/
  | stallDbnz (st : Nat) (sd target : Nat)
  /-- STALL_BZ (R204). -/
  | stallBz (st : Nat) (sd target : Nat)
  /-- STALL_SETMODE (R204). -/
  | stallSetmode (st : Nat) (lt : Nat) (at1 rnd : Bool)
  /-- STALL_LD (R200). -/
  | stallLd (st : Nat) (reg w sa : Nat) (inc : Bool) (imm : Nat)
  /-- STALL_ST (R200). -/
  | stallSt (st : Nat) (reg w sa : Nat) (inc : Bool) (imm : Nat)
  /-- STALL_LDA (R200). -/
  | stallLda (st : Nat) (reg w sa : Nat) (inc : Bool) (imm : Nat)
  /-- STALL_STA (R200). -/
  | stallSta (st : Nat) (reg w sa : Nat) (inc : Bool) (imm : Nat)
  /-- STALL_LDS (R200). -/
  | stallLds (st : Nat) (reg w sa : Nat) (inc : Bool) (imm : Nat)
  /-- STALL_STS (R200). -/
  | stallSts (st : Nat) (reg w sa : Nat) (inc : Bool) (imm : Nat)
  /-- STALL_ROP (R226). -/
  | stallRop (st : Nat) (op wd sd wa sa wb sb : Nat)
  /-- STALL_SADD (R204). -/
  | stallSadd (st : Nat) (sd sa sb : Nat)
  /-- STALL_SSUB (R204). -/
  | stallSsub (st : Nat) (sd sa sb : Nat)
  /-- STALL_SMUL (R204). -/
  | stallSmul (st : Nat) (sd sa sb : Nat)
  /-- STALL_SADDI (R204). -/
  | stallSaddi (st : Nat) (sd sa imm : Nat)
  /-- STALL_SMULI (R204). -/
  | stallSmuli (st : Nat) (sd sa imm : Nat)
  /-- STALL_SSHLI (R204). -/
  | stallSshli (st : Nat) (sd sa imm : Nat)
  /-- STALL_SSHRI (R204). -/
  | stallSshri (st : Nat) (sd sa imm : Nat)
  /-- STALL_SANDI (R204). -/
  | stallSandi (st : Nat) (sd sa imm : Nat)
  /-- STALL_SORI (R204). -/
  | stallSori (st : Nat) (sd sa imm : Nat)
  /-- STALL_SLUI (R204). -/
  | stallSlui (st : Nat) (sd imm : Nat)
  /-- STALL_VMAC (R204). -/
  | stallVmac (st : Nat) (ad va vb : Nat)
  /-- STALL_VMACS (R204). -/
  | stallVmacs (st : Nat) (ad va ss : Nat)
  /-- STALL_VSQD (R204). -/
  | stallVsqd (st : Nat) (ad va vb : Nat)
  /-- STALL_VADD (R204). -/
  | stallVadd (st : Nat) (vd va vb : Nat)
  /-- STALL_VSUB (R204). -/
  | stallVsub (st : Nat) (vd va vb : Nat)
  /-- STALL_VMUL (R204). -/
  | stallVmul (st : Nat) (vd va vb : Nat)
  /-- STALL_VMAX (R204). -/
  | stallVmax (st : Nat) (vd va vb : Nat)
  /-- STALL_VMIN (R204). -/
  | stallVmin (st : Nat) (vd va vb : Nat)
  /-- STALL_VBCAST (R204). -/
  | stallVbcast (st : Nat) (vd ss : Nat)
  /-- STALL_VMOV (R204). -/
  | stallVmov (st : Nat) (vd va : Nat)
  /-- STALL_UNPK4 (R205). -/
  | stallUnpk4 (st : Nat) (vd va ss : Nat) (quarter : Nat) (fp4 fp8Scale : Bool)
  /-- STALL_UNPK8 (R205). -/
  | stallUnpk8 (st : Nat) (vd va : Nat) (upper : Bool) (ef : Nat)
  /-- STALL_VRSQ (R206). -/
  | stallVrsq (st : Nat) (vd va : Nat)
  /-- STALL_VRCP (R206). -/
  | stallVrcp (st : Nat) (vd va : Nat)
  /-- STALL_ACLR (R204). -/
  | stallAclr (st : Nat) (ad : Nat)
  /-- STALL_AADD (R204). -/
  | stallAadd (st : Nat) (ad aa : Nat)
  /-- STALL_AMUL (R204). -/
  | stallAmul (st : Nat) (ad aa : Nat)
  /-- STALL_AMULS (R204). -/
  | stallAmuls (st : Nat) (ad ss : Nat)
  /-- STALL_AWID (R204). -/
  | stallAwid (st : Nat) (ad va : Nat)
  /-- STALL_CVT (R204). -/
  | stallCvt (st : Nat) (vd aa : Nat)
  /-- STALL_ARED (R204). -/
  | stallAred (st : Nat) (ss aa : Nat)
  /-- STALL_ARSQ (R206). -/
  | stallArsq (st : Nat) (ad aa ss : Nat)
  /-- MODEL_LOAD_BEGIN (R279). -/
  | modelLoadBegin (c : CmdRef) (d : CmdIn)
  /-- MODEL_LOAD_CHUNK (R279). -/
  | modelLoadChunk (c : CmdRef) (d : CmdIn)
  /-- MODEL_LOAD_COMMIT (R279). -/
  | modelLoadCommit (c : CmdRef) (d : CmdIn)
  /-- MODEL_LOAD_UNLOAD (R279). -/
  | modelLoadUnload (c : CmdRef) (d : CmdIn)
  /-- MODEL_LOAD_RESET_SCALES (R279). -/
  | modelLoadResetScales (c : CmdRef) (d : CmdIn)
  /-- MODEL_LOAD_READ_SCALES (R279). -/
  | modelLoadReadScales (c : CmdRef) (d : CmdIn)
  /-- MODEL_RUN (R283). -/
  | modelRun (c : CmdRef) (d : CmdIn)
  /-- MODEL_PIN (R291). -/
  | modelPin (c : CmdRef) (d : CmdIn)
  /-- MODEL_UNPIN (R291). -/
  | modelUnpin (c : CmdRef) (d : CmdIn)
  /-- LAYER_STEP_START (R255). -/
  | layerStepStart (c : CmdRef) (layer : Nat)
  /-- LAYER_STEP_END (R258). -/
  | layerStepEnd (c : CmdRef) (layer : Nat) (ecc : EccOutcome) (place : MemPlace)
  /-- SHELF_FILL (R289). -/
  | shelfFill (c : CmdRef) (layer : Nat)
  /-- TILE_LATE_STOP (R275). -/
  | tileLateStop (t : Nat) (now : Nat)
  /-- TILE_NOP (R268). -/
  | tileNop (t : Nat)
  /-- TILE_END (R268). -/
  | tileEnd (t : Nat)
  /-- TILE_BAR (R275). -/
  | tileBar (t : Nat)
  /-- TILE_LOOP (R268). -/
  | tileLoop (t : Nat) (sd target : Nat)
  /-- TILE_BRZ (R268). -/
  | tileBrz (t : Nat) (sd target : Nat)
  /-- TILE_DMA_IN (R270). -/
  | tileDmaIn (t : Nat) (arr sa token len saddr : Nat)
  /-- TILE_DMA_OUT (R270). -/
  | tileDmaOut (t : Nat) (arr sa token len saddr : Nat)
  /-- TILE_DMA_COMPLETE (R268). -/
  | tileDmaComplete (t token : Nat) (ecc : EccOutcome) (place : MemPlace)
  /-- TILE_WAIT (R268). -/
  | tileWait (t : Nat) (mask : Nat)
  /-- TILE_MMA (R271). -/
  | tileMma (t : Nat) (waddr aaddr rows acc kb : Nat) (zero : Bool)
  /-- TILE_EPI (R272). -/
  | tileEpi (t : Nat) (oaddr rows acc fn : Nat) (bias : Bool) (baddr : Nat) (raw : Bool)
  /-- TILE_VEC (R272). -/
  | tileVec (t : Nat) (daddr xaddr yaddr fn : Nat)
  /-- TILE_SADD (R268). -/
  | tileSadd (t : Nat) (sd sa sb : Nat)
  /-- TILE_SADDI (R268). -/
  | tileSaddi (t : Nat) (sd sa imm : Nat)
  /-- TILE_SMULI (R268). -/
  | tileSmuli (t : Nat) (sd sa imm : Nat)
  /-- TILE_SSHLI (R268). -/
  | tileSshli (t : Nat) (sd sa imm : Nat)
  /-- EMB_LOOKUP_POOL (R307). -/
  | embLookupPool (c : CmdRef) (d : CmdIn)
  /-- EMB_LOOKUP_DUMP (R306). -/
  | embLookupDump (c : CmdRef) (d : CmdIn)
  /-- EMB_UPDATE (R311). -/
  | embUpdate (c : CmdRef) (d : CmdIn)
  /-- EMB_UPDATE_CLOSE (R312). -/
  | embUpdateClose (c : CmdRef) (d : CmdIn)
  /-- EMB_UPDATE_LOAD (R308). -/
  | embUpdateLoad (c : CmdRef) (d : CmdIn)
  /-- STEP_CLOSE_START (R309). -/
  | stepCloseStart (c : CmdRef) (lost : List (Nat × MemPlace))
  /-- EMB_REPLICA_INSTALL (R317). -/
  | embReplicaInstall (c : CmdRef) (d : CmdIn)
  /-- EMB_REPLICA_DROP (R317). -/
  | embReplicaDrop (c : CmdRef) (d : CmdIn)
  /-- EMB_REPLICA_REFRESH (R317). -/
  | embReplicaRefresh (c : CmdRef) (d : CmdIn)
  /-- PART_CONFIG_CREATE (R324). -/
  | partConfigCreate (c : CmdRef) (d : CmdIn)
  /-- PART_CONFIG_DESTROY (R324). -/
  | partConfigDestroy (c : CmdRef) (d : CmdIn)
  /-- PART_CONFIG_GRANT (R326). -/
  | partConfigGrant (c : CmdRef) (d : CmdIn)
  /-- PART_CONFIG_WITHDRAW (R326). -/
  | partConfigWithdraw (c : CmdRef) (d : CmdIn)
  /-- PART_CONFIG_SHARES (R325). -/
  | partConfigShares (c : CmdRef) (d : CmdIn)
  /-- PART_CONFIG_REGION_ALLOC (R327). -/
  | partConfigRegionAlloc (c : CmdRef) (d : CmdIn)
  /-- PART_CONFIG_REGION_FREE (R327). -/
  | partConfigRegionFree (c : CmdRef) (d : CmdIn)
  /-- PART_CONFIG_PORT (R329). -/
  | partConfigPort (c : CmdRef) (d : CmdIn)
  /-- PART_CONFIG_INDEX_CREATE (R76). -/
  | partConfigIndexCreate (c : CmdRef) (d : CmdIn)
  /-- PART_CONFIG_INDEX_RESIZE (R328). -/
  | partConfigIndexResize (c : CmdRef) (d : CmdIn)
  /-- PART_CONFIG_INDEX_DESTROY (R328). -/
  | partConfigIndexDestroy (c : CmdRef) (d : CmdIn)
  /-- PART_CONFIG_INDEX_READ (R328). -/
  | partConfigIndexRead (c : CmdRef) (d : CmdIn)
  /-- PART_CONFIG_TABLE_CREATE (R297). -/
  | partConfigTableCreate (c : CmdRef) (d : CmdIn)
  /-- PART_CONFIG_TABLE_RESIZE (R297). -/
  | partConfigTableResize (c : CmdRef) (d : CmdIn)
  /-- PART_CONFIG_TABLE_DESTROY (R318). -/
  | partConfigTableDestroy (c : CmdRef) (d : CmdIn)
  /-- PART_CONFIG_TABLE_READ (R328). -/
  | partConfigTableRead (c : CmdRef) (d : CmdIn)
  /-- CTX_CREATE (R330). -/
  | ctxCreate (c : CmdRef) (d : CmdIn)
  /-- CTX_DESTROY (R330). -/
  | ctxDestroy (c : CmdRef) (d : CmdIn)
  /-- PTN_CTX_WRITE (R346). -/
  | ptnCtxWrite (f : Fn) (p n : Nat) (value : W32)
  /-- SLICE_END (R332). -/
  | sliceEnd (p : Nat) (now : Nat)
  /-- STOP_POSTED (R338). -/
  | stopPosted (p : Nat) (now : Nat)
  /-- CONTEXT_SWITCH (R338). -/
  | contextSwitch (p : Nat) (now ns : Nat) (lost : List (Nat × MemPlace))
  /-- GANG_START (R332). -/
  | gangStart (p : Nat) (now : Nat) (lost : List (Nat × MemPlace))
  /-- QUIESCE_SET (R339). -/
  | quiesceSet (f : Fn) (p : Nat) (value : W32)
  /-- QUIESCE_CLEAR (R339). -/
  | quiesceClear (f : Fn) (p : Nat) (value : W32)
  /-- SUBSTITUTION (R341). -/
  | substitution (kind : UnitKind) (unit : Nat) (spareOk : Bool)
  /-- UNIT_WATCHDOG (R489). -/
  | unitWatchdog (kind : UnitKind) (unit : Nat)
  /-- LANE_ENABLE (R351). -/
  | laneEnable (f : Fn) (lane : Nat) (value : W32)
  /-- LANE_DISABLE (R351). -/
  | laneDisable (f : Fn) (lane : Nat) (value : W32)
  /-- LANE_UP (R351). -/
  | laneUp (lane peer : Nat) (credits : List (Nat × Nat))
  /-- LANE_TRAINING_RESTART (R351). -/
  | laneTrainingRestart (lane : Nat) (now : Nat)
  /-- LANE_DOWN (R351). -/
  | laneDown (lane : Nat) (cause : LaneFail)
  /-- CELL_RECEIVE (R355). -/
  | cellReceive (lane : Nat) (cell : List Byte) (fec : EccOutcome)
  /-- REPLAY_TIMEOUT (R355). -/
  | replayTimeout (lane : Nat) (now : Nat)
  /-- REPLAY_BUDGET_EXPIRY (R355). -/
  | replayBudgetExpiry (lane : Nat) (now : Nat)
  /-- FRAME_RECEIVE (R353). -/
  | frameReceive (lane : Nat)
  /-- TRANSIT_DROP (R357). -/
  | transitDrop (lane : Nat) (now : Nat)
  /-- SEARCH_SUB (R372). -/
  | searchSub (src msg : Nat)
  /-- SEARCH_RSP (R372). -/
  | searchRsp (src msg : Nat)
  /-- EMB_FETCH (R305). -/
  | embFetch (src msg : Nat)
  /-- EMB_ROWS (R305). -/
  | embRows (src msg : Nat)
  /-- EMB_GSET (R312). -/
  | embGset (src msg : Nat) (lost : List (Nat × MemPlace))
  /-- EMB_RSET (R316). -/
  | embRset (src msg : Nat)
  /-- EMB_REPL (R317). -/
  | embRepl (src msg : Nat)
  /-- EMB_REPL_RSP (R317). -/
  | embReplRsp (src msg : Nat)
  /-- ACT_BLOCK (R374). -/
  | actBlock (src msg : Nat)
  /-- BULK_ACK (R374). -/
  | bulkAck (src msg : Nat)
  /-- OFFER (R377). -/
  | handoffOffer (src msg : Nat)
  /-- STATE (R377). -/
  | handoffState (src msg : Nat)
  /-- COMMIT (R377). -/
  | handoffCommit (src msg : Nat)
  /-- ACCEPT (R377). -/
  | handoffAccept (src msg : Nat)
  /-- OWNER_QUERY (R378). -/
  | ownerQuery (src msg : Nat)
  /-- OWNER_ANS (R378). -/
  | ownerAns (src msg : Nat)
  /-- PROBE (R380). -/
  | probe (src msg : Nat)
  /-- PROBE_ACK (R380). -/
  | probeAck (src msg : Nat)
  /-- LOST (R380). -/
  | lostNotice (src msg : Nat)
  /-- DROPPED (R362). -/
  | droppedNotice (src msg : Nat)
  /-- CANCEL (R365). -/
  | cancelRequest (src msg : Nat)
  /-- REQUEST_TIMEOUT (R362). -/
  | requestTimeout (req : Nat) (now : Nat)
  /-- MEMBER_LOST (R380). -/
  | memberLost (node : Nat) (now : Nat)
  /-- FABRIC_DUP_EXPIRY (R363). -/
  | fabricDupExpiry (src req : Nat) (now : Nat)
  /-- COMPOSE_INSTALL (R367). -/
  | composeInstall (c : CmdRef) (d : CmdIn)
  /-- COMPOSE_REMOVE (R370). -/
  | composeRemove (c : CmdRef) (d : CmdIn)
  /-- COMPOSE_READ (R370). -/
  | composeRead (c : CmdRef) (d : CmdIn)
  /-- DRAIN_WINDOW_END (R375). -/
  | drainWindowEnd (comp : Nat) (now : Nat)
  /-- EPOCH_HOLD_EXPIRY (R368). -/
  | epochHoldExpiry (hold : HoldRef) (now : Nat)
  /-- HANDOFF (R377). -/
  | handoff (c : CmdRef) (d : CmdIn)
  /-- HANDOFF_TIMEOUT (R377). -/
  | handoffTimeout (comp slot : Nat) (now : Nat)
  /-- OWNER_QUERY_RETRY (R378). -/
  | ownerQueryRetry (comp slot : Nat) (now : Nat)
  /-- ORPHAN_SWEEP (R379). -/
  | orphanSweep (comp : Nat) (now : Nat)
  /-- NODE_ID_WRITE (R383). -/
  | nodeIdWrite (f : Fn) (value : W32)
  /-- ROUTING_ENTRY_WRITE (R391). -/
  | routingEntryWrite (f : Fn) (node : Nat) (value : W64)
  /-- POLICER_REFILL (R395). -/
  | policerRefill
  /-- SHAPER_REFILL (R400). -/
  | shaperRefill
  /-- POLICER_COMMIT (R398). -/
  | policerCommit (f : Fn) (n : Nat) (value : W32)
  /-- SHAPER_COMMIT (R400). -/
  | shaperCommit (f : Fn) (n : Nat) (value : W32)
  /-- SAMPLING_ROUND (R403). -/
  | samplingRound (now : Nat) (writeOk : Bool)
  /-- SAMPLING_ENABLE (R406). -/
  | samplingEnable (f : Fn) (value : W32)
  /-- RING_HEAD_WRITE (R405). -/
  | ringHeadWrite (f : Fn) (value : W64)
  /-- MED_PROFILE (R445). -/
  | medProfile (c : CmdRef) (d : CmdIn)
  /-- MED_FORMAT (R446). -/
  | medFormat (c : CmdRef) (d : CmdIn) (bad : List Nat)
  /-- MED_CHECKPOINT (R447). -/
  | medCheckpoint (c : CmdRef) (d : CmdIn)
  /-- MED_RETIRE_LUN (R447). -/
  | medRetireLun (c : CmdRef) (d : CmdIn)
  /-- MED_INFO (R447). -/
  | medInfo (c : CmdRef) (d : CmdIn)
  /-- MEDIA_MOUNT (R434). -/
  | mediaMount (parts : List PartReport) (lost : List Nat)
  /-- FLASH_READ_ENQUEUE (R424). -/
  | flashReadEnqueue (lun : Nat) (now : Nat)
  /-- FLASH_READ_COMPLETE (R426). -/
  | flashReadComplete (lun : Nat) (r : FlashRead) (now : Nat)
  /-- FLASH_PROGRAM_COMPLETE (R443). -/
  | flashProgramComplete (lun : Nat) (ok : Bool)
  /-- FLASH_ERASE_COMPLETE (R443). -/
  | flashEraseComplete (lun : Nat) (ok : Bool)
  /-- OPERATION_RESUME (R424). -/
  | operationResume (lun : Nat) (now : Nat)
  /-- LUN_FAILED (R443). -/
  | lunFailed (lun : Nat)
  /-- JOURNAL_FLUSH (R432). -/
  | journalFlush (now : Nat)
  /-- CHECKPOINT_START (R433). -/
  | checkpointStart (now : Nat)
  /-- CHECKPOINT_ABANDON (R433). -/
  | checkpointAbandon (now : Nat)
  /-- GARBAGE_COLLECTION (R438). -/
  | garbageCollection (set : Nat)
  /-- COLD_RELOCATION (R423). -/
  | coldRelocation (now : Nat)
  /-- HOLDUP_START (R440). -/
  | holdupStart (mv us : Nat)
  /-- INPUT_RESTORED (R442). -/
  | inputRestored (mv ms : Nat)
  /-- INPUT_FAULT (R538). -/
  | inputFault (overvoltage : Bool)
  /-- CRIER_POST (R455). -/
  | crierPost (e : Endpoint) (n : Nat) (notice : W32)
  /-- CRIER_TAKE (R455). -/
  | crierTake (e : Endpoint) (n : Nat)
  /-- CRIER_WITHDRAW (R455). -/
  | crierWithdraw (e : Endpoint) (n : Nat)
  /-- CRIER_TIMEOUT (R456). -/
  | crierTimeout (n : Nat) (now : Nat)
  /-- MBX_CCFG_WRITE (R468). -/
  | mbxCcfgWrite (e : Endpoint) (n : Nat) (value : W32)
  /-- GATING_ENTRY (R463). -/
  | gatingEntry (kind : UnitKind) (unit : Nat) (since now : Nat)
  /-- UNIT_WAKE (R463). -/
  | unitWake (kind : UnitKind) (unit : Nat) (ns : Nat)
  /-- POWER_SAMPLE (R26). -/
  | powerSample (watts mv : Nat) (now : Nat)
  /-- THERMAL_SAMPLE (R548). -/
  | thermalSample (hub : Nat) (stackTemps : List Nat) (lid : Nat)
  /-- BANK_MEASUREMENT (R540). -/
  | bankMeasurement (quarterVolts : Nat)
  /-- BANK_CAPACITANCE_TEST (R540). -/
  | bankCapacitanceTest (nF : Nat)
  /-- RECORD_HANDLED (R483). -/
  | recordHandled (sev seq : Nat) (now : Nat)
  /-- ERROR_QUEUE_RETIRE (R482). -/
  | errorQueueRetire (f : Fn) (sev : Nat) (value : W32)
  /-- PATROL_SCRUB (R476). -/
  | patrolScrub (stack pc bank row unit : Nat) (first again : EccOutcome)
  /-- SRAM_SCRUB (R476). -/
  | sramScrub (struct place unit word : Nat) (owner : Option UnitKind) (found : EccOutcome)
  /-- NOC_FLIT_FAILURE (R477). -/
  | nocFlitFailure (boundary link : Nat) (again : Bool) (c : Option CmdRef)
  /-- POWER_ON (R508). -/
  | powerOn (b : BootFindings)
  /-- MODULE_RESET (R509). -/
  | moduleReset (cause : ResetCause)
  /-- BOOT_CTRL_RESET (R533). -/
  | bootCtrlReset (f : Fn) (value : W32)
  /-- MOD_EN_RISE (R542). -/
  | modEnRise
  /-- MOD_EN_FALL (R542). -/
  | modEnFall (us : Nat)
  /-- PIN_RESET (R542). -/
  | pinReset (us : Nat)
  /-- FW_STAGE_BEGIN (R517). -/
  | fwStageBegin (c : CmdRef) (d : CmdIn)
  /-- FW_STAGE_CHUNK (R517). -/
  | fwStageChunk (c : CmdRef) (d : CmdIn)
  /-- FW_ARM (R518). -/
  | fwArm (c : CmdRef) (d : CmdIn) (v : SlotSigs)
  /-- FW_CONFIRM (R519). -/
  | fwConfirm (c : CmdRef) (d : CmdIn)
  /-- TRIAL_EXPIRY (R519). -/
  | trialExpiry (now : Nat)
  /-- FIRMWARE_WATCHDOG (R530). -/
  | firmwareWatchdog
  /-- ATTEST (R526). -/
  | attest (c : CmdRef) (d : CmdIn)
  /-- OWNER_READ (R524). -/
  | ownerRead (c : CmdRef) (d : CmdIn)
  /-- OWNER_INSTALL_KEY (R524). -/
  | ownerInstallKey (c : CmdRef) (d : CmdIn)
  /-- OWNER_LOCK (R524). -/
  | ownerLock (c : CmdRef) (d : CmdIn) (verifies : Bool)
  /-- OWNER_UNLOCK (R524). -/
  | ownerUnlock (c : CmdRef) (d : CmdIn) (verifies : Bool)
  /-- RCV_ERASE (R523). -/
  | rcvErase (port : Port)
  /-- RCV_WRITE (R523). -/
  | rcvWrite (port : Port) (chunk : Nat) (data : List Byte)
  /-- RCV_ARM (R523). -/
  | rcvArm (port : Port) (v : SlotSigs)
  /-- RCV_RESET (R523). -/
  | rcvReset (port : Port)
  /-- SMB_STATUS (R545). -/
  | smbStatus
  /-- SMB_INPUT_MV (R545). -/
  | smbInputMv
  /-- SMB_INPUT_W (R545). -/
  | smbInputW
  /-- SMB_TEMPS (R545). -/
  | smbTemps
  /-- SMB_HOLDUP (R545). -/
  | smbHoldup
  /-- SMB_SERIAL (R545). -/
  | smbSerial
  /-- SMB_CAUSE (R545). -/
  | smbCause
  /-- SMB_CLEAR_STICKY (R545). -/
  | smbClearSticky (pecOk : Bool)
  /-- SMB_RESET (R545). -/
  | smbReset (pecOk : Bool)
  /-- SMB_ARM_RECOVERY (R545). -/
  | smbArmRecovery (pecOk : Bool)
  /-- SMB_ALERT_RESPONSE (R544). -/
  | smbAlertResponse
  /-- CELL_TIME (R352). -/
  | cellTime (lane : Nat)
  /-- PERST_DEASSERT (R508). -/
  | perstDeassert (port : Port)
  /-- STANDBY_ISLAND_POWER_UP (R539). -/
  | standbyIslandPowerUp
  /-- STANDBY_ISLAND_POWER_LOSS (R539). -/
  | standbyIslandPowerLoss
  /-- DISTANCE_TABLE_COMPLETE (R106). -/
  | distanceTableComplete (c : CmdRef)
  /-- SHELF_FILL_COMPLETE (R289). -/
  | shelfFillComplete (handle layer : Nat) (ecc : EccOutcome) (place : MemPlace)
  /-- LOAD_DATA_ARRIVAL (R202). -/
  | loadDataArrival (st : Nat) (n : Nat)
  /-- D3HOT_TRANSITION (R32). -/
  | d3hotTransition (f : Fn) (d3 : Bool)
  /-- ATTEST_START (R526). -/
  | attestStart (now : Nat)
  /-- PRBS31_CHECK_ERROR (R387). -/
  | prbs31CheckError (lane : Nat)
deriving DecidableEq, Repr

end Sys2Proof
end

