-- ==== Sys2Proof/Config.lean ====
section
/-!
DEFINITION. The counts the module fixes, and the values its manual leaves open: those are opaque constants, about which
nothing can be proved.
-/
namespace Sys2Proof.Config

/-- Entries of the duplicate table (R60). -/
def dupCapacity : Nat := 2097152

/-- Retention of the duplicate table, in microseconds (R56). -/
def dupHoldUs : Nat := 4000000

/-- Commands of one queue fetched and not yet completed, at most (R47). -/
def maxInflight : Nat := 4096

/-- A value the manual leaves open, by the number of the draw: free, the same for every draw of one number. -/
opaque freeValue : Nat → BitVec 64

/-- A byte the manual leaves open, by the number of the draw and the position in it. -/
opaque freeByte : Nat → Nat → BitVec 8

/-- How far a transcendental result of a tile lies from the rounded exact one, in units in the last place: a free value,
used modulo 5 less 2 (R272). -/
opaque ulpShift : Nat → BitVec 32 → Nat

/-- A result of a function whose operations the manual does not give bit by bit: free, the same for the same function, operands and
element on every run and every module. -/
opaque rowFunction : Nat → List (BitVec 32) → List (BitVec 32) → BitVec 32 → Nat → BitVec 32

/-- Where a tile's MMA finds the codebooks of a CB4 weight block in SRAM, by what S14 holds: a byte address. The manual does not give
the place; it is free. -/
opaque codebookAt : BitVec 32 → Nat

/-- A value of a floating-point function that the manual leaves open for these operands: free. -/
opaque openFp : Nat → BitVec 32 → BitVec 32

/-- The bytes of the root key's SHA-256 that the ROM holds (R505): the manual gives no value. -/
opaque rootHash : Nat → BitVec 8

/-- How SMB_ADDR is strapped (R544). -/
opaque smbAddr : BitVec 3

/-- The bytes of the signature that the attestation key makes with an index over a report (R526, R528). -/
opaque attestSign : Nat → List (BitVec 8) → Nat → BitVec 8

end Sys2Proof.Config
end

