-- ==== Sys2Proof/Machine/Maps.lean ====
section
/-!
DEFINITION. Sparse tables: association lists in rising key order, and the form of them in which an unlisted key
reads as a default and no entry equals that default. Byte memories are such tables.
-/
namespace Sys2Proof.Machine

/-- A table: pairs of a key and a value, keys strictly rising. -/
abbrev Table (α : Type) := List (Nat × α)

/-- The value at a key, if the table lists it. -/
def tget? {α : Type} : Table α → Nat → Option α
  | [], _ => none
  | (k, v) :: m, i => if k = i then some v else tget? m i

/-- The table without a key. -/
def tdel {α : Type} (m : Table α) (i : Nat) : Table α := m.filter fun e => e.1 ≠ i

/-- A pair put at its place in a table that does not list its key. -/
def tins {α : Type} (i : Nat) (v : α) : Table α → Table α
  | [] => [(i, v)]
  | (k, w) :: m => if i < k then (i, v) :: (k, w) :: m else (k, w) :: tins i v m

/-- The table with a value at a key. -/
def tput {α : Type} (m : Table α) (i : Nat) (v : α) : Table α := tins i v (tdel m i)

/-- The value at a key, or the default of that key. -/
def sget {α : Type} (d : Nat → α) (m : Table α) (i : Nat) : α := (tget? m i).getD (d i)

/-- The table with a value at a key; the default of the key is not listed. -/
def sset {α : Type} [DecidableEq α] (d : Nat → α) (m : Table α) (i : Nat) (v : α) : Table α :=
  if v = d i then tdel m i else tput m i v

/-- The value at a listed key changed by `f`. -/
def tmod {α : Type} (f : α → α) (m : Table α) (i : Nat) : Table α :=
  m.map fun e => if e.1 = i then (e.1, f e.2) else e

/-- The value at a key changed by `f`, the default not listed. -/
def smod {α : Type} [DecidableEq α] (d : Nat → α) (m : Table α) (i : Nat) (f : α → α) : Table α :=
  sset d m i (f (sget d m i))

/-- Keys strictly rising. -/
def keysRise {α : Type} : Table α → Bool
  | [] => true
  | [_] => true
  | (i, _) :: (j, w) :: m => i < j && keysRise ((j, w) :: m)

/-- A byte memory: (address, byte) pairs, an unlisted address reads as zero. -/
abbrev Memory := List Host.Cell

/-- The canonical form of a byte memory: addresses strictly rising, and no byte listed that is zero. -/
abbrev Memory.wf (m : Memory) : Prop := keysRise m = true ∧ ∀ e ∈ m, e.2 ≠ 0

/-- The byte at an address. -/
def readByte (m : Memory) (a : Nat) : Byte := sget (fun _ => (0 : Byte)) m a

/-- A byte stored at an address. -/
def writeByte (m : Memory) (a : Nat) (b : Byte) : Memory := sset (fun _ => (0 : Byte)) m a b

/-- `n` bytes from an address on. -/
def readBytes (m : Memory) : Nat → Nat → List Byte
  | _, 0 => []
  | a, n + 1 => readByte m a :: readBytes m (a + 1) n

/-- Bytes stored from an address on, the first at the lowest. -/
def writeBytes (m : Memory) : Nat → List Byte → Memory
  | _, [] => m
  | a, b :: bs => writeBytes (writeByte m a b) (a + 1) bs

/-- Little-endian number of `n` bytes at an address (R5). -/
def readLe (m : Memory) (a n : Nat) : Nat := leNat (readBytes m a n)

/-- A number stored as `n` little-endian bytes (R5). -/
def writeLe (m : Memory) (a n v : Nat) : Memory := writeBytes m a (leBytes n v)

/-- The memory without the bytes from `a` on, `n` of them: they read as zero. -/
def clearBytes (m : Memory) (a n : Nat) : Memory := m.filter fun e => !(a ≤ e.1 && e.1 < a + n)

end Sys2Proof.Machine
end

