-- ==== Sys2Proof/Machine/BoardTypes.lean ====
section
/-!
DEFINITION. What the always-on domain, the standby island and the NOR device hold: criers, power management, the hold-up bank,
sensors, boot and firmware slots, the owner record and attestation (chapters 15, 17 and 18).
-/
namespace Sys2Proof.Machine

/-! Criers (chapter 15). -/

/-- A crier (R466, R467); ARMED and LOST stand with the host ports. `timer` is the time its timer started and the TIMEOUT_US
that applies to it. -/
structure Crier where
  enable : Bool
  sender : Nat
  receiver : Nat
  timeoutUs : Nat
  notice : Nat
  full : Bool
  emptied : Bool
  timedOut : Bool
  rejected : Bool
  timer : Option (Nat × Nat)
deriving DecidableEq, Repr

/-- The criers and their counters (R466, R467, R469). -/
structure MbxSt where
  criers : Table Crier
  posts : Nat
  timeouts : Nat
  rejects : Nat
  cfgBusy : Nat
deriving DecidableEq, Repr

/-! Power (chapters 1, 15 and 18). -/

/-- A high half that a reader has latched (R465): of PWR_CYCLES or of PWR_TIME_US. -/
structure CountLatch where
  reader : Reader
  cycles : Bool
  high : Nat
deriving DecidableEq, Repr

/-- Power management (R26, R463, R470–R473, R548, R550–R552). -/
structure PwrSt where
  noGate : Bool
  /-- Values of GATE_DELAY_US with the time of their writing, newest first (R470). -/
  delays : List (Nat × Nat)
  latches : List CountLatch
  inputW : Nat
  throttle : Bool
  excursion : Bool
  /-- Start of the excursion above 850 W (R26). -/
  excStart : Option Nat
  /-- Power samples of the last 100 ms by millisecond, newest first: the millisecond, the sum in W, their number. -/
  recent : List (Nat × Nat)
  hubTemp : Nat
  stackTemp : Nat
  lidTemp : Nat
  tThrottle : Bool
  wakes : Nat
  wakeNsMax : Nat
  throttles : Nat
  excursions : Nat
deriving DecidableEq, Repr

/-- What the standby island and the bank hold (R539, R540, R544, R545): readings survive every reset; the rest goes with
VIN_52. -/
structure IslandSt where
  powered : Bool
  /-- VIN_52 in units of 10 mV. -/
  inputMv : Nat
  /-- Bank voltage in units of 0.25 V, bank capacitance in nF as last measured. -/
  bankV : Nat
  bankNf : Nat
  thermTrip : Bool
  inputFault : Bool
  armedRecovery : Bool
  /-- Copies of SMB_RESET_EN and SMB_RECOVERY_EN as they stood at the last READY. -/
  resetEn : Bool
  recoveryEn : Bool
  /-- Whether READY was reached since VIN_52 came (SERIAL). -/
  ready : Bool
  modEn : Bool
  /-- MOD_PG. -/
  pg : Bool
deriving DecidableEq, Repr

/-! Boot and update (chapter 17). -/

/-- BOOT_STAT.STAGE (R531). -/
inductive Stage where
  | rom
  | fwInit
  | ready
  | recovery
  | noIdentity
deriving DecidableEq, Repr

/-- Where the module stands in its power life (R440, R508, R509, R542, R548): main regulators off; the power-on sequence due or
under way, with its cause; held in reset after a hold-up; held in reset by a thermal trip; past the sequence. -/
inductive Phase where
  | off
  | starting (cause : ResetCause)
  | heldUp
  | tripped
  | up
deriving DecidableEq, Repr

/-- A firmware slot (R511): its bytes, an unlisted one reading as zero, and whether its commit record stands. -/
structure FwSlot where
  bytes : Memory
  commit : Bool
deriving DecidableEq, Repr

/-- The boot record in force (R514): `trial` is 0 slot A, 1 slot B, 0xFF none. -/
structure BootRec where
  seq : Nat
  active : Nat
  trial : Nat
  tries : Nat
  last : Nat
deriving DecidableEq, Repr

/-- A staging session (R517, R522): its port, and the ranges programmed since its start, as offset and length. -/
structure StageSession where
  port : Port
  done : List (Nat × Nat)
deriving DecidableEq, Repr

/-- The owner record (R524). -/
structure OwnerRec where
  locked : Bool
  key : Option (List Byte)
  seq : Nat
deriving DecidableEq, Repr

/-- BOOT_RCV_STAT (R535). -/
structure RcvStat where
  state : Nat
  error : Nat
deriving DecidableEq, Repr

/-- State of boot, update and attestation (chapter 17). -/
structure BootSt where
  phase : Phase
  stage : Stage
  cause : ResetCause
  /-- The hash of the root key that the ROM holds (R505), and the copy of the identity block in use (R507), none before one is chosen. -/
  rootHash : List Byte
  identity : Memory
  slotA : FwSlot
  slotB : FwSlot
  /-- The running slot, 0 A or 1 B, whether it is on trial, whether this boot fell back. -/
  slot : Nat
  trial : Bool
  fallback : Bool
  record : BootRec
  session : Option StageSession
  /-- A reset that a completed command or download asked for and that is still to be taken (R518, R523). -/
  resetReq : Option ResetCause
  /-- End of the trial window (R519). -/
  trialEnd : Option Nat
  minSvn : Nat
  owner : OwnerRec
  challenge : Option (List Byte)
  /-- SMB_RESET_EN and SMB_RECOVERY_EN of BOOT_CTRL (R533). -/
  smbResetEn : Bool
  smbRecoveryEn : Bool
  /-- Health of the boot (R519): every stack trained, no SPARES_OUT, FATAL records created since the sequence began. -/
  stacksOk : Bool
  sparesOk : Bool
  /-- The next unused attestation index; `none` while no state record is committed (R526, R528). -/
  attNext : Option Nat
  /-- ATTESTs that wait, with their nonces and whether their result can be written, oldest first; start of the last one
  (R526). -/
  attWaiting : List (CmdRef × List Byte × Bool)
  attLast : Option Nat
  rcv : RcvStat
  /-- The DATA window of the recovery function (R522), an unlisted byte reading as zero. -/
  window : Memory
deriving DecidableEq, Repr

/-- The three together. -/
structure BoardSt where
  mbx : MbxSt
  pwr : PwrSt
  island : IslandSt
  boot : BootSt
deriving DecidableEq, Repr

/-- The sender of a crier after reset (R466): none but of the heartbeat criers; firmware gives those of 0–95. -/
def crierSender (c : Nat) : Nat := if c = 126 then 9 else if c = 127 then 10 else 15

/-- A crier after reset (R466, R467). -/
def crierReset (c : Nat) : Crier where
  enable := 126 ≤ c
  sender := crierSender c
  receiver := if 126 ≤ c then 8 else 15
  timeoutUs := 10000
  notice := 0
  full := false
  emptied := false
  timedOut := false
  rejected := false
  timer := none

/-- The criers after reset. -/
def mbxReset : MbxSt := { criers := [], posts := 0, timeouts := 0, rejects := 0, cfgBusy := 0 }

/-- Power management after reset (R470–R473, R550). -/
def pwrReset : PwrSt where
  noGate := false
  delays := []
  latches := []
  inputW := 0
  throttle := false
  excursion := false
  excStart := none
  recent := []
  hubTemp := 0
  stackTemp := 0
  lidTemp := 0
  tThrottle := false
  wakes := 0
  wakeNsMax := 0
  throttles := 0
  excursions := 0

/-- The standby island when VIN_52 comes (R545), MOD_EN high, nothing measured yet. -/
def islandReset : IslandSt where
  powered := true
  inputMv := 0
  bankV := 0
  bankNf := 0
  thermTrip := false
  inputFault := false
  armedRecovery := false
  resetEn := true
  recoveryEn := true
  ready := false
  modEn := true
  pg := false

/-- An erased slot. -/
def fwSlotEmpty : FwSlot := { bytes := [], commit := false }

/-- No boot record committed. -/
def bootRecReset : BootRec := { seq := 0, active := 0, trial := 0xFF, tries := 0, last := 0 }

/-- The boot block at power-on reset (R531–R535): in the ROM, with erased slots. -/
def bootReset : BootSt where
  phase := .starting .powerOn
  stage := .rom
  cause := .powerOn
  rootHash := (List.range 32).map Config.rootHash
  identity := []
  slotA := fwSlotEmpty
  slotB := fwSlotEmpty
  slot := 0
  trial := false
  fallback := false
  record := bootRecReset
  session := none
  resetReq := none
  trialEnd := none
  minSvn := 0
  owner := { locked := false, key := none, seq := 0 }
  challenge := none
  smbResetEn := true
  smbRecoveryEn := true
  stacksOk := false
  sparesOk := false
  attNext := some 0
  attWaiting := []
  attLast := none
  rcv := { state := 0, error := 0 }
  window := []

/-- The board after power-on reset. -/
def boardReset : BoardSt := { mbx := mbxReset, pwr := pwrReset, island := islandReset, boot := bootReset }

end Sys2Proof.Machine
end

