-- ==== Sys2Proof/Machine/HostTypes.lean ====
section
/-!
DEFINITION. What the host ports hold: queue pairs, fetched commands, the duplicate table, the split-write latches and
the writes waiting for the host (chapter 2; the HOST queues of R399).
-/
namespace Sys2Proof.Machine

/-- PTN_QSTAT.STATE (R41). -/
inductive QState where
  | disabled
  | running
  | draining
  | halted
deriving DecidableEq, Repr

/-- A queue pair: its registers (R39–R41), its doorbells (R45), its phase (R48) and its interrupt counting (R40). -/
structure Queue where
  sqb : Nat
  cqb : Nat
  enable : Bool
  sqLog2 : Nat
  cqLog2 : Nat
  vec : Nat
  intCount : Nat
  intTime : Nat
  state : QState
  dbErr : Bool
  cfgErr : Bool
  dmaErr : Bool
  cqTail : Nat
  sqHead : Nat
  sqTail : Nat
  cqHead : Nat
  phase : Bool
  unsignalled : Nat
  oldest : Option Nat
deriving DecidableEq, Repr

/-- How far a fetched command has come: waiting for its turn, running, or with its entry waiting to be written. -/
inductive CmdPhase where
  | waiting
  | running
  | finishing
deriving DecidableEq, Repr

/-- A command fetched and not yet completed: its packet (R50), its queue, its fetch time, and what happened to it. -/
structure Cmd where
  ref : CmdRef
  queue : QRef
  opcode : Nat
  pptr : Bool
  fence : Bool
  noInt : Bool
  handle : Nat
  epoch : Nat
  deadline : Nat
  resultLen : Nat
  resultPtr : Nat
  dataLen : Nat
  dataPtr : Nat
  packet : List Byte
  fetched : Nat
  phase : CmdPhase
  /-- Completes without writing its entry: its queue was halted, reset or adopted away (R44, R67, R69). -/
  mute : Bool
  /-- The command was fetched by this module for a fabric request, not from a ring (R360). -/
  remote : Bool
  /-- SEQ of a record of this command that was dropped (R484). -/
  lostSeq : Option Nat
  /-- An error record was queued for this command (R54). -/
  errRec : Bool
  /-- Nothing ends the command any more: its commit point as a mutation is past (R65), or it is the echo of a completed one
  (R59). -/
  committed : Bool
deriving DecidableEq, Repr

/-- What a completed command answered, for the echo of a duplicate (R59). -/
structure Answer where
  status : Nat
  count : Nat
  detail : Nat
  resultBytes : Nat
deriving DecidableEq, Repr

/-- An entry of the duplicate table (R56): `none` while the command runs. -/
structure Dup where
  ref : CmdRef
  fetched : Nat
  answer : Option Answer
deriving DecidableEq, Repr

/-- The answer of a search that goes not to a ring but to the fabric (R372): of a sub-search run for another node, or of this
node's own slot of a composed search. -/
structure FabricAns where
  ref : CmdRef
  status : Nat
  count : Nat
  detail : Nat
  result : List Byte
deriving DecidableEq, Repr

/-- A DMA write to the host that waits in a HOST queue (R399): result bytes, or a completion entry. -/
inductive HostItem where
  | data (c : CmdRef) (ptr : Nat) (bytes : List Byte)
  | entry (c : CmdRef) (a : Answer) (dup : Bool)
deriving DecidableEq, Repr

/-- What the host sets in a function's configuration space (R32): the largest DMA write and read, relaxed ordering, and ECRC. -/
structure PcieCfg where
  maxPayload : Nat
  maxRead : Nat
  relaxed : Bool
  ecrcGen : Bool
  ecrcCheck : Bool
deriving DecidableEq, Repr

/-- A function's configuration after reset: ECRC off (R32); the sizes are PRESUMED, as PCI Express resets them (log 109). -/
def pcieReset (_ : Nat) : PcieCfg := { maxPayload := 128, maxRead := 512, relaxed := true, ecrcGen := false, ecrcCheck := false }

/-- State of the host ports (chapter 2). -/
structure HostSt where
  queues : Table Queue
  cmds : List Cmd
  dups : List Dup
  latches : Table (Nat × Nat)
  /-- What waits in the HOST queue of each partition, with the time it came (R399, R404). -/
  hostq : Table (List (Nat × HostItem))
  /-- Answers of searches on their way to the fabric (R372), oldest first. -/
  fabricAns : List FabricAns
  linkUp : List Port
  linkTrained : List Port
  vfEnable : List Port
  /-- Configuration space per function, by the key of its latch (R32). -/
  pcie : Table PcieCfg
  /-- Ports whose heartbeat watch is armed, and ports whose heartbeat is lost (R68, R459). -/
  hbArmed : List Port
  hbLost : List Port
  d3 : List Fn
  /-- Ports whose PERST_N is asserted (R508). -/
  perst : List Port
deriving DecidableEq, Repr

/-- Key of a queue pair: 17 per partition, then the two PF control queues (R38). -/
def qkey (q : QRef) : Nat :=
  match q.scope with
  | .part p => 17 * p + q.q
  | .pf .a => 1088
  | .pf .b => 1089

/-- A queue pair as reset leaves it (R39–R41); bases are X, held as 0. -/
def queueReset (k : Nat) : Queue where
  sqb := 0
  cqb := 0
  enable := false
  sqLog2 := 4
  cqLog2 := 4
  vec := if k < 1088 then k % 17 else 0
  intCount := 0
  intTime := 0
  state := .disabled
  dbErr := false
  cfgErr := false
  dmaErr := false
  cqTail := 0
  sqHead := 0
  sqTail := 0
  cqHead := 0
  phase := true
  unsignalled := 0
  oldest := none

/-- The host ports after power-on. -/
def hostReset : HostSt where
  queues := []
  cmds := []
  dups := []
  latches := []
  hostq := []
  fabricAns := []
  linkUp := []
  linkTrained := []
  vfEnable := []
  pcie := []
  hbArmed := []
  hbLost := []
  d3 := []
  perst := []

end Sys2Proof.Machine
end

