-- ==== Sys2Proof/Machine/EmbTypes.lean ====
section
/-!
DEFINITION. What embedding tables hold: records, replica and fetched copies, the ledger, the gradient sets received, and the
commands in progress (chapter 10).
-/
namespace Sys2Proof.Machine

/-- The fields of a table descriptor that host software gives (R297). -/
structure TabDesc where
  part : Nat
  elem : Nat
  dim : Nat
  opt : Nat
  addr : Nat
  rows : Nat
  rRows : Nat
  seed : Nat
  shards : Nat
  shard : Nat
  fetchRows : Nat
  ledgerRows : Nat
  copySlots : Nat
deriving DecidableEq, Repr

/-- A table (R297–R316): records by local row; replica copies, holders, fetched copies, ledger sums by physical row; the
gradient sets of the step being closed by shard. Unlisted records are zero. -/
structure Tab where
  desc : TabDesc
  step : Nat
  closing : Bool
  recs : Table (List Byte)
  copies : Table (List Byte)
  holders : Table (List Nat)
  fetched : Table (List Byte)
  ledger : Table (List W32)
  /-- What the updates of the step have added to the ledger, in order: one that is stopped before its entry is written is taken out
  again (R318). -/
  adds : List (CmdRef × List (Nat × List W32))
  /-- Gradient sets received, by 65,536 × step + shard, those that are whole, and the refresh sets that are (R312, R316). -/
  sets : Table (List (Nat × List Byte))
  setsDone : List Nat
  refreshed : List Nat
  /-- The first row of its pinned region in each pseudo-channel (R192, R301). -/
  pins : List Nat
deriving DecidableEq, Repr

/-- Hyperparameters of a close (R308), as FP32 words. -/
structure Hyper where
  lr : W32
  beta1 : W32
  beta2 : W32
  eps : W32
  wd : W32
deriving DecidableEq, Repr

/-- What a table command does (R303, R306, R308, R317). -/
inductive EmbKind where
  | pool
  | dump
  | update
  | load
  | close
  | install
  | drop
  | refresh
deriving DecidableEq, Repr

/-- How far a close has come (R312): waiting to start, waiting for the gradient sets, past its commit point with its rows being updated,
and waiting for the refresh sets. -/
inductive ClosePhase where
  | waiting
  | sets
  | commit
  | refresh
deriving DecidableEq, Repr

/-- A table command in progress (R303–R317): what it asks, what it waits for, and what it has done. -/
structure EmbCmd where
  ref : CmdRef
  part : Nat
  ctx : Nat
  handle : Nat
  kind : EmbKind
  bags : Nat
  fmt : Nat
  weighted : Bool
  step : Nat
  input : List Byte
  hyper : Hyper
  phase : ClosePhase
  /-- Shards whose answer is awaited. -/
  awaits : List Nat
  /-- Rows requested of their owners that have not arrived (R305, R317). -/
  asked : List Nat
  /-- Physical rows named that other shards own (R317). -/
  named : List Nat
  /-- Rows that have arrived for it alone: fetched with STEP 0, or copies to install. -/
  copies : Table (List Byte)
  /-- The rows as its stalls have read them. -/
  seen : Table (List Byte)
  /-- The rows that replica copies gave a lookup, or that a close has updated. -/
  picked : List Nat
  /-- Rows dropped, installed or refreshed. -/
  done : Nat
  /-- Whether its service jobs have started, and the stalls where one still runs (R194). -/
  started : Bool
  jobs : List Nat
  /-- The rows that activations of its jobs have reached, each with its place in its job, until they are worked on: none between two
  commands. -/
  due : List (Nat × Nat)
  /-- A shard's refresh set never came (R316). -/
  shardLost : Bool
  bad : Option (Nat × Bool)
  resultOk : Bool
deriving DecidableEq, Repr

/-- Counters of a partition (R320). -/
structure EmbCounts where
  pooled : Nat
  copyHits : Nat
  fetched : Nat
  ledgerAdds : Nat
  updated : Nat
  sentBytes : Nat
  closes : Nat
  closeFails : Nat
deriving DecidableEq, Repr

/-- State of the embedding tables (chapter 10). -/
structure EmbSt where
  tables : Table Tab
  cmds : List EmbCmd
  counts : Table EmbCounts
deriving DecidableEq, Repr

/-- Nothing counted. -/
def embCountsReset (_ : Nat) : EmbCounts :=
  { pooled := 0, copyHits := 0, fetched := 0, ledgerAdds := 0, updated := 0, sentBytes := 0, closes := 0, closeFails := 0 }

/-- No table created. -/
def embReset : EmbSt := { tables := [], cmds := [], counts := [] }

end Sys2Proof.Machine
end

