-- ==== Sys2Proof/Machine/ErrTypes.lean ====
section
/-!
DEFINITION. Error records, their queues, the repair table and the units out of service (chapter 16).
-/
namespace Sys2Proof.Machine

/-- An error record (R479); its SEQ is `seq`. -/
structure Rec where
  seq : Nat
  sev : Nat
  cls : Nat
  locKind : Nat
  handled : Bool
  escalated : Bool
  nested : Bool
  cmd : Bool
  refusedRepair : Bool
  count : Nat
  part : Nat
  queue : Nat
  timeFirst : Nat
  timeLast : Nat
  rid : Nat
  unit : Nat
  unitKind : Nat
  loc : List Byte
  nestedSeq : Nat
deriving DecidableEq, Repr

/-- An entry of the repair table (R493). -/
structure Repair where
  kind : Nat
  origin : Nat
  state : Nat
  place : Nat
  logical : Nat
  row : Nat
  cause : Nat
deriving DecidableEq, Repr

/-- A logical unit out of service (R489): whether it still awaits a spare, or is retired (R491), the record that took
it out, and whether its work ended at once (R490). -/
structure UnitOut where
  kind : UnitKind
  unit : Nat
  retired : Bool
  seq : Nat
  fatal : Bool
deriving DecidableEq, Repr

/-- One of the four error queues (R482): the records held, oldest first, the slot of the oldest, and LOST. -/
structure ErrQueue where
  recs : List Rec
  head : Nat
  lost : Bool
deriving DecidableEq, Repr

/-- Per-stack DRAM error counters (R500). -/
structure DramCounts where
  ce : Nat
  ue : Nat
  fixed : Nat
  passes : Nat
deriving DecidableEq, Repr

/-- State of the error collector (chapter 16). -/
structure ErrSt where
  intMin : Nat
  owner : Nat
  ceLimit : Nat
  scrubH : Nat
  mergeMs : Nat
  halted : Bool
  nextSeq : Nat
  queues : Table ErrQueue
  dram : Table DramCounts
  sramCe : Nat
  sramUe : Nat
  nocRetry : Nat
  nocUe : Nat
  merged : Nat
  lost : Nat
  escalated : Nat
  watchdog : Nat
  /-- FATAL records created since the power-on sequence began (R519). -/
  fatals : Nat
  /-- Boundary and link of each on-die link out of service (R477). -/
  nocOut : List (Nat × Nat)
  outs : List UnitOut
  /-- Unused spares: key 4 × kind + quadrant for tiles 0, walkers 1, tally units 2; key 12 + stack for stalls (R18). -/
  spares : Table Nat
  /-- Repair table, factory entries first, then boot, then field (R492, R493). -/
  factory : List Repair
  bootRepairs : List Repair
  field : List Repair
  /-- Corrected errors of a unit's own SRAM in the second named: (second, count) by unit key (R489). -/
  ceCounts : Table (Nat × Nat)
  /-- Codewords written back corrected and not read since (R476, R494). -/
  rewritten : List MemPlace
  /-- Row repairs made in a bank: by bank key (R494). -/
  rowRepairs : Table Nat
deriving DecidableEq, Repr

/-- An empty error queue. -/
def errQueueReset (_ : Nat) : ErrQueue := { recs := [], head := 0, lost := false }

/-- No error counted. -/
def dramCountsReset (_ : Nat) : DramCounts := { ce := 0, ue := 0, fixed := 0, passes := 0 }

/-- Spares of a module fresh from test (R18). -/
def sparesReset (k : Nat) : Nat := if k < 4 then 2 else if k < 12 then 1 else 2

/-- The error collector after power-on (R496–R500). -/
def errReset : ErrSt where
  intMin := 2
  owner := 0
  ceLimit := 64
  scrubH := 24
  mergeMs := 100
  halted := false
  nextSeq := 1
  queues := []
  dram := []
  sramCe := 0
  sramUe := 0
  nocRetry := 0
  nocUe := 0
  merged := 0
  lost := 0
  escalated := 0
  watchdog := 0
  fatals := 0
  nocOut := []
  outs := []
  spares := []
  factory := []
  bootRepairs := []
  field := []
  ceCounts := []
  rewritten := []
  rowRepairs := []

end Sys2Proof.Machine
end

