-- ==== Sys2Proof/Machine/FabTypes.lean ====
section
/-!
DEFINITION. What the fabric holds: lanes with their buffers, credits and counters, messages, requests, the fabric duplicate
table, and the compositions with their slots (chapter 12).
-/
namespace Sys2Proof.Machine

/-- XQ_LSTAT.STATE (R351). -/
inductive LaneState where
  | disabled
  | training
  | up
  | down
deriving DecidableEq, Repr

/-- A DATA cell (R352), its link fields apart. -/
structure Cell where
  cls : Nat
  first : Bool
  last : Bool
  transit : Bool
  dst : Nat
  src : Nat
  msgId : Nat
  offset : Nat
  hops : Nat
  dpart : Nat
  payload : List Byte
  fcrc : Nat
deriving DecidableEq, Repr

/-- Where the credits of a frame go back to once it is forwarded or placed (R356): lane, pool and class, and cells. -/
structure Refund where
  lane : Nat
  pool : Nat
  cls : Nat
  cells : Nat
deriving DecidableEq, Repr

/-- A frame (R358) that waits to be sent, or was received whole: `part` is the partition whose queue holds it, 64 for a
transit frame; `at0` is when it came. -/
structure Frame where
  cls : Nat
  dst : Nat
  src : Nat
  msgId : Nat
  offset : Nat
  hops : Nat
  dpart : Nat
  payload : List Byte
  part : Nat
  at0 : Nat
  refund : Option Refund
deriving DecidableEq, Repr

/-- A cell in the replay buffer (R355): its sequence number, how often it was sent, when last, when it was first asked for
again, and the frame it ends. -/
structure Sent where
  lseq : Nat
  cell : Cell
  frame : Frame
  sends : Nat
  sentAt : Nat
  firstNak : Option Nat
deriving DecidableEq, Repr

/-- A lane (R351–R356, R386–R388). -/
structure Lane where
  enable : Bool
  test : Nat
  txInv : Bool
  rxInv : Bool
  state : LaneState
  prbsErr : Bool
  peer : Nat
  trainAt : Nat
  /-- Frames assigned to the lane, oldest first; the cells of the frame being sent that are still to go. -/
  txq : List Frame
  cur : List (Cell × Frame)
  replay : List Sent
  /-- Position in the replay buffer of the next cell to send again. -/
  again : Option Nat
  nextSeq : Nat
  expSeq : Nat
  nak : Bool
  discarding : Bool
  ackAt : Nat
  /-- Credits held, and credits to return, by 4 × pool + class. -/
  credits : Table Nat
  owed : Table Nat
  /-- Cells of the frame being received, newest first; frames received whole. -/
  rx : List Cell
  rxDone : List Frame
  /-- Deficit round robin: the queue whose turn it is, and whether it has had its quantum (R401). -/
  turn : Nat
  inTurn : Bool
  cells : Nat
  replays : Nat
  fecCorr : Nat
  fecUncorr : Nat
  /-- When the last uncorrectable codewords came, newest first, at most 16 (R351). -/
  uncorrAt : List Nat
  downs : Nat
  trainFail : Nat
deriving DecidableEq, Repr

/-- A message (R359, R360). -/
structure Msg where
  src : Nat
  dst : Nat
  msgId : Nat
  cls : Nat
  dpart : Nat
  kind : Nat
  short : Bool
  resent : Bool
  status : Nat
  reqId : Nat
  comp : Nat
  epoch : Nat
  slot : Nat
  seq : Nat
  body : List Byte
deriving DecidableEq, Repr

/-- The lane that a message has taken (R361, R383), with the time of its first frame: a message number is unique for 4 s (R352). -/
structure Path where
  src : Nat
  msgId : Nat
  lane : Nat
  at0 : Nat
deriving DecidableEq, Repr

/-- A message being reassembled (R358): its bytes by offset, the first copy of each kept. -/
structure Partial where
  src : Nat
  msgId : Nat
  cls : Nat
  dpart : Nat
  bytes : Table Byte
deriving DecidableEq, Repr

/-- What waits for the answer of a request. -/
inductive ReqFor where
  | command (c : CmdRef)
  | handoff (comp slot : Nat)
deriving DecidableEq, Repr

/-- The record of a request (R362): the message as last sent, who waits, the bodies still to be sent once it is
acknowledged, how often it was resent, when it was first sent, and its timeout. -/
structure Req where
  id : Nat
  part : Nat
  msg : Msg
  waiter : ReqFor
  rest : List (List Byte)
  resent : Nat
  at0 : Nat
  treq : Nat
deriving DecidableEq, Repr

/-- A PROBE sent when a request timed out (R380). -/
structure Probe where
  node : Nat
  at0 : Nat
  treq : Nat
deriving DecidableEq, Repr

/-- State of an entry of the fabric duplicate table (R363). -/
inductive FDupState where
  | running
  | stored (m : Msg)
  | unstored
deriving DecidableEq, Repr

/-- An entry of the fabric duplicate table (R363), with the slot it is addressed to (R375). -/
structure FDup where
  src : Nat
  reqId : Nat
  comp : Nat
  slot : Nat
  part : Nat
  at0 : Nat
  hold : Nat
  state : FDupState
deriving DecidableEq, Repr

/-- Slot states (R375). -/
inductive SlotState where
  | none
  | owned
  | offering
  | receiving
  | released
deriving DecidableEq, Repr

/-- SLOT STATE code (R375). -/
def SlotState.code : SlotState → Nat
  | .none => 0
  | .owned => 1
  | .offering => 2
  | .receiving => 3
  | .released => 4

/-- What a node holds of a slot (R375–R379): the state and since when; as a source, the token, target, command, start and
record count of the handoff in progress; as a target, the token, record count and bytes of the one it takes; the token it
took last; and the OWNER_QUERY that a handoff that timed out keeps sending. -/
structure Slot where
  state : SlotState
  since : Nat
  token : Nat
  peer : Nat
  cmd : Option CmdRef
  at0 : Nat
  count : Nat
  rxToken : Nat
  announced : Nat
  rx : List Byte
  committed : Bool
  lastToken : Nat
  query : Option Nat
  queryAt : Nat
deriving DecidableEq, Repr

/-- An activation block held for a stage (R285, R374): its bytes as they have come. -/
structure Block where
  comp : Nat
  slot : Nat
  seq : Nat
  bytes : List Byte
deriving DecidableEq, Repr

/-- The epoch before the current one (R367): its members, and when its drain window ends. -/
structure PrevEpoch where
  epoch : Nat
  members : List (Nat × Nat)
  endsAt : Nat
deriving DecidableEq, Repr

/-- An installed composition (R366–R370): kinds 0 INDEX, 1 TABLE, 2 PIPELINE; members as (node, partition) by slot. -/
structure Comp where
  kind : Nat
  handle : Nat
  part : Nat
  epoch : Nat
  members : List (Nat × Nat)
  prev : Option PrevEpoch
  /-- End of the drain window that the last INSTALL began (R367, R375). -/
  windowEnd : Option Nat
  drainUs : Nat
  treqUs : Nat
  rxbufMib : Nat
  /-- Nodes LOST (R380), and when SHORT was last received from a node (R382). -/
  lost : List Nat
  shorts : Table Nat
  slots : Table Slot
  /-- SEQs of activation blocks consumed (R285, R374). -/
  consumed : List Nat
  nextToken : Nat
  /-- When the orphan sweep last ran (R379). -/
  sweptAt : Nat
deriving DecidableEq, Repr

/-- A composed search in progress (R372): the slots that have not answered yet, this node's own among them while `own`
holds; the result lists by slot; the worst status with its DETAIL; this node's snapshot CSN and statistics record. -/
structure CompSearch where
  ref : CmdRef
  comp : Nat
  part : Nat
  k : Nat
  slot : Nat
  own : Bool
  awaits : List Nat
  answers : Table (List Byte)
  worst : Option (Nat × Nat)
  csn : Nat
  stats : List Byte
  resultOk : Bool
deriving DecidableEq, Repr

/-- A sub-search this node runs for another (R372): the request it answers. -/
structure SubSearch where
  ref : CmdRef
  msg : Msg
deriving DecidableEq, Repr

/-- Node counters (R389). -/
structure FabCounts where
  transitDrop : Nat
  badMsg : Nat
  orphans : Nat
  cfgBusy : Nat
deriving DecidableEq, Repr

/-- Counters of a partition (R390). -/
structure XqCounts where
  reqs : Nat
  resent : Nat
  timeouts : Nat
  lateRsp : Nat
  redirects : Nat
  throttled : Nat
deriving DecidableEq, Repr

/-- State of the fabric (chapter 12). -/
structure FabSt where
  timeoutDefault : Nat
  drainDefault : Nat
  lanes : Table Lane
  /-- Routing entries by node, as their registers hold them (R391). -/
  routes : Table Nat
  /-- The lanes that messages have taken (R361). -/
  paths : List Path
  /-- Frames whose route has no UP lane (R361). -/
  waiting : List Frame
  partials : List Partial
  inbox : List Msg
  /-- Requests noted in the duplicate table that wait for an epoch or a slot, with the time of their arrival (R368, R375). -/
  held : List (Msg × Nat)
  nextMsg : Nat
  nextReq : Nat
  nextRemote : Nat
  reqs : List Req
  probes : List Probe
  fdups : List FDup
  comps : Table Comp
  blocks : List Block
  searches : List CompSearch
  subs : List SubSearch
  counts : FabCounts
  xq : Table XqCounts
deriving DecidableEq, Repr

/-- A DISABLED lane (R386–R388). -/
def laneReset (_ : Nat) : Lane where
  enable := false
  test := 0
  txInv := false
  rxInv := false
  state := .disabled
  prbsErr := false
  peer := 0
  trainAt := 0
  txq := []
  cur := []
  replay := []
  again := none
  nextSeq := 0
  expSeq := 0
  nak := false
  discarding := false
  ackAt := 0
  credits := []
  owed := []
  rx := []
  rxDone := []
  turn := 0
  inTurn := false
  cells := 0
  replays := 0
  fecCorr := 0
  fecUncorr := 0
  uncorrAt := []
  downs := 0
  trainFail := 0

/-- A slot of which the node claims nothing. -/
def slotReset (_ : Nat) : Slot where
  state := .none
  since := 0
  token := 0
  peer := 0
  cmd := none
  at0 := 0
  count := 0
  rxToken := 0
  announced := 0
  rx := []
  committed := false
  lastToken := 0
  query := none
  queryAt := 0

/-- Nothing counted. -/
def xqCountsReset (_ : Nat) : XqCounts :=
  { reqs := 0, resent := 0, timeouts := 0, lateRsp := 0, redirects := 0, throttled := 0 }

/-- The fabric after power-on (R384–R391). -/
def fabReset : FabSt where
  timeoutDefault := 2000
  drainDefault := 2000
  lanes := []
  routes := []
  paths := []
  waiting := []
  partials := []
  inbox := []
  held := []
  nextMsg := 0
  nextReq := 0
  nextRemote := 0
  reqs := []
  probes := []
  fdups := []
  comps := []
  blocks := []
  searches := []
  subs := []
  counts := { transitDrop := 0, badMsg := 0, orphans := 0, cfgBusy := 0 }
  xq := []

end Sys2Proof.Machine
end

