-- ==== Sys2Proof/Machine/FlashTypes.lean ====
section
/-!
DEFINITION. What the media manager and the attached NAND hold (chapter 14): profile and format record, LUNs with their reads
and operations, blocks, superblocks, pages, the map, the journal and the checkpoints. The data of a page is held by the index
structure that the page serves; a page holds its tag.
-/
namespace Sys2Proof.Machine

/-- MED_STAT.STATE (R449). -/
inductive MedState where
  | unconfigured
  | unformatted
  | mounting
  | ready
  | readOnly
deriving DecidableEq, Repr

/-- The tag of a programmed page (R417); CHECK follows from the rest. -/
structure Tag where
  kind : Nat
  handle : Nat
  lpn : Nat
  wseq : Nat
  csn : Nat
  sb : Nat
deriving DecidableEq, Repr

/-- States of a block (R421). -/
inductive BState where
  | free
  | reserved
  | opened
  | closed
  | dirty
  | retired
deriving DecidableEq, Repr

/-- A block (R421): its state and erase count. -/
structure NandBlock where
  state : BState
  erases : Nat
deriving DecidableEq, Repr

/-- A superblock (R419): its stripe set and stream, its blocks by plane and then by channel, and the data pages given out so
far. -/
structure Super where
  set : Nat
  stream : Nat
  members : List Nat
  next : Nat
deriving DecidableEq, Repr

/-- A stream of a stripe set (R420): its open and its reserved superblock. -/
structure Stream where
  opened : Option Nat
  reserved : Option Nat
deriving DecidableEq, Repr

/-- What a program is for: an index write with the CSN of its group or crate; a copy of the page at a PPN, which is a copy of
garbage collection, of cold relocation, or another; a parity page; a page of the running checkpoint. -/
inductive ProgFor where
  | index
  | copy (old : Nat) (gc cold : Bool)
  | parity
  | ckpt
deriving DecidableEq, Repr

/-- What an operation of a LUN does: a page of a stripe set programmed, a page of the segment being written or an anchor
record programmed in SLC mode, a block erased. -/
inductive OpWork where
  | program (ppn : Nat) (tag : Tag) (why : ProgFor)
  | segPage
  | anchor (n : Nat)
  | erase (block : Nat)
deriving DecidableEq, Repr

/-- An operation of a LUN: whether it has started, how often it was suspended, whether it is, when it last started or resumed, and
the array reads run since its suspension (R424). -/
structure LunOp where
  work : OpWork
  started : Bool
  susp : Nat
  suspended : Bool
  since : Nat
  reads : Nat
deriving DecidableEq, Repr

/-- Whom a read serves: a crate batch; entries of a rerank that share a page (R122); the media manager's own copy of the page, for
garbage collection, for cold relocation, or for neither. -/
inductive ReadFor where
  | crate (h crate : Nat)
  | rerank (c : CmdRef) (entries : List Nat)
  | copy (gc cold : Bool)
deriving DecidableEq, Repr

/-- A read of one page (R424): its partition, 64 for the media manager's own; whether a suspension was requested for it, whether its
array read has begun, and whether its data is discarded (R427). -/
structure FRead where
  lpn : Nat
  ppn : Nat
  part : Nat
  who : ReadFor
  queued : Nat
  asked : Bool
  begun : Bool
  dropped : Bool
deriving DecidableEq, Repr

/-- A read that has ended and waits for its taker: for an uncorrectable one, the SEQ of its record and whether that record
was dropped. -/
structure Arrived where
  who : ReadFor
  bad : Option (Nat × Bool)
deriving DecidableEq, Repr

/-- States of a LUN (R450); a LUN that the profile does not give is ABSENT. -/
inductive LunState where
  | ready
  | failed
  | rebuilt
deriving DecidableEq, Repr

/-- A LUN: its read queue, the operations issued to it of which the first runs, and the turn of the weighted round robin that
feeds it: the queue served and the reads it may still send (R424). -/
structure Lun where
  state : LunState
  reads : List FRead
  ops : List LunOp
  turn : Nat
  left : Nat
deriving DecidableEq, Repr

/-- A journal entry (R431). -/
inductive JEntry where
  | map (lpn ppn : Nat)
  | trim (first count wseq : Nat)
  | reloc (lpn new old : Nat) (gc cold : Bool)
  | block (b : Nat) (state : BState) (erases : Nat)
  | super (sb set stream : Nat) (members : List Nat)
  | group (handle csn bytes : Nat)
  | ckptBegin (n : Nat)
  | ckptCommit (n root : Nat)
deriving DecidableEq, Repr

/-- A stream entry of a segment header (R430): set, stream, open superblock, SCAN_FROM, reserved superblock. -/
structure StreamEntry where
  set : Nat
  stream : Nat
  opened : Option Nat
  scanFrom : Nat
  reserved : Option Nat
deriving DecidableEq, Repr

/-- A segment (R430): its number, WSEQ_FLUSH, its body, its stream entries, its pages; `isMeta` marks a metadata segment. -/
structure Segment where
  seq : Nat
  wseqFlush : Nat
  isMeta : Bool
  entries : List JEntry
  streams : List StreamEntry
  pages : Nat
deriving DecidableEq, Repr

/-- The segment being written: the page under way, the LUNs that have still to program it, and whether it is committed. -/
structure SegWrite where
  seg : Segment
  page : Nat
  left : List Nat
  committed : Bool
deriving DecidableEq, Repr

/-- A checkpoint in progress (R433): its number, its start, the pages still to program, those programmed, the segment of its
CKPT_BEGIN, and whether its CKPT_COMMIT is appended. -/
structure Ckpt where
  num : Nat
  start : Nat
  toGo : Nat
  pages : List Nat
  beginSeg : Nat
  sealed : Bool
deriving DecidableEq, Repr

/-- The format record (R446). -/
structure MedFormat where
  logicalPages : Nat
  width : Nat
  journalBlocks : Nat
deriving DecidableEq, Repr

/-- The last-gasp record (R441): the programs as PPN, LPN and WSEQ. -/
structure Gasp where
  wseq : Nat
  seq : Nat
  time : Nat
  programs : List (Nat × Nat × Nat)
deriving DecidableEq, Repr

/-- Node counters of flash (R451). -/
structure MedCounts where
  programs : Nat
  erases : Nat
  suspends : Nat
  retries : Nat
  rebuilt : Nat
  gcPages : Nat
  wlPages : Nat
  segments : Nat
  journalWait : Nat
deriving DecidableEq, Repr

/-- Partition counters of flash (R451). -/
structure MedPart where
  reads : Nat
  readUs : Nat
  uncorr : Nat
  writes : Nat
deriving DecidableEq, Repr

/-- State of the media manager and the NAND (chapter 14). -/
structure FlashSt where
  /-- In NOR: the profile of the next power-on and the format record (R445, R446). -/
  norProfile : Option (List Byte)
  format : Option MedFormat
  /-- The profile in use since power-on. -/
  profile : Option (List Byte)
  state : MedState
  /-- Programs and erases are held for want of bank energy, and those that wait for it, with their LUNs (R541). -/
  held : Bool
  heldOps : List (Nat × OpWork)
  unclean : Bool
  gcLow : Nat
  gcHigh : Nat
  suspLimit : Nat
  ckptS : Nat
  wlRate : Nat
  wlActive : Bool
  mountMs : Nat
  luns : Table Lun
  /-- WP_N as every channel drives it: high from the end of the part check on, low from the end of a hold-up (R411, R440). -/
  wpHigh : Bool
  /-- Pages of the superblock under cold relocation that are still to be copied, and the last time some were (R423). -/
  coldLeft : List Nat
  coldAt : Nat
  /-- A flush is due and waits for room in the ring (R432). -/
  flushWaits : Bool
  /-- Reads that wait in the hub, one queue per partition and, at 64, one for the media manager's own (R424). -/
  hub : Table (List FRead)
  arrived : List Arrived
  /-- Erase count of a block that `blocks` does not list. -/
  eraseBase : Nat
  blocks : Table NandBlock
  supers : Table Super
  nextSb : Nat
  /-- Streams by set × 3 + stream: 0 USER, 1 RELOC, 2 CKPT. -/
  streams : Table Stream
  /-- Programmed pages by PPN. -/
  pages : Table Tag
  map : Table Nat
  /-- The map as checkpoint and committed segments give it. -/
  durMap : Table Nat
  trims : List (Nat × Nat × Nat)
  wseq : Nat
  /-- Programs that wait for a FREE superblock (R437). -/
  waiting : List (Tag × ProgFor)
  nextSet : Nat
  /-- Journal entries in DRAM, and whether a flush is forced (R432). -/
  entries : List JEntry
  flushDue : Bool
  lastFlush : Nat
  writing : Option SegWrite
  nextSeg : Nat
  ringPos : Nat
  /-- Committed segments that the newest committed checkpoint needs. -/
  segs : List Segment
  /-- Channels whose journal LUN lies in slot 1 (R443). -/
  jslot1 : List Nat
  ckpt : Nat
  ckptPages : List Nat
  running : Option Ckpt
  lastCkpt : Nat
  ckptWaiters : List CmdRef
  /-- Stripe sets being collected, superblocks being emptied. -/
  collecting : List Nat
  victims : List Nat
  gasp : Option Gasp
  counts : MedCounts
  parts : Table MedPart
deriving DecidableEq, Repr

/-- A block no list names: FREE with the erase count all such blocks have. -/
def blockReset (base : Nat) (_ : Nat) : NandBlock := { state := .free, erases := base }

/-- A LUN with nothing to do. -/
def lunReset (_ : Nat) : Lun := { state := .ready, reads := [], ops := [], turn := 0, left := 0 }

/-- A stream with no superblock. -/
def streamReset (_ : Nat) : Stream := { opened := none, reserved := none }

/-- Nothing counted. -/
def medCountsReset : MedCounts where
  programs := 0
  erases := 0
  suspends := 0
  retries := 0
  rebuilt := 0
  gcPages := 0
  wlPages := 0
  segments := 0
  journalWait := 0

/-- Nothing counted. -/
def medPartReset (_ : Nat) : MedPart := { reads := 0, readUs := 0, uncorr := 0, writes := 0 }

/-- The media manager after the first power-on, with no profile installed (R413, R414, R448, R449, R451). -/
def flashReset : FlashSt where
  norProfile := none
  format := none
  profile := none
  state := .unconfigured
  held := false
  heldOps := []
  unclean := false
  gcLow := 4
  gcHigh := 8
  suspLimit := 4
  ckptS := 60
  wlRate := 256
  wlActive := false
  mountMs := 0
  luns := []
  wpHigh := false
  coldLeft := []
  coldAt := 0
  flushWaits := false
  hub := []
  arrived := []
  eraseBase := 0
  blocks := []
  supers := []
  nextSb := 0
  streams := []
  pages := []
  map := []
  durMap := []
  trims := []
  wseq := 0
  waiting := []
  nextSet := 0
  entries := []
  flushDue := false
  lastFlush := 0
  writing := none
  nextSeg := 0
  ringPos := 0
  segs := []
  jslot1 := []
  ckpt := 0
  ckptPages := []
  running := none
  lastCkpt := 0
  ckptWaiters := []
  collecting := []
  victims := []
  gasp := none
  counts := medCountsReset
  parts := []

end Sys2Proof.Machine
end

