-- ==== Sys2Proof/Machine/IndexTypes.lean ====
section
/-!
DEFINITION. What an index holds (chapter 3), what searches hold (chapter 4), what selectors hold (chapter 5) and what
commit groups, passes and durability hold (chapter 6).
-/
namespace Sys2Proof.Machine

/-- A crate record (R86) of an occupied slot. -/
structure CrateRec where
  attr : Nat
  level : Nat
  repair : Bool
  code : List Byte
  adj : List Nat
  commitCsn : Nat
deriving DecidableEq, Repr

/-- The newest published image of a crate (R85): records by position (an unlisted position is not OCCUPIED), the DEAD
mask, CRATE_CSN and REWRITES. -/
structure Crate where
  recs : Table CrateRec
  dead : Nat
  csn : Nat
  rewrites : Nat
deriving DecidableEq, Repr

/-- A row of a bitmap (R95): 8,192 bits, of which those at `flips`, ascending, differ from `dflt`. -/
structure BitRow where
  dflt : Bool
  flips : List Nat
deriving DecidableEq, Repr

/-- An upper record (R82): `slot` is `none` for a record returned to the pool (R182). -/
structure Upper where
  slot : Nat
  level : Nat
  down : Option Nat
  adj : List Nat
deriving DecidableEq, Repr

/-- States of a filter slot (R96). -/
inductive FState where
  | empty
  | building
  | ready
deriving DecidableEq, Repr

/-- A filter slot (R96): its terms as their 16-bit words, its references and its FILTER_CSN. -/
structure Filter where
  state : FState
  terms : List Nat
  refs : Nat
  csn : Nat
deriving DecidableEq, Repr

/-- A visibility ring entry (R100). -/
structure RingEntry where
  csn : Nat
  slot : Nat
  kind : Nat
deriving DecidableEq, Repr

/-- The fields of an index descriptor that host software gives (R73). -/
structure IndexDesc where
  part : Nat
  traverseDead : Bool
  code4 : Bool
  dim : Nat
  vecFormat : Nat
  metric : Nat
  m : Nat
  maxDegree : Nat
  upperLevels : Nat
  upperDegree : Nat
  slotCount : Nat
  upperRecords : Nat
  cacheFrames : Nat
  attrCount : Nat
  filterCount : Nat
  slotLimit : Nat
deriving DecidableEq, Repr

/-- An index (R77): its descriptor, its CSN and generations, the codebooks of both, its entry point and its structures.
`frames` is the directory: a listed crate has a frame, `true` FILLING, `false` VALID; `retiring` are the RETIRING frames, each with its
crate and the queries that hold a reference (R89); `orphans` are fills overtaken by a rewrite that still hold a frame (R90).
`failed` lists the crates whose images fail the checks of R87. `pins` gives the first row of the index's bitmaps in each
pseudo-channel (R193), `filterRows` the rows of the filter slots, row r of slot f at 16 r + f. -/
structure Index where
  desc : IndexDesc
  csn : Nat
  curGen : Nat
  oldGen : Nat
  curBook : List W16
  oldBook : List W16
  oldRefs : Nat
  curRefs : Nat
  crateBase : Nat
  vecBase : Nat
  entry : Option Nat
  entryLevel : Nat
  codes : Table (List Byte)
  live : Table Bool
  attrs : Table Nat
  filters : Table Filter
  filterRows : Table BitRow
  ring : Table RingEntry
  crates : Table Crate
  upper : Table Upper
  vectors : Table (List Byte)
  frames : Table Bool
  retiring : List (Nat × List CmdRef)
  orphans : List Nat
  failed : List Nat
  pins : List Nat
  upperFull : Nat
  mounting : Bool
deriving DecidableEq, Repr

/-- The parameters of a search (R131), defaults filled in (R134). -/
structure SearchParams where
  l : Nat
  k : Nat
  d : Nat
  hopLimit : Nat
  policy : Nat
  seeds : List Nat
  windowUs : Nat
  width : Nat
  useFilter : Bool
  filter : Nat
  prune : Bool
  stats : Bool
  budgetUs : Nat
  isRange : Bool
  radius : W32
  expandRadius : W32
deriving DecidableEq, Repr

/-- An entry of the candidate queue (R112). -/
structure Cand where
  dist : W32
  slot : Nat
  expanded : Bool
deriving DecidableEq, Repr

/-- What a walk accumulates (R109–R115): the queue, the visited set with its spill, the pool, the counts, and the upper
records held at each level of the descent (R173). -/
structure Walk where
  cands : List Cand
  visited : List Nat
  inSram : Nat
  spilled : Nat
  blocks : Nat
  lost : Nat
  pool : List (W32 × Nat)
  hops : Nat
  codes : Nat
  found : Nat
deriving DecidableEq, Repr

/-- States of a query (R106); PARKED is the flag `parked` beside the state it left. -/
inductive QPhase where
  | waiting
  | table
  | descent
  | walk
  | rerank
  | select
deriving DecidableEq, Repr

/-- A query (R106): it holds its slot in the admission list while WAITING, then its walker, snapshot and generation. -/
structure Query where
  ref : CmdRef
  part : Nat
  ctx : Nat
  handle : Nat
  params : SearchParams
  vec : List W16
  phase : QPhase
  parked : Bool
  walker : Nat
  snap : Nat
  gen : Nat
  table : List W32
  walk : Walk
  term : Nat
  fetched : Nat
  admitted : Nat
  walkEnd : Nat
  rerankEnd : Nat
  /-- The entry being expanded, chosen at the top of the step (R115). -/
  next : Option Nat
  /-- The frame reference held: its crate and the image in it (R90, R118). -/
  frame : Option (Nat × Crate)
  /-- Crates requested and not yet expanded from (R118). -/
  requests : List Nat
  hits : Nat
  joins : Nat
  reads : Nat
  /-- The stalls that rerank, by remainder (R122); pool entries that hold staging, those of them whose vector has arrived, reads that
  a parking overtook, and exact distances by entry (R122, R123). -/
  stalls : List Nat
  issued : List Nat
  staged : List Nat
  stale : List Nat
  exact : Table W32
  /-- The selector has chosen; the completion entry is not written yet (R106). -/
  chosen : Bool
deriving DecidableEq, Repr

/-- A request that joined a crate batch (R119). -/
structure BatchReq where
  ref : CmdRef
  joined : Nat
  windowUs : Nat
deriving DecidableEq, Repr

/-- A crate batch (R118, R119): its requests, who opened it, and whether its read has issued. -/
structure Batch where
  handle : Nat
  crate : Nat
  reqs : List BatchReq
  opener : Option CmdRef
  issued : Bool
deriving DecidableEq, Repr

/-- Search and mutation counters of a partition (R136, R190). -/
structure WlkCounts where
  queries : Nat
  expansions : Nat
  codes : Nat
  crateHits : Nat
  crateReads : Nat
  crateJoins : Nat
  rerankReads : Nat
  visitSpills : Nat
  visitLost : Nat
  admitUs : Nat
  partials : Nat
  uncorr : Nat
  commits : Nat
  groups : Nat
  ringThrottle : Nat
  reclaimed : Nat
  edgesRepaired : Nat
  writebacks : Nat
deriving DecidableEq, Repr

/-- State of the search pipeline (chapter 4): the indexes of the node, the queries in fetch order, the batches, the
staging queues per stall (R123), the registers and the counters. -/
structure SearchSt where
  indexes : Table Index
  queries : List Query
  batches : List Batch
  stageq : Table (List CmdRef)
  batchEn : Bool
  widthDefault : Nat
  windowDefault : Nat
  counts : Table WlkCounts
deriving DecidableEq, Repr

/-- A queued or running row of a selection command, or of the SELECT layer `layer` of a MODEL_RUN (R137, R138). -/
structure SelRow where
  ref : CmdRef
  part : Nat
  row : Nat
  staged : Nat
  layer : Option Nat
deriving DecidableEq, Repr

/-- What a busy selector works on (R159): a row, with the time it started, or the selection of a search of a partition. -/
inductive SelWork where
  | row (r : SelRow) (started : Nat)
  | search (c : CmdRef) (p : Nat)
deriving DecidableEq, Repr

/-- A selection command in progress (R145, R151): what it asks, its input, and the records done so far. -/
structure SelCmd where
  ref : CmdRef
  part : Nat
  threshold : Bool
  n : Nat
  rows : Nat
  k : Nat
  keyType : Nat
  largest : Bool
  merge : Bool
  validMap : Bool
  op : Nat
  bound : Nat
  input : List Byte
  recs : Table (List Byte)
  total : Nat
  flagged : Bool
deriving DecidableEq, Repr

/-- Selector counters of a partition (R160). -/
structure SelCounts where
  rows : Nat
  keys : Nat
  partials : Nat
  overflow : Nat
  dups : Nat
  waitUs : Nat
deriving DecidableEq, Repr

/-- State of the selectors (chapter 5). -/
structure SelSt where
  share : Bool
  cmds : List SelCmd
  queue : List SelRow
  busy : Table SelWork
  turn : Nat
  counts : Table SelCounts
deriving DecidableEq, Repr

/-- An upper record that a linking search held (R173): a record of the pool with the slot it then named, or an earlier
item of the same command. -/
inductive HeldRec where
  | pool (n slot : Nat)
  | item (slot : Nat)
deriving DecidableEq, Repr

/-- A new node of a group (R173): its slot, attributes, code, vector, level, base neighbours, and the upper records held
at each level. -/
structure NewNode where
  slot : Nat
  attr : Nat
  code : List Byte
  vec : List Byte
  level : Nat
  nbrs : List Nat
  held : List (Nat × List HeldRec)
  /-- OLD_ID of an UPSERT item, with its slot (R174). -/
  old : Option Nat
  oldId : Nat
deriving DecidableEq, Repr

/-- What a commit group asks (R161): new nodes in item order, or deletes in input order (global IDs). -/
structure Group where
  id : Nat
  ref : CmdRef
  part : Nat
  handle : Nat
  upsert : Bool
  durable : Bool
  items : List NewNode
  deletes : List Nat
  gen : Nat
  buildEnd : Nat
deriving DecidableEq, Repr

/-- A completion held back until its group is durable (R178). -/
structure Waiter where
  ref : CmdRef
  count : Nat
  detail : Nat
  result : List Byte
  resultOk : Bool
deriving DecidableEq, Repr

/-- A published group that is not yet durable (R178, R179): the index as it left it, the crates whose images are written
before its journal entry, the bytes of that entry, whether it is appended, and the completion that waits for it. -/
structure Published where
  handle : Nat
  index : Index
  crates : List Nat
  bytes : Nat
  queued : Bool
  waiter : Option Waiter
deriving DecidableEq, Repr

/-- State of mutation and durability (chapter 6). `kept` is what flash and journal hold of each index: the index as its
last durable group left it. -/
structure MutSt where
  groups : List Group
  nextGroup : Nat
  /-- References that mutation commands hold on a generation, by command, handle and generation (R171, R186). -/
  bound : List (CmdRef × Nat × Nat)
  published : List Published
  kept : Table Index
  lazy : List (Nat × Nat)
  passes : List Nat
  sweepAt : Nat
  /-- Swept crates with stale edges that the next repair group of their index rewrites (R182), by index. -/
  sweepRewrite : List (Nat × Nat)
  ringWaitMs : Nat
  repairTrigger : Nat
  repairRate : Nat
  repairHandle : Nat
deriving DecidableEq, Repr

/-- No search counted. -/
def wlkCountsReset (_ : Nat) : WlkCounts where
  queries := 0
  expansions := 0
  codes := 0
  crateHits := 0
  crateReads := 0
  crateJoins := 0
  rerankReads := 0
  visitSpills := 0
  visitLost := 0
  admitUs := 0
  partials := 0
  uncorr := 0
  commits := 0
  groups := 0
  ringThrottle := 0
  reclaimed := 0
  edgesRepaired := 0
  writebacks := 0

/-- No row counted. -/
def selCountsReset (_ : Nat) : SelCounts :=
  { rows := 0, keys := 0, partials := 0, overflow := 0, dups := 0, waitUs := 0 }

/-- The search pipeline after power-on (R134). -/
def searchReset : SearchSt where
  indexes := []
  queries := []
  batches := []
  stageq := []
  batchEn := true
  widthDefault := 4
  windowDefault := 20
  counts := []

/-- The selectors after power-on (R158). -/
def selReset : SelSt := { share := false, cmds := [], queue := [], busy := [], turn := 0, counts := [] }

/-- Mutation after power-on (R188, R189). -/
def mutReset : MutSt where
  groups := []
  nextGroup := 0
  bound := []
  published := []
  kept := []
  lazy := []
  passes := []
  sweepAt := 0
  sweepRewrite := []
  ringWaitMs := 5
  repairTrigger := 10
  repairRate := 64
  repairHandle := 0

/-- An empty crate. -/
def crateEmpty (_ : Nat) : Crate := { recs := [], dead := 0, csn := 0, rewrites := 0 }

/-- A row of zeros. -/
def rowEmpty (_ : Nat) : BitRow := { dflt := false, flips := [] }

/-- An EMPTY filter slot (R96). -/
def filterEmpty (_ : Nat) : Filter := { state := .empty, terms := [], refs := 0, csn := 0 }

/-- A walk that has scored nothing. -/
def walkEmpty : Walk where
  cands := []
  visited := []
  inSram := 0
  spilled := 0
  blocks := 0
  lost := 0
  pool := []
  hops := 0
  codes := 0
  found := 0

end Sys2Proof.Machine
end

