-- ==== Sys2Proof/Machine/ModelTypes.lean ====
section
/-!
DEFINITION. What tiles, models, scale records and the shelf hold (chapters 8 and 9).
-/
namespace Sys2Proof.Machine

/-- An activation block (R281): format tag, SCALE byte, shape, tensor scale, group scales, and its rows at the stride of
R244. -/
structure Act where
  fmt : Nat
  scale : Nat
  rows : Nat
  width : Nat
  tscale : Nat
  scales : List Nat
  data : Memory
deriving DecidableEq, Repr

/-- A scale record (R254); the fields that the image fixes stand in the model. -/
structure ScaleRec where
  steps : Nat
  misfitSteps : Nat
  reruns : Nat
  lastMisfit : Nat
  lastClipped : Nat
  scaleSat : Bool
  nonfinite : Bool
  lastRerun : Bool
  scales : List Nat
deriving DecidableEq, Repr

/-- A loaded or loading model (R276–R280): its image as written, the ranges written, and the scale records by context and
layer. -/
structure Model where
  part : Nat
  ready : Bool
  layers : Nat
  total : Nat
  maxRows : Nat
  image : Memory
  written : List (Nat × Nat)
  pinned : Bool
  /-- The stalls that hold rows of its STALL layers, in the order of R286. -/
  stalls : List Nat
  /-- The first row of its pinned region in each pseudo-channel, once READY (R192, R286). -/
  rows : List Nat
  dram : Nat
  lastUse : Nat
  recs : Table (Table ScaleRec)
deriving DecidableEq, Repr

/-- A layer image on the shelf, or being filled (R288, R289). -/
structure ShelfImg where
  handle : Nat
  layer : Nat
  part : Nat
  bytes : Nat
  filling : Bool
deriving DecidableEq, Repr

/-- A DMA of a tile that runs behind issue (R268, R270). -/
structure TileDma where
  out : Bool
  arr : Nat
  off : Nat
  len : Nat
  saddr : Nat
  token : Nat
deriving DecidableEq, Repr

/-- The state of a tile's part of a step (R264, R269, R275). -/
structure TileWork where
  idx : Nat
  pc : Nat
  s : List W32
  sram : Memory
  acc : Table (List W32)
  dmas : List TileDma
  resident : List TileDma
  bars : Nat
  atBar : Bool
  ended : Bool
  late : Bool
  /-- Nothing issued since its start or its last BAR: it may be parked (R275). -/
  fresh : Bool
  /-- FP32 values narrowed into SRAM, by bit address: what a compatibility re-run computes again (R259). -/
  ghost : Table W32
deriving DecidableEq, Repr

/-- How a step's tiles read the layer's image (R289, R290). -/
inductive ShelfUse where
  | pending
  | shelf
  | stream
deriving DecidableEq, Repr

/-- A step (R255–R259): its layer, tiles, the scales and FREEZE it started with, its statistics, its output bytes, and the
state of each of its tiles. -/
structure Step where
  layer : Nat
  tiles : List Nat
  alt : Bool
  frozen : Bool
  scales : List Nat
  clipped : List Nat
  amax : List Nat
  nonfinite : Nat
  accSat : Nat
  out : Memory
  ghost : Table W32
  use : ShelfUse
  work : Table TileWork
  /-- The records of the rows of a SELECT layer that selectors have run (R137, R278). -/
  picks : Table (List Byte)
  /-- The byte ranges of its output that are written (R283). -/
  wrote : List (Nat × Nat)
  /-- The stalls whose service job for a STALL layer still runs, and the staging that the copy of the activations takes at each (R122,
  R287). -/
  stalls : List Nat
  stage : Nat
deriving DecidableEq, Repr

/-- A MODEL_RUN in progress (R282–R285). -/
structure Run where
  ref : CmdRef
  part : Nat
  ctx : Nat
  handle : Nat
  rows : Nat
  srcBulk : Bool
  dstBulk : Bool
  seq : Nat
  comp : Nat
  input : Option Act
  outs : Table Act
  /-- The result of a SELECT layer (R278). -/
  picked : List Byte
  steps : Table Step
  /-- The output block is on its way to the next stage and not yet acknowledged whole (R284, R374). -/
  sending : Bool
  /-- The stage this node is in the composition named. -/
  slot : Nat
  resultOk : Bool
  /-- SEQ of the record of an uncorrectable word that a stall met, and whether it was dropped (R261). -/
  bad : Option (Nat × Bool)
deriving DecidableEq, Repr

/-- A MODEL_PIN that waits for fills (R291). -/
structure PinCmd where
  ref : CmdRef
  handle : Nat
deriving DecidableEq, Repr

/-- Counters of R263. -/
structure TilCounts where
  steps : Nat
  misfit : Nat
  adapted : Nat
  scaleSat : Nat
  reruns : Nat
  clipped : Nat
  nonfinite : Nat
  accSat : Nat
deriving DecidableEq, Repr

/-- Counters of R296. -/
structure ShfCounts where
  hits : Nat
  misses : Nat
  fillBytes : Nat
  evictions : Nat
  streamed : Nat
  restarts : Nat
deriving DecidableEq, Repr

/-- State of the tiles and the shelf. `busy` names the step of each tile that runs one. -/
structure TileSt where
  busy : Table (CmdRef × Nat)
  models : Table Model
  shelf : List ShelfImg
  runs : List Run
  pins : List PinCmd
  /-- RESET_SCALES commands that wait for steps of their model and context to end (R261). -/
  resets : List (CmdRef × Nat × Nat)
  freeze : Bool
  uses : Nat
  counts : Table TilCounts
  shfCounts : Table ShfCounts
deriving DecidableEq, Repr

/-- No step counted. -/
def tilCountsReset (_ : Nat) : TilCounts :=
  { steps := 0, misfit := 0, adapted := 0, scaleSat := 0, reruns := 0, clipped := 0, nonfinite := 0, accSat := 0 }

/-- No use of the shelf counted. -/
def shfCountsReset (_ : Nat) : ShfCounts :=
  { hits := 0, misses := 0, fillBytes := 0, evictions := 0, streamed := 0, restarts := 0 }

/-- No model loaded (R262). -/
def tileStReset : TileSt where
  busy := []
  models := []
  shelf := []
  runs := []
  pins := []
  resets := []
  freeze := false
  uses := 0
  counts := []
  shfCounts := []

end Sys2Proof.Machine
end

