-- ==== Sys2Proof/Machine/PtnTypes.lean ====
section
/-!
DEFINITION. Partitions, contexts, shares, regions and staged changes (chapter 11).
-/
namespace Sys2Proof.Machine

/-- PTN_STAT.STATE (R322). -/
inductive PState where
  | free
  | idle
  | running
  | quiescing
  | quiesced
deriving DecidableEq, Repr

/-- Shares of a partition (R325). -/
structure Shares where
  shelfMib : Nat
  dramMib : Nat
  flashWeight : Nat
  fabShare : Nat
  flashPages : Nat
deriving DecidableEq, Repr

/-- Bit masks of units (R326): tiles, walker and tally pairs, stalls. -/
structure Units where
  tiles : Nat
  walkers : Nat
  stalls : Nat
deriving DecidableEq, Repr

/-- A change that waits for a partition's commit point (R333). -/
inductive Staged where
  | grant (c : CmdRef) (u : Units)
  | withdraw (c : CmdRef) (u : Units)
  | shares (c : CmdRef) (sh : Shares)
  | ctxGang (n gang : Nat)
  | ctxSlice (n us : Nat)
  | ctxCreate (c : CmdRef) (n gang us : Nat)
deriving DecidableEq, Repr

/-- A context that exists (R331, R346). -/
structure Ctx where
  gang : Nat
  sliceUs : Nat
  parked : Bool
deriving DecidableEq, Repr

/-- Partition counters (R347). -/
structure PtnCounts where
  switches : Nat
  switchNsMax : Nat
  tileLate : Nat
  quiesces : Nat
  substs : Nat
  cfgBusy : Nat
deriving DecidableEq, Repr

/-- A partition (R321, R322, R343–R347): `stop` is the time of the posted stop of the running gang, `sliceEnd` its
end. -/
structure Ptn where
  state : PState
  port : Port
  shares : Shares
  units : Units
  ctxs : Table Ctx
  staged : List Staged
  autoSubst : Bool
  quiesce : Bool
  substWait : Bool
  gang : Nat
  sliceEnd : Nat
  stop : Option Nat
  counts : PtnCounts
deriving DecidableEq, Repr

/-- A DRAM region (R20, R327): pinned in the pseudo-channel of a logical stall from a row on, or interleaved; and its
bytes. -/
structure Region where
  part : Nat
  pinned : Bool
  stall : Nat
  row : Nat
  bytes : Nat
  mem : Memory
deriving DecidableEq, Repr

/-- State of the partitions (chapter 11). -/
structure PtnSt where
  ptns : Table Ptn
  regions : Table Region
  /-- Logical units that are not power-gated (R22, R462, R463). -/
  awake : List (UnitKind × Nat)
deriving DecidableEq, Repr

/-- No shares. -/
def sharesZero : Shares := { shelfMib := 0, dramMib := 0, flashWeight := 0, fabShare := 0, flashPages := 0 }

/-- No units. -/
def unitsNone : Units := { tiles := 0, walkers := 0, stalls := 0 }

/-- No counts. -/
def ptnCountsZero : PtnCounts :=
  { switches := 0, switchNsMax := 0, tileLate := 0, quiesces := 0, substs := 0, cfgBusy := 0 }

/-- A FREE partition (R322): no port serves it, which the field `port` leaves at its register reset (R343). -/
def ptnReset (_ : Nat) : Ptn where
  state := .free
  port := .a
  shares := sharesZero
  units := unitsNone
  ctxs := []
  staged := []
  autoSubst := true
  quiesce := false
  substWait := false
  gang := 0
  sliceEnd := 0
  stop := none
  counts := ptnCountsZero

/-- No partition created, no region allocated. -/
def ptnStReset : PtnSt := { ptns := [], regions := [], awake := [] }

end Sys2Proof.Machine
end

