-- ==== Sys2Proof/Machine/StallTypes.lean ====
section
/-!
DEFINITION. What stalls and stacks hold: jobs with their registers and windows, segments, refresh debt, power windows,
and the STALL_RUN and ROW_OP commands in progress (chapter 7).
-/
namespace Sys2Proof.Machine

/-- A window of a launch (R200, R210). -/
structure Window where
  region : Nat
  rw : Bool
  off : Nat
  len : Nat
deriving DecidableEq, Repr

/-- The register class a load writes (R203). -/
inductive RegClass where
  | v
  | a
  | s
deriving DecidableEq, Repr

/-- An outstanding load (R202): its register, its data, what INC adds to it (LDS into its own address), and whether a later
write of the register has overtaken it. -/
structure Load where
  cls : RegClass
  reg : Nat
  data : List Byte
  plus : Nat
  live : Bool
deriving DecidableEq, Repr

/-- One row operation of a PLAIN ROW_OP (R228): operation and (region, row) of D, A and B. -/
structure RowEntry where
  op : Nat
  dReg : Nat
  dRow : Nat
  aReg : Nat
  aRow : Nat
  bReg : Nat
  bRow : Nat
deriving DecidableEq, Repr

/-- What a job does (R194): a program with its instruction words; a list of row operations, of which `next` is the next; the rows of a
filter derivation in its pseudo-channel, at row operation `step` of row `row`; the rerank of a query's entries, with the activations
left for the entry in hand; the rows of STALL layer `layer` of a MODEL_RUN (R287); or rows of a table, read or written by an embedding
command, each with the activations left (R301, R307). -/
inductive Work where
  | program (words : List Nat)
  | rows (ops : List RowEntry) (next : Nat)
  | derive (handle slot row step : Nat)
  | rerank (left : Nat)
  | layer (layer left : Nat)
  | table (handle : Nat) (write : Bool) (rows : List Nat) (left : Nat)
deriving DecidableEq, Repr

/-- An access of the hub to a row of a pseudo-channel that waits for a segment to end (R214): its row, the time it entered the queue,
and the filter bit it writes, if it does: index, filter slot, slot and value (R231). -/
structure HubAccess where
  row : Nat
  since : Nat
  write : Option (Nat × Nat × Nat × Bool)
deriving DecidableEq, Repr

/-- A job (R194–R201): its registers, windows, outstanding loads, counts, and how it ended once it has. -/
structure Job where
  jid : Nat
  /-- Its place in the round robin, once it is held in its stall (R195). -/
  stamp : Option Nat
  /-- Its command has ended: it ends at its next segment boundary and answers nothing (R223). -/
  gone : Bool
  ref : CmdRef
  part : Nat
  ctx : Nat
  launch : Nat
  work : Work
  wins : List (Option Window)
  v : List (List W16)
  a : List (List W32)
  s : List W32
  pc : Nat
  lastPc : Nat
  mode : Nat
  sat : Bool
  loads : List Load
  segs : Nat
  acts : Nat
  firstNs : Option Nat
  maxSegs : Nat
  /-- Ends at its next segment boundary, another launch having met an uncorrectable word (R212). -/
  stop : Bool
  /-- END_STATE and FAULT of a job that has ended and waits for its segment boundary (R211, R213). -/
  ended : Option (Nat × Nat)
deriving DecidableEq, Repr

/-- A stall (R195, R213–R215, R220): its jobs in arrival order, of which the first 32 are held in it; the job whose segment
runs; the segment; the rows open in its banks; the activations of the last 40 ns; the scratch row of each bank (R229); the write-set
accesses queued at the stack interface, and those that wait in the hub for a place there (R214). -/
structure Stall where
  jobs : List Job
  nextJid : Nat
  run : Option Nat
  /-- Segments run, by which the round robin goes (R195). -/
  clock : Nat
  segW : Nat
  segStart : Nat
  endReq : Bool
  opened : Table Nat
  ropReady : Bool
  recent : List (Nat × Nat)
  gated : Bool
  paused : Bool
  budgetWait : Bool
  scratch : Table BitRow
  wsq : List HubAccess
  wsHub : List HubAccess
deriving DecidableEq, Repr

/-- A stack (R217–R221, R232–R236): its settings, the budget in effect until a microsecond and from then on BUDGET, refresh
classes, the activations of the last 1 µs and of the last ten 100 µs, and its counters. -/
structure Stack where
  budget : Nat
  budgetWas : Nat
  budgetFrom : Nat
  act4 : Nat
  act2 : Nat
  multMin : Nat
  temp : Nat
  mult : Nat
  tempClass : Nat
  actClass : Nat
  debtMax : Nat
  fallRun : Nat
  fallTo : Nat
  window : List (Nat × Nat)
  recentActs : List Nat
  nowActs : Nat
  turn : Nat
  acts : Nat
  rowOps : Nat
  segments : Nat
  refreshes : Nat
  refPauses : Nat
  budgetWaits : Nat
  wsWaits : Nat
  hubWaitMax : Nat
deriving DecidableEq, Repr

/-- A STALL_RUN in progress (R211, R212): its result records by launch, launches that ended with END, and what stopped it. -/
structure StallRun where
  ref : CmdRef
  part : Nat
  launches : Nat
  records : Table (List Byte)
  ended : Nat
  faulted : Bool
  /-- SEQ of the record of an uncorrectable word, and whether it was dropped (R212, R484). -/
  bad : Option (Nat × Bool)
  resultOk : Bool
deriving DecidableEq, Repr

/-- A ROW_OP in progress (R228, R229): its jobs still running, operations done. -/
structure RowCmd where
  ref : CmdRef
  part : Nat
  form : Nat
  handle : Nat
  slot : Nat
  terms : List Nat
  left : Nat
  count : Nat
  /-- The derivation has restarted once (R98). -/
  again : Bool
  bad : Option (Nat × Bool)
deriving DecidableEq, Repr

/-- State of the stalls (chapter 7). -/
structure StallSt where
  stalls : Table Stall
  stackSt : Table Stack
  debts : Table Nat
  runs : List StallRun
  rowCmds : List RowCmd
deriving DecidableEq, Repr

/-- A gated stall without jobs (R197, R235). -/
def stallReset (_ : Nat) : Stall where
  jobs := []
  nextJid := 1
  run := none
  clock := 0
  segW := 0
  segStart := 0
  endReq := false
  opened := []
  ropReady := false
  recent := []
  gated := true
  paused := false
  budgetWait := false
  scratch := []
  wsq := []
  wsHub := []

/-- A stack after power-on (R232–R236). -/
def stackReset (_ : Nat) : Stack where
  budget := 1536
  budgetWas := 1536
  budgetFrom := 0
  act4 := 1200
  act2 := 600
  multMin := 0
  temp := 0
  mult := 0
  tempClass := 0
  actClass := 0
  debtMax := 0
  fallRun := 0
  fallTo := 0
  window := []
  recentActs := []
  nowActs := 0
  turn := 0
  acts := 0
  rowOps := 0
  segments := 0
  refreshes := 0
  refPauses := 0
  budgetWaits := 0
  wsWaits := 0
  hubWaitMax := 0

/-- No job, no debt. -/
def stallStReset : StallSt := { stalls := [], stackSt := [], debts := [], runs := [], rowCmds := [] }

end Sys2Proof.Machine
end

