-- ==== Sys2Proof/Machine/TmTypes.lean ====
section
/-!
DEFINITION. Policers, shapers, deficits and the sampling ring (chapter 13).
-/
namespace Sys2Proof.Machine

/-- The staged fields of a policer (R407). -/
structure PolCfg where
  enable : Bool
  twoRate : Bool
  aware : Bool
  yellowThrottle : Bool
  redThrottle : Bool
  cir : Nat
  pir : Nat
  cbs : Nat
  ebs : Nat
deriving DecidableEq, Repr

/-- A policer (R392, R407, R410): the fields in effect, the staged ones, the buckets and the counters. -/
structure Policer where
  cfg : PolCfg
  staged : Option PolCfg
  cfgErr : Bool
  tc : Nat
  te : Nat
  green : Nat
  yellow : Nat
  red : Nat
  throttled : Nat
deriving DecidableEq, Repr

/-- The staged fields of a shaper (R409). -/
structure ShapeCfg where
  enable : Bool
  quantum : Nat
  slope : Nat
  burst : Nat
deriving DecidableEq, Repr

/-- A shaper (R400, R409) with its signed credit. -/
structure Shaper where
  cfg : ShapeCfg
  staged : Option ShapeCfg
  cfgErr : Bool
  credit : Int
deriving DecidableEq, Repr

/-- Pre-colours of a partition (R408). -/
structure QColour where
  qp : Nat
  req : Nat
  bulk : Nat
deriving DecidableEq, Repr

/-- State of the traffic manager (chapter 13). -/
structure TmSt where
  policers : Table Policer
  shapers : Table Shaper
  colours : Table QColour
  /-- Deficits: key 130 × lane + queue for lanes, 4680 + 64 × port + partition for ports (R401, R402). -/
  deficits : Table Nat
  transitReqQ : Nat
  transitBulkQ : Nat
  ringBase : Nat
  ringEnable : Bool
  ringPort : Port
  ringLog2 : Nat
  kinds : Nat
  intervalUs : Nat
  ringDmaErr : Bool
  ringTail : Nat
  ringHead : Nat
  ringPhase : Bool
  round : Nat
  lastRound : Nat
  sampleEn : Nat
  samplesLost : Nat
  cfgBusy : Nat
deriving DecidableEq, Repr

/-- A policer after power-on (R407). -/
def polCfgReset : PolCfg where
  enable := false
  twoRate := false
  aware := false
  yellowThrottle := false
  redThrottle := true
  cir := 0
  pir := 0
  cbs := 0
  ebs := 0

/-- A policer after power-on (R407, R410). -/
def policerReset (_ : Nat) : Policer where
  cfg := polCfgReset
  staged := none
  cfgErr := false
  tc := 0
  te := 0
  green := 0
  yellow := 0
  red := 0
  throttled := 0

/-- A shaper's fields after power-on (R409). -/
def shapeCfgReset : ShapeCfg := { enable := false, quantum := 0x10, slope := 0, burst := 65536 }

/-- A shaper after power-on (R409). -/
def shaperReset (_ : Nat) : Shaper :=
  { cfg := shapeCfgReset, staged := none, cfgErr := false, credit := 0x10000 }

/-- All pre-colours GREEN (R408). -/
def qColourReset (_ : Nat) : QColour := { qp := 0, req := 0, bulk := 0 }

/-- The traffic manager after power-on (R406); the ring base is X, held as 0. -/
def tmReset : TmSt where
  policers := []
  shapers := []
  colours := []
  deficits := []
  transitReqQ := 0x10
  transitBulkQ := 0
  ringBase := 0
  ringEnable := false
  ringPort := .a
  ringLog2 := 8
  kinds := 0xF
  intervalUs := 1000
  ringDmaErr := false
  ringTail := 0
  ringHead := 0
  ringPhase := true
  round := 0
  lastRound := 0
  sampleEn := 0
  samplesLost := 0
  cfgBusy := 0

end Sys2Proof.Machine
end

