-- ==== Sys2Proof/Machine/State.lean ====
section
/-!
DEFINITION. The state of the block as plain data, the reasons a command can stop, and the state after reset.
-/
namespace Sys2Proof.Machine

/-- Faults. No command of this block stops the machine: every refusal of the spec is a status code, a flag or an error
record, all of which are states. The one constructor is raised by nobody; it is there because the type is asked for. -/
inductive Fault where
  /-- Raised by no command (safe). -/
  | unreachable
deriving DecidableEq, Repr

/-- Refusals: raised only for a row whose meaning is not written (safe: the machine stops). -/
inductive Refusal where
  /-- The row of this mnemonic has no meaning in the model (safe). -/
  | notModelled (mnemonic : String)
deriving DecidableEq, Repr

/-- What the block sends out, newest first: it is the model's own record of the module's outputs. -/
inductive Out where
  /-- Result bytes written to host memory through a port (R63). -/
  | data (port : Port) (ptr : Nat) (bytes : List Byte)
  /-- A 32-byte completion entry of a queue at a host address (R49, R54). -/
  | entry (port : Port) (q : QRef) (addr : Nat) (bytes : List Byte)
  /-- An MSI-X message (R49). -/
  | msix (f : Fn) (vec : Nat)
  /-- A sampling entry written to host memory (R404). -/
  | sample (port : Port) (addr : Nat) (bytes : List Byte)
  /-- A cell sent on a fabric lane (R352). -/
  | cell (lane : Nat) (bytes : List Byte)
  /-- The value a local counter read returned (R465). -/
  | counter (r : Reader) (value : Nat)
  /-- What a lane's handshake carries to the neighbour: this node's ID and the credits of each pool and class (R351, R356). -/
  | handshake (lane node : Nat) (credits : List (Nat × Nat))
  /-- What the SMBus endpoint answers: the bytes read, nothing after an accepted write, `none` for a NACK (R544, R545). -/
  | smbus (reply : Option (List Byte))
deriving DecidableEq, Repr

/-- The state of the module, the commands that wait, and the model's own fields: the output record, the number of the
next free value, and the oscillator count (R464); XQ_CFG.NODE_ID (R384) stands beside them. -/
structure State where
  pending : List Instr
  out : List Out
  free : Nat
  cycles : Nat
  nodeId : Nat
  host : HostSt
  ptn : PtnSt
  tm : TmSt
  err : ErrSt
  srch : SearchSt
  sel : SelSt
  grp : MutSt
  stk : StallSt
  til : TileSt
  emb : EmbSt
  fab : FabSt
  med : FlashSt
  board : BoardSt
deriving DecidableEq, Repr

/-- The machine after power-on reset. -/
def State.reset : State where
  pending := []
  out := []
  free := 0
  cycles := 0
  nodeId := 0
  host := hostReset
  ptn := ptnStReset
  tm := tmReset
  err := errReset
  srch := searchReset
  sel := selReset
  grp := mutReset
  stk := stallStReset
  til := tileStReset
  emb := embReset
  fab := fabReset
  med := flashReset
  board := boardReset

end Sys2Proof.Machine
end

