-- ==== Sys2Proof/Machine/Ops.lean ====
section
/-!
DEFINITION. The named operations every block uses: time, output, free values, and access to queues, commands and
partitions.
-/
namespace Sys2Proof.Machine

/-- PWR_TIME_US: microseconds of the local counter, from the 19.2 MHz oscillator (R464). -/
def timeUs (s : State) : Nat := s.cycles * 5 / 96

/-- The state at a time of the local counter: time never runs back. -/
def atTime (now : Nat) (s : State) : State := { s with cycles := max s.cycles ((96 * now + 4) / 5) }

/-- One more output. -/
def emit (o : Out) (s : State) : State := { s with out := o :: s.out }

/-- The host block changed by `f`. -/
def onHost (f : HostSt → HostSt) (s : State) : State := { s with host := f s.host }
/-- The partitions changed by `f`. -/
def onPtn (f : PtnSt → PtnSt) (s : State) : State := { s with ptn := f s.ptn }
/-- The traffic manager changed by `f`. -/
def onTm (f : TmSt → TmSt) (s : State) : State := { s with tm := f s.tm }
/-- The error collector changed by `f`. -/
def onErr (f : ErrSt → ErrSt) (s : State) : State := { s with err := f s.err }
/-- The search pipeline changed by `f`. -/
def onSrch (f : SearchSt → SearchSt) (s : State) : State := { s with srch := f s.srch }
/-- The selectors changed by `f`. -/
def onSel (f : SelSt → SelSt) (s : State) : State := { s with sel := f s.sel }
/-- Mutation state changed by `f`. -/
def onMut (f : MutSt → MutSt) (s : State) : State := { s with grp := f s.grp }
/-- The stalls changed by `f`. -/
def onStk (f : StallSt → StallSt) (s : State) : State := { s with stk := f s.stk }
/-- The tiles, models and shelf changed by `f`. -/
def onTil (f : TileSt → TileSt) (s : State) : State := { s with til := f s.til }
/-- The embedding tables changed by `f`. -/
def onEmb (f : EmbSt → EmbSt) (s : State) : State := { s with emb := f s.emb }
/-- The fabric changed by `f`. -/
def onFab (f : FabSt → FabSt) (s : State) : State := { s with fab := f s.fab }
/-- The media manager changed by `f`. -/
def onMed (f : FlashSt → FlashSt) (s : State) : State := { s with med := f s.med }
/-- The board changed by `f`. -/
def onBoard (f : BoardSt → BoardSt) (s : State) : State := { s with board := f s.board }
/-- The criers changed by `f`. -/
def onMbx (f : MbxSt → MbxSt) (s : State) : State := onBoard (fun b => { b with mbx := f b.mbx }) s
/-- Power management changed by `f`. -/
def onPwr (f : PwrSt → PwrSt) (s : State) : State := onBoard (fun b => { b with pwr := f b.pwr }) s
/-- The standby island changed by `f`. -/
def onIsland (f : IslandSt → IslandSt) (s : State) : State := onBoard (fun b => { b with island := f b.island }) s
/-- The boot block changed by `f`. -/
def onBoot (f : BootSt → BootSt) (s : State) : State := onBoard (fun b => { b with boot := f b.boot }) s
/-- Fabric counters of a partition changed (R390). -/
def onXq (p : Nat) (f : XqCounts → XqCounts) (s : State) : State :=
  onFab (fun x => { x with xq := smod xqCountsReset x.xq p f }) s

/-- MED_STAT.STATE is READ_ONLY, for want of capacity or of bank energy (R443, R541). -/
def medReadOnly (s : State) : Bool := s.med.state == .readOnly || s.med.held

/-- MED_STAT.STATE is READY. -/
def medReady (s : State) : Bool := s.med.state == .ready && !s.med.held

/-- The counter of free values moved on by `n`. -/
def takeFree (n : Nat) (s : State) : State := { s with free := s.free + n }

/-- Status codes (R55). -/
def stOk : Nat := 0x0000
/-- PARTIAL (R55). -/
def stPartial : Nat := 0x0001
/-- REDIRECT (R55). -/
def stRedirect : Nat := 0x0002
/-- BUSY (R55). -/
def stBusy : Nat := 0x0003
/-- CONFIG_BUSY (R55). -/
def stConfigBusy : Nat := 0x0004
/-- BAD_PARAM (R55). -/
def stBadParam : Nat := 0x0005
/-- NO_RESOURCE (R55). -/
def stNoResource : Nat := 0x0006
/-- THROTTLED (R55). -/
def stThrottled : Nat := 0x0007
/-- ABORTED (R55). -/
def stAborted : Nat := 0x0008
/-- TIMEOUT (R55). -/
def stTimeout : Nat := 0x0009
/-- UNCORRECTABLE (R55). -/
def stUncorrectable : Nat := 0x000A
/-- REFUSED (R55). -/
def stRefused : Nat := 0x000B
/-- NOT_OWNER (R55). -/
def stNotOwner : Nat := 0x000C
/-- STALE_GENERATION (R55). -/
def stStale : Nat := 0x000D
/-- OVERFLOW (R55). -/
def stOverflow : Nat := 0x000E
/-- LOST_RECORD (R55). -/
def stLostRecord : Nat := 0x000F

/-- A queue pair. -/
def getQueue (q : QRef) (s : State) : Queue := sget queueReset s.host.queues (qkey q)

/-- A queue pair changed by `f`. -/
def onQueue (q : QRef) (f : Queue → Queue) (s : State) : State :=
  onHost (fun h => { h with queues := smod queueReset h.queues (qkey q) f }) s

/-- A partition. -/
def getPtn (p : Nat) (s : State) : Ptn := sget ptnReset s.ptn.ptns p

/-- A partition changed by `f`. -/
def onPart (p : Nat) (f : Ptn → Ptn) (s : State) : State :=
  onPtn (fun x => { x with ptns := smod ptnReset x.ptns p f }) s

/-- The port that serves a partition: none for a FREE one (R33, R322). -/
def servedBy (p : Nat) (s : State) : Option Port :=
  if p < 64 ∧ (getPtn p s).state ≠ .free then some (getPtn p s).port else none

/-- The port through which a scope is served. -/
def scopePort (sc : Scope) (s : State) : Option Port :=
  match sc with
  | .part p => servedBy p s
  | .pf port => some port

/-- The function of a scope behind a port: VF p + 1 of a partition, or the PF (R33). -/
def scopeFn (sc : Scope) (port : Port) : Fn :=
  match sc with
  | .part p => { port := port, vf := p + 1 }
  | .pf q => { port := q, vf := 0 }

/-- Key of a function: of its split-write latch and its configuration. -/
def fnKey (f : Fn) : Nat := 65 * f.port.num + f.vf

/-- The configuration of a function (R32). -/
def getPcie (f : Fn) (s : State) : PcieCfg := sget pcieReset s.host.pcie (fnKey f)

/-- The partition of a scope, as a record gives it: 0xFF for none (R479). -/
def scopePart (sc : Scope) : Nat :=
  match sc with
  | .part p => p
  | .pf _ => 0xFF

/-- The command of a name, if one is fetched and not completed. -/
def findCmd (c : CmdRef) (s : State) : Option Cmd := s.host.cmds.find? (·.ref == c)

/-- The command of a name changed by `f`. -/
def onCmd (c : CmdRef) (f : Cmd → Cmd) (s : State) : State :=
  onHost (fun h => { h with cmds := updWhere (·.ref == c) f h.cmds }) s

/-- Commands of a queue fetched and not yet completed: INFLIGHT (R41). -/
def inflight (q : QRef) (s : State) : Nat := (s.host.cmds.filter fun k => k.queue == q && !k.remote).length

/-- Whether a bit mask names unit `n`. -/
def hasUnit (mask n : Nat) : Bool := bit mask n

/-- The number of units in a mask, of `n` units. -/
def countUnits (n mask : Nat) : Nat := ((List.range n).filter fun i => bit mask i).length

/-- The partition that owns a unit by the mask `f` takes of a partition. -/
def ownerBy (f : Units → Nat) (n : Nat) (s : State) : Option Nat :=
  (List.range 64).find? fun p => (getPtn p s).state ≠ .free && bit (f (getPtn p s).units) n

/-- The owner of a tile, a walker pair or a stall (R321); other kinds have none. -/
def unitOwner (kind : UnitKind) (n : Nat) (s : State) : Option Nat :=
  match kind with
  | .tile => ownerBy (·.tiles) n s
  | .walker | .tally => ownerBy (·.walkers) n s
  | .stall => ownerBy (·.stalls) n s
  | .selector | .fwCore | .quadrantNet => none

/-- Whether a logical unit is out of service (R489). -/
def outOfService (kind : UnitKind) (n : Nat) (s : State) : Bool :=
  s.err.outs.any fun u => u.kind == kind && u.unit == n

/-- Whether a logical unit is powered (R462): a tally unit with its walker, a stall by its own flag (R197). -/
def unitAwake (kind : UnitKind) (n : Nat) (s : State) : Bool :=
  match kind with
  | .stall => !(sget stallReset s.stk.stalls n).gated
  | .tally => s.ptn.awake.contains (.walker, n)
  | k => s.ptn.awake.contains (k, n)

/-- Whether a walker pair is in service: both halves of it (R491). -/
def pairInService (n : Nat) (s : State) : Bool := !outOfService .walker n s && !outOfService .tally n s

/-- Whether a unit of a kind that a partition owns awaits a spare: commands that need it are answered BUSY (R341). -/
def awaitsSpare (kinds : List UnitKind) (p : Nat) (s : State) : Bool :=
  s.err.outs.any fun u => kinds.contains u.kind && !u.retired && unitOwner u.kind u.unit s == some p

/-- The walker pairs of a partition that are in service. -/
def livePairs (p : Nat) (s : State) : List Nat :=
  (List.range 64).filter fun n => bit (getPtn p s).units.walkers n && pairInService n s

/-- The tiles of a partition that are in service (T of R283). -/
def liveTiles (p : Nat) (s : State) : List Nat :=
  (List.range 128).filter fun n => bit (getPtn p s).units.tiles n && !outOfService .tile n s

/-- The stalls of a partition that are in service (S of R122). -/
def liveStalls (p : Nat) (s : State) : List Nat :=
  (List.range 256).filter fun n => bit (getPtn p s).units.stalls n && !outOfService .stall n s

/-- Counters of the tiles of a partition changed (R263). -/
def onTilCounts (p : Nat) (f : TilCounts → TilCounts) (s : State) : State :=
  onTil (fun t => { t with counts := smod tilCountsReset t.counts p f }) s

end Sys2Proof.Machine
end

