-- ==== Sys2Proof/Machine/Bitmaps.lean ====
section
/-!
DEFINITION. Attribute bitmaps and filter slots as rows of 8,192 bits: where each row lies, and the row operations that derive a
filter slot (R95–R98, R193, R224, R229).
-/
namespace Sys2Proof.Machine

/-- Bit `i` of a row. -/
def BitRow.get (r : BitRow) (i : Nat) : Bool := r.dflt != r.flips.contains i

/-- A number put into an ascending list, unless it is there. -/
def insertAsc (x : Nat) (l : List Nat) : List Nat := if l.contains x then l else ordInsert (fun a b => a < b) x l

/-- Bit `i` of a row set to `v`. -/
def BitRow.put (r : BitRow) (i : Nat) (v : Bool) : BitRow :=
  { r with flips := if v = r.dflt then r.flips.filter (· != i) else insertAsc i r.flips }

/-- A bit of the result of a row operation (R224). -/
def rowBit (op : Nat) (a b : Bool) : Bool :=
  match op with
  | 0 => a
  | 1 => !a
  | 2 => a && b
  | 3 => a || b
  | _ => a != b

/-- A row operation on rows of bits (R224). -/
def bitRowOp (op : Nat) (a b : BitRow) : BitRow :=
  let d := rowBit op a.dflt b.dflt
  { dflt := d, flips := (a.flips.foldl (fun l x => insertAsc x l) b.flips).filter fun i => rowBit op (a.get i) (b.get i) != d }

/-- Rows of a bitmap of an index (R95). -/
def bitmapRows (ix : Index) : Nat := (ix.desc.slotCount + 8191) / 8192

/-- Rows of a bitmap in each pseudo-channel, and from one bitmap's region to the next, which starts at a multiple of 32 (R192, R193). -/
def bitmapSpan (d : IndexDesc) : Nat := ((d.slotCount + 2097151) / 2097152 + 31) / 32 * 32

/-- Where row `r` of bitmap `b` lies: its pseudo-channel and its row there; filter slots come after the attribute bitmaps (R95,
R193). DESIGN CHOICE (log 110): the regions of an index follow one another from one place of each pseudo-channel. -/
def bitmapPlace (ix : Index) (b r : Nat) : Nat × Nat := (r % 256, ix.pins.getD (r % 256) 0 + b * bitmapSpan ix.desc + r / 256)

/-- Row `r` of attribute bitmap `a` (R95). -/
def attrRow (ix : Index) (a r : Nat) : BitRow :=
  { dflt := false, flips := (ix.attrs.filter fun e => e.1 / 8192 == r && bit e.2 a).map (·.1 % 8192) }

/-- Row `r` of filter slot `f` (R95). -/
def filterRow (ix : Index) (f r : Nat) : BitRow := sget rowEmpty ix.filterRows (16 * r + f)

/-- Row `r` of filter slot `f` written. -/
def putFilterRow (f r : Nat) (row : BitRow) (ix : Index) : Index :=
  { ix with filterRows := sset rowEmpty ix.filterRows (16 * r + f) row }

/-- The bit of a slot in filter slot `f` (R95). -/
def filterAt (ix : Index) (f slot : Nat) : Bool := (filterRow ix f (slot / 8192)).get (slot % 8192)

/-- The bit of a slot in filter slot `f` written. -/
def putFilterBit (f slot : Nat) (v : Bool) (ix : Index) : Index :=
  putFilterRow f (slot / 8192) ((filterRow ix f (slot / 8192)).put (slot % 8192) v) ix

/-- OP, NEG and attribute of a term (R96, R97). -/
def filterStep (attr : Nat) (acc : Bool) (i t : Nat) : Bool :=
  let b := bit attr (bits t 5 0) != bit t 13
  match bits t 15 14 with
  | 0 => if i = 0 then b else acc && b
  | 1 => acc || b
  | 2 => acc && !b
  | _ => acc != b

/-- The recipe of a filter slot on an attribute mask (R97). -/
def filterRecipe (attr : Nat) (terms : List Nat) : Bool :=
  (terms.foldl (fun (a : Nat × Bool) t => (a.1 + 1, filterStep attr a.2 a.1 t)) (0, false)).2

/-- The filter bits of a slot written for the filter slots chosen by `sel` (R98, R162 step 3). -/
def writeFilterBits (sel : Filter → Bool) (ix : Index) (slot : Nat) : Index :=
  let attr := sget (fun _ => 0) ix.attrs slot
  (List.range ix.desc.filterCount).foldl (fun ix f =>
    let x := sget filterEmpty ix.filters f
    if sel x then putFilterBit f slot (filterRecipe attr x.terms) ix else ix) ix

/-- A row operation of a derivation (R229): its operation, whether it writes the scratch row, and the attribute bitmap it reads, or
the scratch row. -/
structure RowStep where
  op : Nat
  scratch : Bool
  attr : Option Nat
deriving DecidableEq, Repr

/-- The row operations of a later term (R229). -/
def termSteps (t : Nat) : List RowStep :=
  let op := bits t 15 14
  let comb := if op = 1 then 3 else if op = 3 then 4 else 2
  if bit t 13 != (op == 2) then [{ op := 1, scratch := true, attr := some (bits t 5 0) }, { op := comb, scratch := false, attr := none }]
  else [{ op := comb, scratch := false, attr := some (bits t 5 0) }]

/-- The row operations that derive one row (R229). -/
def rowSteps : List Nat → List RowStep
  | [] => []
  | t :: ts => { op := if bit t 13 then 1 else 0, scratch := false, attr := some (bits t 5 0) } :: ts.flatMap termSteps

/-- A row operation of a derivation done on row `r` of filter slot `f`: the index, and the scratch row of the bank (R229). -/
def runRowStep (f r : Nat) (st : RowStep) (a : Index × BitRow) : Index × BitRow :=
  let src := match st.attr with
    | some n => attrRow a.1 n r
    | none => a.2
  if st.scratch then (a.1, bitRowOp st.op src src)
  else
    let old := filterRow a.1 f r
    (putFilterRow f r (if st.op < 2 then bitRowOp st.op src src else bitRowOp st.op old src) a.1, a.2)

/-- Every row of a filter slot derived from its recipe (R98, R101, R229). -/
def deriveAll (f : Nat) (terms : List Nat) (ix : Index) : Index :=
  (List.range (bitmapRows ix)).foldl (fun ix r =>
    ((rowSteps terms).foldl (fun a st => runRowStep f r st a) (ix, rowEmpty 0)).1) ix

end Sys2Proof.Machine
end

