-- ==== Sys2Proof/Machine/Errors.lean ====
section
/-!
DEFINITION. Error records: their locations, filing (R486 without the consequences of a halt), merging, queueing and
interrupts (chapter 16).
-/
namespace Sys2Proof.Machine

/-- Severities (R478). -/
def sevNotice : Nat := 0
/-- CORRECTED (R478). -/
def sevCorrected : Nat := 1
/-- ERROR (R478). -/
def sevError : Nat := 2
/-- FATAL (R478). -/
def sevFatal : Nat := 3

/-- LOCATION of a register write (R480). -/
def locReg (f : Fn) (bar off : Nat) : List Byte :=
  leBytes 1 f.port.num ++ leBytes 1 f.vf ++ leBytes 1 bar ++ zeros 1 ++ leBytes 4 off ++ zeros 8

/-- LOCATION of a register write by a firmware core or the AOC (R480). -/
def locRegInner (off : Nat) : List Byte := leBytes 1 0xFF ++ zeros 3 ++ leBytes 4 off ++ zeros 8

/-- LOCATION of a host access (R480). -/
def locHost (f : Fn) (addr : Nat) : List Byte :=
  leBytes 1 f.port.num ++ leBytes 1 f.vf ++ zeros 6 ++ leBytes 8 addr

/-- LOCATION of a DRAM codeword (R480). -/
def locDram (stack pc bank nbytes row unit : Nat) : List Byte :=
  leBytes 1 stack ++ leBytes 1 pc ++ leBytes 1 bank ++ leBytes 1 nbytes ++ leBytes 4 row ++ leBytes 1 unit ++ zeros 7

/-- LOCATION of an SRAM word (R480). -/
def locSram (struct place unit word nbytes : Nat) : List Byte :=
  leBytes 1 struct ++ leBytes 1 place ++ leBytes 2 unit ++ leBytes 4 word ++ leBytes 1 nbytes ++ zeros 7

/-- LOCATION of an on-die link (R480). -/
def locNoc (boundary link : Nat) : List Byte := leBytes 1 boundary ++ leBytes 1 link ++ zeros 14

/-- LOCATION of a flash page (R480). -/
def locFlash (lpn ppn lun codeword : Nat) : List Byte :=
  leBytes 4 lpn ++ leBytes 4 ppn ++ leBytes 2 lun ++ leBytes 1 codeword ++ zeros 5

/-- LOCATION of a fabric event (R480). -/
def locFabric (lane node comp : Nat) : List Byte :=
  leBytes 1 lane ++ zeros 1 ++ leBytes 2 node ++ leBytes 4 comp ++ zeros 8

/-- The source of a record: the part of LOCATION that R480 names, or the unit. -/
def recSource (r : Rec) : List Byte :=
  match r.locKind with
  | 0 => leBytes 1 r.unitKind ++ leBytes 2 r.unit
  | 1 => r.loc.take 2
  | 2 => r.loc.take 4
  | 3 => r.loc.take 1
  | 4 => (r.loc.drop 8).take 2
  | 5 => r.loc.take 2
  | 6 => r.loc.take 1
  | _ => (r.loc.drop 2).take 2

/-- Whether two records have the same source. -/
def sameSource (a b : Rec) : Bool := a.locKind == b.locKind && recSource a == recSource b

/-- Whether a new occurrence `e` merges into the open record `r` (R483). -/
def mergesInto (e r : Rec) : Bool :=
  !r.handled && r.cls == e.cls && r.sev == e.sev &&
  if e.sev ≤ 1 then sameSource e r
  else r.locKind == e.locKind && r.loc == e.loc && (e.locKind != 0 || (r.unitKind == e.unitKind && r.unit == e.unit))

/-- An error queue. -/
def getErrQueue (sev : Nat) (s : State) : ErrQueue := sget errQueueReset s.err.queues sev

/-- An error queue changed by `f`. -/
def onErrQueue (sev : Nat) (f : ErrQueue → ErrQueue) (s : State) : State :=
  onErr (fun e => { e with queues := smod errQueueReset e.queues sev f }) s

/-- Every record held, by severity. -/
def allRecs (s : State) : List Rec := (List.range 4).flatMap fun q => (getErrQueue q s).recs

/-- The newest open record among some. -/
def newestOpen (rs : List Rec) : Option Rec :=
  rs.foldl (fun acc r => if r.handled then acc else
    match acc with
    | none => some r
    | some a => if a.seq < r.seq then some r else some a) none

/-- The port that serves a record's partition (R485). -/
def recPort (r : Rec) (s : State) : Option Port := if r.part = 0xFF then none else servedBy r.part s

/-- PF vector 1 of a record: on the port that serves its partition, else on both (R485). -/
def pfInterrupt (r : Rec) (s : State) : State :=
  let ports := match recPort r s with
    | some p => [p]
    | none => [Port.a, Port.b]
  ports.foldl (fun s p => emit (.msix { port := p, vf := 0 } 1) s) s

/-- The interrupts of a record: PF vector 1 from INT_MIN up or on the setting of LOST, VF vector 17 for ERROR and
FATAL of a live partition (R485). -/
def recInterrupts (r : Rec) (dropped : Bool) (s : State) : State :=
  let served := recPort r s
  let s := if dropped || s.err.intMin ≤ r.sev then pfInterrupt r s else s
  match served with
  | some p => if 2 ≤ r.sev then emit (.msix { port := p, vf := r.part + 1 } 17) s else s
  | none => s

/-- A record put into its queue, or dropped when 32 are held (R484); SEQ is spent either way. -/
def queueRec (r : Rec) (s : State) : State × Bool :=
  let dropped := 32 ≤ (getErrQueue r.sev s).recs.length
  let s := if dropped then
      onErr (fun e => { e with lost := wrap64 (e.lost + 1) }) (onErrQueue r.sev (fun q => { q with lost := true }) s)
    else onErrQueue r.sev (fun q => { q with recs := q.recs ++ [r] }) s
  (recInterrupts r dropped s, dropped)

/-- A record as its creator gives it: class, severity, location; everything else as `fileErr` sets it. -/
def mkRec (cls sev locKind : Nat) (loc : List Byte) : Rec where
  seq := 0
  sev := sev
  cls := cls
  locKind := locKind
  handled := false
  escalated := false
  nested := false
  cmd := false
  refusedRepair := false
  count := 1
  part := 0xFF
  queue := 0xFF
  timeFirst := 0
  timeLast := 0
  rid := 0
  unit := 0xFFFF
  unitKind := 0
  loc := loc
  nestedSeq := 0

/-- A record numbered, stamped and queued. -/
def createRec (r : Rec) (s : State) : State × Nat × Bool :=
  let seq := s.err.nextSeq
  let now := timeUs s
  let s := onErr (fun e => { e with nextSeq := wrap64 (e.nextSeq + 1), fatals := e.fatals + b2n (r.sev == 3) }) s
  let (s, dropped) := queueRec { r with seq := seq, timeFirst := now, timeLast := now } s
  (s, seq, dropped)

/-- HALTED set and the HALT record queued, its NESTED_SEQ the cause (R487); `haltModule` does the rest. -/
def markHalted (cause : Nat) (s : State) : State :=
  if s.err.halted then s else
  (createRec { mkRec 0x3F 3 0 (zeros 16) with nestedSeq := cause } (onErr (fun e => { e with halted := true }) s)).1

/-- A new error filed as the pseudocode of R486: merged, escalated by the open record whose handling it struck, nested
under an open record of its source, queued or dropped. `stays` says that the source is no removable unit. Answers the
SEQ that a command reports, and whether the record was dropped. -/
def fileErr (e : Rec) (struck : Option Nat) (stays : Bool) (s : State) : State × Nat × Bool :=
  match if e.sev = 3 then none else (getErrQueue e.sev s).recs.find? (mergesInto e) with
  | some o =>
    let now := timeUs s
    let bump : Rec → Rec := fun r => { r with count := satAdd 0xFFFF r.count 1, timeLast := now }
    let s := onErrQueue e.sev (fun q => { q with recs := updWhere (·.seq == o.seq) bump q.recs }) s
    (onErr (fun x => { x with merged := wrap64 (x.merged + 1) }) s, o.seq, false)
  | none =>
    let h := struck.bind fun n => (allRecs s).find? fun r => r.seq == n && !r.handled
    let (e, s) := match h with
      | some h => ({ e with sev := min 3 (max e.sev h.sev + 1), escalated := true, nestedSeq := h.seq },
          onErr (fun x => { x with escalated := wrap64 (x.escalated + 1) }) s)
      | none => match newestOpen ((allRecs s).filter fun r => sameSource e r && r.cls != e.cls) with
        | some o => ({ e with nested := true, nestedSeq := o.seq }, s)
        | none => (e, s)
    let halts := e.sev = 3 && (stays || (allRecs s).any fun r => r.sev == 3 && !r.handled)
    let (s, seq, dropped) := createRec e s
    (if halts then markHalted seq s else s, seq, dropped)

/-- An error of no command filed. -/
def fileRec (e : Rec) (s : State) : State := (fileErr e none false s).1

/-- A record of a command: its partition, queue and request ID with CMD set (R479). -/
def cmdRec (k : Cmd) (e : Rec) : Rec :=
  { e with part := scopePart k.queue.scope, queue := k.queue.q, rid := k.ref.rid, cmd := true }

/-- BAD_ACCESS at a BAR offset (R36, R37). -/
def fileBadAccess (f : Fn) (bar off : Nat) (s : State) : State :=
  fileRec (mkRec 0x01 0 6 (locReg f bar off)) s

/-- FOREIGN_WRITE: a write through a PF to the page of a partition of the other port (R37). -/
def fileForeign (f : Fn) (bar off : Nat) (s : State) : State :=
  fileRec (mkRec 0x02 0 6 (locReg f bar off)) s

/-- BAD_VALUE at a BAR offset (R45, R189, R405). -/
def fileBadValue (f : Fn) (bar off : Nat) (part queue : Nat) (s : State) : State :=
  fileRec { mkRec 0x04 0 6 (locReg f bar off) with part := part, queue := queue } s

end Sys2Proof.Machine
end

