-- ==== Sys2Proof/Machine/Meters.lean ====
section
/-!
DEFINITION. The meters of the policers and the credit of the shapers (R392–R400): colour, charge, refill.
-/
namespace Sys2Proof.Machine

/-- The colours of R395. -/
inductive Colour where
  | green
  | yellow
  | red
deriving DecidableEq, Repr

/-- A two-bit colour entry of TM_QCOLOUR (R408); 0b11 is never held. -/
def colourOf (n : Nat) : Colour := if n = 0 then .green else if n = 1 then .yellow else .red

/-- The meter of R395: the colour of a charge of `b` bytes, and the buckets after it. -/
def meter (p : Policer) (b : Nat) (pre : Colour) : Colour × Policer :=
  let pre := if p.cfg.aware then pre else .green
  if p.cfg.twoRate then
    if pre = .red ∨ p.te < b then (.red, p)
    else if pre = .yellow ∨ p.tc < b then (.yellow, { p with te := p.te - b })
    else (.green, { p with te := p.te - b, tc := p.tc - b })
  else if pre = .green ∧ b ≤ p.tc then (.green, { p with tc := p.tc - b })
  else if pre ≠ .red ∧ b ≤ p.te then (.yellow, { p with te := p.te - b })
  else (.red, p)

/-- One refill of a policer's buckets (R395). -/
def refillPolicer (p : Policer) : Policer :=
  if !p.cfg.enable then p
  else if p.cfg.twoRate then
    { p with tc := min p.cfg.cbs (p.tc + p.cfg.cir), te := min p.cfg.ebs (p.te + p.cfg.pir) }
  else
    let c := p.tc + p.cfg.cir
    if p.cfg.cbs < c then { p with tc := p.cfg.cbs, te := min p.cfg.ebs (p.te + (c - p.cfg.cbs)) }
    else { p with tc := c }

/-- One refill of a shaper's credit (R400). -/
def refillShaper (p : Shaper) : Shaper :=
  if p.cfg.enable then { p with credit := min (p.cfg.burst : Int) (p.credit + p.cfg.slope) } else p

/-- A colour counted (R410), and whether its action throttles (R397). -/
def actOn (c : Colour) (p : Policer) : Bool × Policer :=
  match c with
  | .green => (false, { p with green := wrap64 (p.green + 1) })
  | .yellow =>
    let p := { p with yellow := wrap64 (p.yellow + 1) }
    if p.cfg.yellowThrottle then (true, { p with throttled := wrap64 (p.throttled + 1) }) else (false, p)
  | .red =>
    let p := { p with red := wrap64 (p.red + 1) }
    if p.cfg.redThrottle then (true, { p with throttled := wrap64 (p.throttled + 1) }) else (false, p)

/-- A policer. -/
def getPolicer (n : Nat) (s : State) : Policer := sget policerReset s.tm.policers n

/-- A policer changed by `f`. -/
def onPolicer (n : Nat) (f : Policer → Policer) (s : State) : State :=
  onTm (fun t => { t with policers := smod policerReset t.policers n f }) s

/-- A shaper. -/
def getShaper (n : Nat) (s : State) : Shaper := sget shaperReset s.tm.shapers n

/-- A shaper changed by `f`. -/
def onShaper (n : Nat) (f : Shaper → Shaper) (s : State) : State :=
  onTm (fun t => { t with shapers := smod shaperReset t.shapers n f }) s

/-- A charge of `b` bytes at policer `n` with a pre-colour: whether it is throttled (R392–R397). A disabled policer
colours GREEN and charges nothing. -/
def police (n b : Nat) (pre : Colour) (s : State) : Bool × State :=
  let p := getPolicer n s
  let (c, p) := if p.cfg.enable then meter p b pre else (.green, p)
  let (stop, p) := actOn c p
  (stop, onPolicer n (fun _ => p) s)

/-- Whether a shaper lets its queue start (R400). -/
def shaperOpen (n : Nat) (s : State) : Bool := !(getShaper n s).cfg.enable || 0 ≤ (getShaper n s).credit

/-- A charge at an enabled shaper (R400). -/
def chargeShaper (n b : Nat) (s : State) : State :=
  onShaper n (fun p => if p.cfg.enable then { p with credit := p.credit - b } else p) s

/-- The quantum of a shaper's queue in bytes: units of 256, 0 means 64 KiB (R409). -/
def quantumBytes (q : Nat) : Nat := if q = 0 then 65536 else 256 * q

end Sys2Proof.Machine
end

