-- ==== Sys2Proof/Machine/Refs.lean ====
section
/-!
DEFINITION. What a search holds from its admission until its completion entry is written (R103, R105), and the counters of the
searches that complete (R136).
-/
namespace Sys2Proof.Machine

/-- An index of the node. -/
def getIndex (h : Nat) (s : State) : Option Index := tget? s.srch.indexes h

/-- An index changed by `f`. -/
def onIndex (h : Nat) (f : Index → Index) (s : State) : State :=
  onSrch (fun x => { x with indexes := tmod f x.indexes h }) s

/-- A query of a command. -/
def getQuery (c : CmdRef) (s : State) : Option Query := s.srch.queries.find? (·.ref == c)

/-- The query of a command changed by `f`. -/
def onQuery (c : CmdRef) (f : Query → Query) (s : State) : State :=
  onSrch (fun x => { x with queries := updWhere (fun q : Query => q.ref == c) f x.queries }) s

/-- The search and mutation counters of a partition changed by `f`. -/
def onWlk (p : Nat) (f : WlkCounts → WlkCounts) (s : State) : State :=
  onSrch (fun x => { x with counts := smod wlkCountsReset x.counts p f }) s

/-- Whether a query has been admitted: it holds its walker's SRAM, its snapshot and its references. -/
def Query.admittedIn (q : Query) : Bool := q.phase != .waiting

/-- The filter slot of an index. -/
def getFilter (ix : Index) (f : Nat) : Filter := sget filterEmpty ix.filters f

/-- REFS of a filter slot changed by `f` (R96, R105). -/
def modRefs (f : Nat → Nat) (n : Nat) (ix : Index) : Index :=
  { ix with filters := smod filterEmpty ix.filters n fun x => { x with refs := f x.refs } }

/-- A reference taken on the current generation (R186). -/
def bindGen (ix : Index) : Index := { ix with curRefs := ix.curRefs + 1 }

/-- OLD_GEN released when nothing refers to it (R186). -/
def dropOldGen (ix : Index) : Index :=
  if ix.oldRefs = 0 then { ix with oldGen := 0, oldBook := [] } else ix

/-- A reference on a generation released (R186). -/
def releaseGen (gen : Nat) (ix : Index) : Index :=
  if gen = ix.curGen then { ix with curRefs := ix.curRefs - 1 }
  else if gen = ix.oldGen then dropOldGen { ix with oldRefs := ix.oldRefs - 1 }
  else ix

/-- What admission took for a query given back: the reference on its generation and on its filter slot (R105). A query that was
never admitted has waited until now (R136). -/
def releaseRefs (q : Query) (s : State) : State :=
  if q.admittedIn then
    let s := onIndex q.handle (releaseGen q.gen) s
    if q.params.useFilter then onIndex q.handle (modRefs (· - 1) q.params.filter) s else s
  else
    let now := timeUs s
    onWlk q.part (fun c => { c with admitUs := wrap64 (c.admitUs + (now - q.fetched)) }) s

/-- The reference of a mutation command on its generation released, at its completion or ending (R171, R186). -/
def releaseBound (c : CmdRef) (s : State) : State :=
  match s.grp.bound.find? (·.1 == c) with
  | none => s
  | some (_, h, gen) => onMut (fun m => { m with bound := m.bound.filter (·.1 != c) }) (onIndex h (releaseGen gen) s)

/-- A request of a query taken out of every batch it joined; a batch left empty before its read issues is cancelled and
its frame freed (R120). -/
def leaveBatches (c : CmdRef) (s : State) : State :=
  let leave : Batch → Batch := fun b =>
    { b with reqs := b.reqs.filter (·.ref != c), opener := if b.opener = some c then none else b.opener }
  let bs := s.srch.batches.map leave
  let (dead, keep) := bs.partition fun b => b.reqs.isEmpty && !b.issued
  let s := onSrch (fun x => { x with batches := keep }) s
  dead.foldl (fun s b => onIndex b.handle (fun ix => { ix with frames := tdel ix.frames b.crate }) s) s

/-- A reference on the RETIRING frames of an index released: one that none holds any more is FREE (R90). -/
def dropRetiring (c : CmdRef) (ix : Index) : Index :=
  { ix with retiring := (ix.retiring.map fun e => (e.1, e.2.filter (· != c))).filter fun e => !e.2.isEmpty }

/-- The frame reference of a query released (R90, R118). -/
def releaseFrame (c : CmdRef) (s : State) : State :=
  match getQuery c s with
  | none => s
  | some q => onQuery c (fun q => { q with frame := none }) (onIndex q.handle (dropRetiring c) s)

/-- A query leaves the crate cache: its batches and its frame reference (R107, R120). -/
def leaveCache (c : CmdRef) (s : State) : State := releaseFrame c (leaveBatches c s)

/-- The query of a command that is over: what it held is free (R103, R105, R120). -/
def releaseQuery (c : CmdRef) (s : State) : State :=
  match getQuery c s with
  | none => s
  | some q => onSrch (fun x => { x with queries := x.queries.filter (·.ref != c) }) (releaseRefs q (leaveCache c s))

/-- What a command held until its completion is free: a query's share and references, a mutation's binding. -/
def releaseHeld (c : CmdRef) (s : State) : State := releaseBound c (releaseQuery c s)

/-- WLK_QUERIES, WLK_PARTIAL and WLK_UNCORR for a command that completes: searches with any status (R136). -/
def countSearch (k : Cmd) (st : Nat) (s : State) : State :=
  match k.queue.scope with
  | .pf _ => s
  | .part p =>
    if k.opcode ∈ [1, 2, 3] then
      onWlk p (fun c => { c with queries := wrap64 (c.queries + 1), partials := wrap64 (c.partials + b2n (st == stPartial)),
                                 uncorr := wrap64 (c.uncorr + b2n (st == stUncorrectable)) }) s
    else s

end Sys2Proof.Machine
end

