-- ==== Sys2Proof/Machine/Completion.lean ====
section
/-!
DEFINITION. Completing a command: result data, the HOST queues with their shapers, the completion entry with its phase
and interrupt, and the duplicate table (R40, R44, R48, R49, R54–R59, R63, R399–R402).
-/
namespace Sys2Proof.Machine

/-- The 32 bytes of a completion entry (R54). -/
def entryBytes (rid st sqHead count elapsed detail resultBytes queue flags phase : Nat) : List Byte :=
  leBytes 4 rid ++ leBytes 2 st ++ leBytes 2 sqHead ++ leBytes 4 count ++ leBytes 4 elapsed ++ leBytes 8 detail
    ++ leBytes 4 resultBytes ++ leBytes 1 queue ++ zeros 1 ++ leBytes 1 flags ++ leBytes 1 phase

/-- A completion without NO_INT counted, and the queue's vector raised when INT_COUNT is reached; INT_COUNT 0 raises
one per completion (R40, R49). -/
def countInterrupt (q : QRef) (f : Fn) (s : State) : State :=
  let x := getQueue q s
  if x.intCount ≤ x.unsignalled + 1 then
    emit (.msix f x.vec) (onQueue q (fun x => { x with unsignalled := 0, oldest := none }) s)
  else
    let now := timeUs s
    onQueue q (fun x => { x with unsignalled := x.unsignalled + 1, oldest := some (x.oldest.getD now) }) s

/-- The completion entry of `k` written to its ring: slot CQ_TAIL, the phase flips on the wrap (R48, R54). -/
def putEntry (k : Cmd) (a : Answer) (dup : Bool) (port : Port) (s : State) : State :=
  let x := getQueue k.queue s
  let elapsed := min 0xFFFFFFFF (timeUs s - k.fetched)
  let flags := b2n dup + 2 * b2n k.errRec + 4 * b2n k.noInt
  let bytes := entryBytes k.ref.rid a.status x.sqHead a.count elapsed a.detail a.resultBytes k.queue.q flags
    (b2n x.phase)
  let size := 2 ^ x.cqLog2
  let s := emit (.entry port k.queue (x.cqb + 32 * x.cqTail) bytes) s
  let tail := (x.cqTail + 1) % size
  let s := onQueue k.queue (fun x => { x with cqTail := tail, phase := x.phase != (tail == 0) }) s
  if k.noInt then s else countInterrupt k.queue (scopeFn k.queue.scope port) s

/-- The first command of a name taken off the list. -/
def dropFirst (c : CmdRef) : List Cmd → List Cmd
  | [] => []
  | k :: ks => if k.ref = c then ks else k :: dropFirst c ks

/-- The duplicate table notes what a command answered; an aborted command of an adopted or reset partition is dealt
with by its caller (R56, R59, R69). -/
def noteAnswer (c : CmdRef) (a : Answer) (s : State) : State :=
  let give : Dup → Dup := fun d => { d with answer := some a }
  onHost (fun h => { h with dups := updWhere (fun d => d.ref == c && d.answer.isNone) give h.dups }) s

/-- The start of a completion entry write: the commit point of a command that changes nothing (R65), and the end of what its
query holds (R103, R105). The entry is not written for a mute command, a halted queue (R44) or a scope no port serves. -/
def writeEntry (c : CmdRef) (a : Answer) (dup : Bool) (s : State) : State :=
  match findCmd c s with
  | none => s
  | some k =>
    let s := if dup then s else releaseHeld c (countSearch k a.status (noteAnswer c a s))
    let s := onHost (fun h => { h with cmds := dropFirst c h.cmds }) s
    match scopePort k.queue.scope s with
    | none => s
    | some port =>
      if k.mute || k.remote || (getQueue k.queue s).state == .halted || (getQueue k.queue s).state == .disabled then s
      else putEntry k a dup port s

/-- Bytes a HOST item is charged and weighs in the deficit round robin (R399, R402). -/
def itemBytes : HostItem → Nat
  | .data _ _ bs => bs.length
  | .entry _ _ _ => 32

/-- Whether a HOST item goes out whatever the shaper and the round say (R399): the entry of a control queue, or one with status
ABORTED or TIMEOUT. In its queue it waits for the data of its own command only (R63). -/
def unshaped (s : State) : HostItem → Bool
  | .data _ _ _ => false
  | .entry c a _ => (findCmd c s).any (·.queue.q == 16) || a.status == stAborted || a.status == stTimeout

/-- A HOST item sent. -/
def sendItem (port : Port) (i : HostItem) (s : State) : State :=
  match i with
  | .data _ ptr bs => emit (.data port ptr bs) s
  | .entry c a dup => writeEntry c a dup s

/-- The HOST queue of a partition. -/
def hostq (p : Nat) (s : State) : List (Nat × HostItem) := sget (fun _ => []) s.host.hostq p

/-- The HOST queue of a partition replaced. -/
def setHostq (p : Nat) (l : List (Nat × HostItem)) (s : State) : State :=
  onHost (fun h => { h with hostq := sset (fun _ => []) h.hostq p l }) s

/-- Whether a HOST item belongs to a command that is no echo. -/
def itemOf (c : CmdRef) : HostItem → Bool
  | .data r _ _ => r == c
  | .entry r _ dup => r == c && !dup

/-- The writes of a command that wait in its HOST queue are not made: it is ended before its entry write began (R65). -/
def dropHostItems (c : CmdRef) (s : State) : State :=
  match c.scope with
  | .pf _ => s
  | .part p => setHostq p ((hostq p s).filter fun i => !itemOf c i.2) s

/-- Key of a partition's deficit at its port (R402). -/
def hostDefKey (port : Port) (p : Nat) : Nat := 4680 + 64 * port.num + p

/-- A deficit. -/
def deficit (k : Nat) (s : State) : Nat := sget (fun _ => 0) s.tm.deficits k

/-- A deficit set. -/
def setDeficit (k v : Nat) (s : State) : State :=
  onTm (fun t => { t with deficits := sset (fun _ => 0) t.deficits k v }) s

/-- Items of partition `p` sent while its shaper is open and its deficit covers them (the inner loop of R401). -/
def sendWhile (port : Port) (p : Nat) : Nat → State → State
  | 0, s => s
  | n + 1, s =>
    match hostq p s with
    | [] => s
    | (_, i) :: rest =>
      let b := itemBytes i
      let k := hostDefKey port p
      if unshaped s i then sendWhile port p n (sendItem port i (setHostq p rest s))
      else if shaperOpen (3 * p + 2) s && b ≤ deficit k s then
        let s := setDeficit k (deficit k s - b) (chargeShaper (3 * p + 2) b (setHostq p rest s))
        sendWhile port p n (sendItem port i s)
      else s

/-- One queue's turn of a round (R401, R402). -/
def hostTurn (port : Port) (s : State) (p : Nat) : State :=
  let k := hostDefKey port p
  if (hostq p s).isEmpty then setDeficit k 0 s
  else if !shaperOpen (3 * p + 2) s then s
  else
    let s := setDeficit k (deficit k s + quantumBytes (getShaper (3 * p + 2) s).cfg.quantum) s
    let s := sendWhile port p (hostq p s).length s
    if (hostq p s).isEmpty then setDeficit k 0 s else s

/-- One round of a port over the partitions it serves, in ascending order (R402). -/
def hostRound (port : Port) (s : State) : State :=
  ((List.range 64).filter fun p => servedBy p s == some port && !(hostq p s).isEmpty).foldl (hostTurn port) s

/-- Rounds of a port until `n` are done. -/
def hostRounds (port : Port) : Nat → State → State
  | 0, s => s
  | n + 1, s => hostRounds port n (hostRound port s)

/-- Everything a port may send now: an item needs at most two rounds of the smallest quantum. -/
def hostDrain (port : Port) (s : State) : State :=
  hostRounds port (2 * (((List.range 64).map fun p => (hostq p s).length).foldl (· + ·) 0)) s

/-- The function a command's DMA goes through. -/
def cmdFn (k : Cmd) (s : State) : Fn := scopeFn k.queue.scope ((scopePort k.queue.scope s).getD .a)

/-- DMA writes of a result: each carries at most the function's max payload size (R32, R399). -/
def dataItems (c : CmdRef) (ptr mps : Nat) : Nat → List Byte → List HostItem
  | 0, _ => []
  | n + 1, bs => if bs.isEmpty then [] else .data c ptr (bs.take mps) :: dataItems c (ptr + mps) mps n (bs.drop mps)

/-- The DMA writes of a command's result bytes at an address. -/
def resultItems (k : Cmd) (ptr : Nat) (bs : List Byte) (s : State) : List HostItem :=
  dataItems k.ref ptr (getPcie (cmdFn k s) s).maxPayload bs.length bs

/-- Items of a command put into the HOST queue of its partition, and the port served; a scope without a HOST queue, or
entries that bypass the shapers, go out at once (R399). -/
def sendToHost (k : Cmd) (items : List HostItem) (bypass : Bool) (s : State) : State :=
  match k.queue.scope with
  | .pf port => items.foldl (fun s i => sendItem port i s) s
  | .part p =>
    let port := (getPtn p s).port
    if bypass then items.foldl (fun s i => sendItem port i s) s
    else
      let now := timeUs s
      hostDrain port (setHostq p (hostq p s ++ items.map fun i => (now, i)) s)

/-- Whether a command is a composed search whose own slot has not answered (R372). -/
def ownPart (c : CmdRef) (s : State) : Bool := s.fab.searches.any fun x => x.ref == c && x.own

/-- An answer that goes to the fabric (R372): a sub-search's command leaves with it. -/
def giveToFabric (c : CmdRef) (k : Cmd) (a : FabricAns) (s : State) : State :=
  let s := if k.remote then releaseHeld c (countSearch k a.status s) else s
  onHost (fun h => { h with
    cmds := if k.remote then dropFirst c h.cmds else h.cmds, fabricAns := h.fabricAns ++ [a] }) s

/-- The completion of a running command: its result data, then its entry, with the status and RESULT_BYTES given (R54,
R63). -/
def completeWith (c : CmdRef) (st count detail resultBytes : Nat) (result : List Byte) (s : State) : State :=
  match findCmd c s with
  | none => s
  | some k =>
    if k.remote || ownPart c s then
      giveToFabric c k { ref := c, status := st, count := count, detail := detail, result := result } s
    else
    let s := onCmd c (fun k => { k with phase := .finishing }) s
    let items := (if k.mute || k.remote then [] else resultItems k k.resultPtr result s)
      ++ [.entry c { status := st, count := count, detail := detail, resultBytes := resultBytes } false]
    let direct := result.isEmpty && (k.queue.q == 16 || st == stAborted || st == stTimeout)
    sendToHost k items (direct || k.mute || k.remote) s

/-- A completion whose result data goes out within RESULT_LEN (R51). -/
def complete (c : CmdRef) (st count detail : Nat) (result : List Byte) (s : State) : State :=
  match findCmd c s with
  | none => s
  | some k =>
    let result := result.take k.resultLen
    completeWith c st count detail result.length result s

/-- A completion with no result data. -/
def completeSt (c : CmdRef) (st : Nat) (s : State) : State := complete c st 0 0 [] s

/-- A completion that reports a record: UNCORRECTABLE with its SEQ, or LOST_RECORD when the record was dropped (R484,
R488). -/
def completeRec (c : CmdRef) (st count : Nat) (seq : Nat) (dropped : Bool) (s : State) : State :=
  if dropped then complete c stLostRecord count seq [] s
  else complete c st count seq [] (onCmd c (fun k => { k with errRec := true }) s)

/-- The same with result data (R212). -/
def completeRecData (c : CmdRef) (st count seq : Nat) (dropped : Bool) (result : List Byte) (s : State) : State :=
  if dropped then complete c stLostRecord count seq result s
  else complete c st count seq result (onCmd c (fun k => { k with errRec := true }) s)

/-- A record of a command filed, and the command completed UNCORRECTABLE with it (R488). -/
def failCmd (c : CmdRef) (e : Rec) (s : State) : State :=
  match findCmd c s with
  | none => s
  | some k =>
    let (s, seq, dropped) := fileErr (cmdRec k e) none false s
    completeRec c stUncorrectable 0 seq dropped s

/-- A failed DMA of a command's buffer at a host address (R52): a HOST_DMA record, UNCORRECTABLE. -/
def failDma (c : CmdRef) (addr : Nat) (s : State) : State :=
  match findCmd c s with
  | none => s
  | some k => failCmd c (mkRec 0x08 2 5 (locHost (cmdFn k s) addr)) s

/-- A completion whose result data the DMA writes, or fails to write (R52): what the command committed stands. -/
def finish (c : CmdRef) (resultOk : Bool) (st count detail : Nat) (result : List Byte) (s : State) : State :=
  match findCmd c s with
  | none => s
  | some k =>
    if resultOk || k.remote || ownPart c s || (result.take k.resultLen).isEmpty then complete c st count detail result s
    else failDma c k.resultPtr s

end Sys2Proof.Machine
end

