-- ==== Sys2Proof/Machine/Queues.lean ====
section
/-!
DEFINITION. Queue pairs: configuration writes, drain and halt, doorbells, and the interrupt timer (R40–R45, R49).
-/
namespace Sys2Proof.Machine

/-- A refused change of a field of a queue that is not DISABLED, counted for a partition's queue (R10, R42, R334). -/
def countQueueBusy (q : QRef) (s : State) : State :=
  match q.scope with
  | .part p => onPart p (fun x => { x with counts := { x.counts with cfgBusy := wrap64 (x.counts.cfgBusy + 1) } }) s
  | .pf _ => s

/-- A write of PTN_QSQB or PTN_QCQB (R39, R42): the address bits, unless the queue is not DISABLED. -/
def writeQueueBase (q : QRef) (cq : Bool) (v : Nat) (s : State) : State :=
  let x := getQueue q s
  let v := v / 4096 * 4096
  let old := if cq then x.cqb else x.sqb
  if x.state = .disabled then onQueue q (fun x => if cq then { x with cqb := v } else { x with sqb := v }) s
  else if v = old then s else countQueueBusy q s

/-- The largest vector a queue's MSIX_VEC takes: 17 on a VF, 3 on a PF (R40). -/
def maxVec (q : QRef) : Nat :=
  match q.scope with
  | .part _ => 17
  | .pf _ => 3

/-- Whether the context of a work queue exists; a control queue needs none (R42). -/
def queueHasContext (q : QRef) (s : State) : Bool :=
  match q.scope with
  | .part p => q.q == 16 || (tget? (getPtn p s).ctxs q.q).isSome
  | .pf _ => true

/-- The fields of PTN_QCFG but ENABLE written (R40, R42): those that are not live-safe only while DISABLED. -/
def writeQcfgFields (q : QRef) (v : Nat) (s : State) : State :=
  let x := getQueue q s
  let sq := bits v 30 26
  let cq := bits v 25 21
  let vec := if bits v 20 16 ≤ maxVec q then bits v 20 16 else x.vec
  let s := onQueue q (fun x => { x with intCount := bits v 15 10, intTime := bits v 9 0 }) s
  if x.state = .disabled then onQueue q (fun x => { x with sqLog2 := sq, cqLog2 := cq, vec := vec }) s
  else if sq = x.sqLog2 ∧ cq = x.cqLog2 ∧ vec = x.vec then s else countQueueBusy q s

/-- Whether a queue pair may be enabled (R42); before READY none may (R510). -/
def enableOk (q : QRef) (s : State) : Bool :=
  let x := getQueue q s
  4 ≤ x.sqLog2 && x.sqLog2 ≤ 16 && 4 ≤ x.cqLog2 && x.cqLog2 ≤ 16 && queueHasContext q s
    && (scopePort q.scope s).isSome && s.board.boot.stage == .ready

/-- A successful enable (R42, R48): SQ_HEAD and CQ_TAIL 0, PHASE 1, RUNNING. DESIGN CHOICE (log 104): the values of both doorbells,
the unsignalled count and the age of the oldest unsignalled completion start again with it. -/
def startQueue (x : Queue) : Queue :=
  { x with enable := true, state := .running, sqHead := 0, sqTail := 0, cqHead := 0, cqTail := 0, phase := true,
           unsignalled := 0, oldest := none }

/-- ENABLE written 1: no effect unless DISABLED; refused with CFG_ERR as R42 states. -/
def enableQueue (q : QRef) (s : State) : State :=
  if (getQueue q s).state ≠ .disabled then s
  else if enableOk q s then onQueue q startQueue s
  else onQueue q (fun x => { x with cfgErr := true }) s

/-- ENABLE cleared: a running or halted queue drains (R43, R44). -/
def disableQueue (q : QRef) (s : State) : State :=
  let x := getQueue q s
  if x.enable then onQueue q (fun x => { x with enable := false, state := .draining }) s else s

/-- A write of PTN_QCFG (R40, R42, R43). -/
def writeQcfg (q : QRef) (v : Nat) (s : State) : State :=
  let s := writeQcfgFields q v s
  if bit v 31 then enableQueue q s else disableQueue q s

/-- A write of PTN_QSTAT: the three error flags are W1C (R41). -/
def writeQstat (q : QRef) (v : Nat) (s : State) : State :=
  onQueue q (fun x => { x with dbErr := x.dbErr && !bit v 29, cfgErr := x.cfgErr && !bit v 28,
                               dmaErr := x.dmaErr && !bit v 27 }) s

/-- A drained queue becomes DISABLED (R43, R44): DRAINING, or HALTED with ENABLE clear, with nothing in flight. -/
def drainedQueue (q : QRef) (s : State) : State :=
  let x := getQueue q s
  if inflight q s = 0 ∧ (x.state = .draining ∨ (x.state = .halted ∧ x.enable = false)) then
    onQueue q (fun x => { x with state := .disabled, enable := false }) s
  else s

/-- A ring access that fails halts the queue, with a HOST_DMA record (R44). -/
def haltQueue (q : QRef) (addr : Nat) (s : State) : State :=
  let x := getQueue q s
  if x.state = .running ∨ x.state = .draining then
    let f := scopeFn q.scope ((scopePort q.scope s).getD .a)
    let s := onQueue q (fun x => { x with state := .halted, dmaErr := true }) s
    fileRec { mkRec 0x08 2 5 (locHost f addr) with part := scopePart q.scope, queue := q.q } s
  else s

/-- Whether an SQ_TAIL value is accepted: on the ring, and neither taking entries back nor filling it whole (R45). -/
def sqTailOk (x : Queue) (v : Nat) : Bool :=
  let n := 2 ^ x.sqLog2
  v < n && (x.sqTail + n - x.sqHead) % n ≤ (v + n - x.sqHead) % n

/-- Whether a CQ_HEAD value is accepted: on the ring, from the previous CQ_HEAD to CQ_TAIL (R45). -/
def cqHeadOk (x : Queue) (v : Nat) : Bool :=
  let n := 2 ^ x.cqLog2
  v < n && (v + n - x.cqHead) % n ≤ (x.cqTail + n - x.cqHead) % n

/-- A doorbell value refused: DB_ERR and a BAD_VALUE record (R45). -/
def refuseDoorbell (f : Fn) (q : QRef) (off : Nat) (s : State) : State :=
  fileBadValue f 2 off (scopePart q.scope) q.q (onQueue q (fun x => { x with dbErr := true }) s)

/-- A doorbell write that reached queue `q` (R45): discarded while the queue is disabled. -/
def ringDoorbell (f : Fn) (q : QRef) (head : Bool) (off v : Nat) (s : State) : State :=
  let x := getQueue q s
  if x.state = .disabled then s
  else if head then
    if cqHeadOk x v then onQueue q (fun x => { x with cqHead := v }) s else refuseDoorbell f q off s
  else if sqTailOk x v then onQueue q (fun x => { x with sqTail := v }) s
  else refuseDoorbell f q off s

/-- Whether a function's accesses reach anything: a PF always, a VF while its partition is assigned to the port (R33). -/
def fnLive (f : Fn) (s : State) : Bool :=
  f.vf == 0 || (1 ≤ f.vf && f.vf ≤ 64 && servedBy (f.vf - 1) s == some f.port)

/-- A doorbell write by a function to the slot of queue `n` on a doorbell page (R33, R34, R37, R38, R45). -/
def doorbell (f : Fn) (page n : Nat) (head : Bool) (v : Nat) (s : State) : State :=
  let inner := 8 * n + 4 * b2n head
  if f.vf = 0 then
    if page = 64 then if n = 16 then ringDoorbell f ⟨.pf f.port, 16⟩ head (page * 4096 + inner) v s else s
    else if 64 < page then s
    else match servedBy page s with
      | none => s
      | some p =>
        if p ≠ f.port then fileForeign f 2 (page * 4096 + inner) s
        else if n ≤ 16 then ringDoorbell f ⟨.part page, n⟩ head (page * 4096 + inner) v s
        else s
  else if fnLive f s && n ≤ 16 && page + 1 == f.vf then ringDoorbell f ⟨.part (f.vf - 1), n⟩ head inner v s
  else s

/-- The interrupt timer of a queue: its vector is raised once the oldest unsignalled completion is INT_TIME old (R40). -/
def intTimer (q : QRef) (s : State) : State :=
  let x := getQueue q s
  match x.oldest with
  | none => s
  | some t =>
    if x.intTime ≠ 0 ∧ t + x.intTime ≤ timeUs s then
      match scopePort q.scope s with
      | some port =>
        emit (.msix (scopeFn q.scope port) x.vec) (onQueue q (fun x => { x with unsignalled := 0, oldest := none }) s)
      | none => s
    else s

/-- SQ_TAIL_DOORBELL (R45). -/
def execSqTailDoorbell (f : Fn) (page q : Nat) (value : W32) (s : State) : Host.Outcome State Fault Refusal :=
  .next (doorbell f page q false value.toNat s)

/-- CQ_HEAD_DOORBELL (R45). -/
def execCqHeadDoorbell (f : Fn) (page q : Nat) (value : W32) (s : State) : Host.Outcome State Fault Refusal :=
  .next (doorbell f page q true value.toNat s)

/-- INT_TIME_EXPIRY (R40). -/
def execIntTimeExpiry (q : QRef) (now : Nat) (s : State) : Host.Outcome State Fault Refusal :=
  .next (intTimer q (atTime now s))

/-- RING_DMA_FAILURE (R44). -/
def execRingDmaFailure (q : QRef) (addr : W64) (s : State) : Host.Outcome State Fault Refusal :=
  .next (haltQueue q addr.toNat s)

/-- QUEUE_DRAINED (R43, R44). -/
def execQueueDrained (q : QRef) (s : State) : Host.Outcome State Fault Refusal :=
  .next (drainedQueue q s)

end Sys2Proof.Machine
end

