-- ==== Sys2Proof/Machine/Layouts.lean ====
section
/-!
DEFINITION. The checks that concern a packet alone (R6, R50, R51, R53, R62): the opcodes and where they are admitted, the
reserved bytes of the parameters of each opcode, and the result length it needs.
-/
namespace Sys2Proof.Machine

/-- Where an opcode is admitted (R53): `none` where no chapter defines it. -/
inductive Admit where
  | work
  | partOrPf
  | pf
deriving DecidableEq, Repr

/-- The opcode table of R53, with the media opcodes of R444. -/
def admitOf (op : Nat) : Option Admit :=
  if op ∈ [0x01, 0x02, 0x03, 0x08, 0x09, 0x0A, 0x0B, 0x10, 0x11, 0x18, 0x19, 0x1A, 0x20, 0x21, 0x22, 0x28, 0x29] then
    some .work
  else if op ∈ [0x31, 0x5F] then some .partOrPf
  else if op ∈ [0x30, 0x38, 0x39, 0x3A, 0x40, 0x41, 0x42, 0x43, 0x44, 0x50, 0x51, 0x52, 0x53, 0x54] then some .pf
  else none

/-- Whether an opcode is admitted on a queue (R53). -/
def admitted (a : Admit) (q : QRef) : Bool :=
  match a, q.scope with
  | .work, .part _ => q.q < 16
  | .partOrPf, .part _ => q.q == 16
  | .partOrPf, .pf _ => true
  | .pf, .pf _ => true
  | _, _ => false

/-- Opcodes whose packet names no index, table or model: HANDLE is 0 (R50). -/
def namesNoHandle (op : Nat) : Bool :=
  op ∈ [0x10, 0x11, 0x28, 0x30, 0x31, 0x38, 0x39, 0x3A, 0x40, 0x41, 0x42, 0x43, 0x44, 0x50, 0x51, 0x52, 0x53, 0x54, 0x5F]

/-- The bytes of the 24 parameters of an opcode that its table gives a meaning, as (offset, length); the others are reserved (R64,
R69, R131, R145, R151, R168, R176, R184, R227, R279, R282, R291, R303, R308, R317, R330, R376, R444–R446, R517–R519, R524,
R526). -/
def paramUsed (op : Nat) : List (Nat × Nat) :=
  match op with
  | 0x08 | 0x0A => [(0, 5), (8, 4)]
  | 0x09 => [(0, 2), (4, 1)]
  | 0x0B => [(0, 4)]
  | 0x10 => [(0, 10)]
  | 0x11 => [(0, 9), (12, 8)]
  | 0x18 | 0x19 => [(0, 12)]
  | 0x1A => [(0, 1), (4, 4)]
  | 0x20 => [(0, 2), (4, 16)]
  | 0x21 => [(0, 6), (8, 4)]
  | 0x22 => [(0, 1)]
  | 0x29 => [(0, 3), (4, 20)]
  | 0x31 => [(0, 8)]
  | 0x39 => [(0, 14), (16, 4)]
  | 0x3A => [(0, 8)]
  | 0x41 => [(0, 8)]
  | 0x43 => [(0, 2)]
  | 0x40 | 0x42 | 0x44 | 0x52 | 0x53 => []
  | 0x50 => [(0, 1), (4, 8)]
  | 0x51 | 0x54 => [(0, 1)]
  | 0x5F => [(0, 3), (4, 4)]
  | _ => [(0, 24)]

/-- Parameter bytes whose high bits are reserved, with the value from which one of them is set. -/
def paramFlags (op : Nat) : List (Nat × Nat) :=
  match op with
  | 0x01 | 0x02 | 0x03 => [(12, 64), (13, 2)]
  | 0x08 | 0x0A => [(4, 8)]
  | 0x09 => [(4, 2)]
  | 0x10 => [(9, 8)]
  | 0x11 => [(8, 2)]
  | 0x18 => [(3, 4)]
  | 0x19 => [(3, 8)]
  | 0x51 => [(0, 2)]
  | _ => []

/-- Whether any byte of a parameter list outside the fields `used`, given as (offset, length), is not zero (R6). -/
def reservedSet (used : List (Nat × Nat)) : Nat → List Byte → Bool
  | _, [] => false
  | i, b :: bs => (b != 0 && !used.any fun u => u.1 ≤ i && i < u.1 + u.2) || reservedSet used (i + 1) bs

/-- RS: the stride of the result records of a selection that holds `k` positions (R147). -/
def selOutStride (k : Nat) : Nat := (8 + 4 * k + 63) / 64 * 64

/-- Width of a key (R142). -/
def keyWidth (kt : Nat) : Nat := if kt = 0 ∨ kt = 3 then 4 else 2

/-- Key width with the merge layout (R146). -/
def rowWidth (merge : Bool) (kt : Nat) : Nat := if merge then 16 else keyWidth kt

/-- IS: the stride of input rows (R146). -/
def selInStride (n w : Nat) (validMap : Bool) : Nat := (n * w + (if validMap then (n + 7) / 8 else 0) + 63) / 64 * 64

/-- Whether a selection's input is not of its size, or its input or result exceeds 32 bits (R146, R147): checks made at fetch. -/
def selLengthsBad (k : Cmd) (ps : List Byte) : Bool :=
  let rows := field ps 4 2
  let top := k.opcode == 0x10
  let mode := field ps 9 1
  let w := if top then rowWidth (bit mode 1) (field ps 8 1) else keyWidth (field ps 6 1)
  let inl := rows * selInStride (field ps 0 4) w (if top then bit mode 2 else bit (field ps 8 1) 0)
  let outl := rows * selOutStride (if top then field ps 6 2 else field ps 12 4)
  0xFFFFFFFF < inl || 0xFFFFFFFF < outl || k.dataLen != inl

/-- The result length an opcode requires for its parameters, where the parameters alone decide it (R51, R127, R147, R175, R176,
R446, R524, R526). -/
def resultNeed (op : Nat) (ps : List Byte) : Nat :=
  match op with
  | 0x01 | 0x02 | 0x03 => 16 * field ps 2 2 + if bit (field ps 13 1) 0 then 64 else 0
  | 0x08 | 0x09 => 16 * field ps 0 2
  | 0x0A => 32 * field ps 0 2
  | 0x10 => field ps 4 2 * selOutStride (field ps 6 2)
  | 0x11 => field ps 4 2 * selOutStride (field ps 12 4)
  | 0x44 => 64
  | 0x53 => 11520
  | 0x54 => if field ps 0 1 = 0 then 128 else 0
  | _ => 0

/-- Whether the parameter block of a search or an embedding command is malformed (R131, R303). -/
def blockBad (k : Cmd) (ps : List Byte) : Bool := k.pptr && (ps.length != 64 || !zeroField ps 24 40)

/-- The checks of the parameters that concern the packet alone (R6, R51, R62): reserved bytes and bits, and RESULT_LEN; with them the
lengths of a selection, which R146 and R147 check at fetch. DESIGN CHOICE (log 102): of a parameter block whose chapter describes
none, the first 24 bytes are the parameters and the others are not looked at, as R145 has it. -/
def paramsBad (k : Cmd) (ps : List Byte) : Bool :=
  reservedSet (paramUsed k.opcode) 0 (ps.take 24) || (paramFlags k.opcode).any (fun f => f.2 ≤ field ps f.1 1)
    || k.resultLen < resultNeed k.opcode ps || ((k.opcode == 0x10 || k.opcode == 0x11) && selLengthsBad k ps)

/-- A pointer that is misaligned, or disagrees with its length about being zero (R51). -/
def badPtr (ptr len : Nat) : Bool := ptr % 64 != 0 || (ptr == 0) != (len == 0)

/-- The packet checks every command undergoes (R6, R50, R51): flags, HANDLE, pointers, PARAM_LEN. DESIGN CHOICE (log 29): a HANDLE
where the opcode names none is refused; an EPOCH where the command can name no composition is not looked at, since R50 gives it
no status. -/
def badPacket (p : List Byte) : Bool :=
  let op := field p 0 1
  let flags := field p 1 1
  8 ≤ flags
    || (namesNoHandle op && field p 2 2 != 0)
    || badPtr (field p 16 8) (field p 32 4)
    || badPtr (field p 24 8) (field p 36 4)
    || (bit flags 0 &&
      (field p 40 8 % 64 != 0 || field p 40 8 == 0 || field p 48 4 < 64 || 65536 < field p 48 4 ||
        field p 48 4 % 64 != 0 || !zeroField p 52 12))

end Sys2Proof.Machine
end

