-- ==== Sys2Proof/Machine/Start.lean ====
section
/-!
DEFINITION. The start of a fetched command: its turn in its queue, its parameter block and input, its checks (R51, R52,
R61, R62, R339).
-/
namespace Sys2Proof.Machine

/-- The commands of a queue fetched before a command and not yet completed. -/
def earlier (c : CmdRef) : List Cmd → List Cmd
  | [] => []
  | k :: ks => if k.ref = c then [] else k :: earlier c ks

/-- Whether a waiting command may start (R61, R62): on a work queue when every earlier one has started, and none is
there across a FENCE; on a control queue when no earlier command but an ABORT is unfinished. ABORT starts at once. -/
def mayStart (k : Cmd) (s : State) : Bool :=
  k.opcode == 0x5F ||
  let before := (earlier k.ref s.host.cmds).filter fun e => e.queue == k.queue && !e.remote
  if k.queue.q = 16 then before.all fun e => e.opcode == 0x5F || e.phase == .finishing
  else before.all fun e => e.phase != .waiting && !e.fence && !k.fence

/-- PARAM_PTR of a packet (R50). -/
def paramPtr (k : Cmd) : Nat := field k.packet 40 8

/-- The parameters of a command: the 24 bytes of its packet, or its parameter block as the DMA delivered it (R50–R52). -/
def paramBytes (k : Cmd) (d : CmdIn) : Option (List Byte) :=
  if k.pptr then
    match d.block with
    | none => none
    | some bs => if bs.length = field k.packet 48 4 then some bs else none
  else some (k.packet.drop 40)

/-- The input of a command as the DMA delivered it (R51, R52). -/
def inputBytes (k : Cmd) (d : CmdIn) : Option (List Byte) :=
  if k.dataLen = 0 then some []
  else match d.input with
    | none => none
    | some bs => if bs.length = k.dataLen then some bs else none

/-- Whether a command is held because its partition is QUIESCED: fetched, checked, not begun (R339). -/
def heldByQuiesce (k : Cmd) (s : State) : Bool :=
  match k.queue.scope with
  | .part p => k.queue.q < 16 && (getPtn p s).state == .quiesced
  | .pf _ => false

/-- What the checks of a command say: it goes on, it completes with a status and DETAIL, or it waits and is checked again. -/
inductive Verdict where
  | go
  | fail (st detail : Nat)
  | hold
deriving DecidableEq, Repr

/-- The next check of a command, once one has passed. -/
def Verdict.andThen (v : Verdict) (w : Verdict) : Verdict :=
  match v with
  | .go => w
  | v => v

/-- A command that the fabric rules turn away is counted: THROTTLED for a short member, REDIRECT for its epoch (R390). -/
def countTurned (k : Cmd) (st : Nat) (s : State) : State :=
  match k.queue.scope with
  | .pf _ => s
  | .part p =>
    if st = stThrottled then onXq p (fun c => { c with throttled := wrap64 (c.throttled + 1) }) s
    else if st = stRedirect then onXq p (fun c => { c with redirects := wrap64 (c.redirects + 1) }) s
    else s

/-- What a verdict makes of a command that is about to run: `go` is its effect. -/
def settleVerdict (k : Cmd) (v : Verdict) (go : State → State) (s : State) : State :=
  match v with
  | .fail st detail => complete k.ref st 0 detail [] (countTurned k st s)
  | .hold => s
  | .go => go s

/-- The start of the command `c` as the row of opcode `op` (R51, R52, R61, R62): the parameters read and their packet checks made
(at its fetch already where the packet carries them), the checks `early` that need no input, the input read, the checks of its
chapter in their order, and its effect begun. `isForm` says that the parameters name this row's operation. The state stays as it
is while the command may not start or is not of this row. -/
def beginWith (op : Nat) (isForm : List Byte → Bool) (early : Cmd → List Byte → State → Verdict) (c : CmdRef) (d : CmdIn)
    (check : Cmd → List Byte → List Byte → State → Verdict)
    (act : Cmd → List Byte → List Byte → State → State) (s : State) : State :=
  match findCmd c s with
  | none => s
  | some k =>
    if k.opcode ≠ op || k.phase != .waiting || !mayStart k s then s
    else match paramBytes k d with
      | none => failDma c (paramPtr k) s
      | some ps =>
        if !isForm ps then s
        else if paramsBad k ps then complete c stBadParam 0 0 [] s
        else settleVerdict k (early k ps s) (fun s =>
          match inputBytes k d with
          | none => failDma c k.dataPtr s
          | some inp =>
            settleVerdict k (check k ps inp s) (fun s =>
              if heldByQuiesce k s then s
              else act k ps inp (onCmd c (fun k => { k with phase := .running }) s)) s) s

/-- The start of a command all of whose checks may wait for its input. -/
def begin (op : Nat) (isForm : List Byte → Bool) (c : CmdRef) (d : CmdIn)
    (check : Cmd → List Byte → List Byte → State → Verdict)
    (act : Cmd → List Byte → List Byte → State → State) (s : State) : State :=
  beginWith op isForm (fun _ _ _ => .go) c d check act s

/-- The first check that fails. -/
def firstFail : List (Bool × Nat) → Verdict
  | [] => .go
  | (bad, st) :: cs => if bad then .fail st 0 else firstFail cs

/-- The partition of a command's queue; a PF control queue has none. -/
def cmdPart (k : Cmd) : Nat := scopePart k.queue.scope

/-- The port a command arrived on (R38). -/
def cmdPort (k : Cmd) (s : State) : Port := (scopePort k.queue.scope s).getD .a

end Sys2Proof.Machine
end

