-- ==== Sys2Proof/Machine/Flash.lean ====
section
/-!
DEFINITION. The NAND as the media manager uses it (R411–R427): addresses, blocks, superblocks and streams, programs and
copies, and reads through the hub and the LUN queues.
-/
namespace Sys2Proof.Machine

/-! The profile in use (R413) and the addresses it gives (R415, R419, R429). -/

/-- A field of the profile in use; zero with none installed. -/
def pfField (off len : Nat) (s : State) : Nat :=
  match s.med.profile with
  | none => 0
  | some b => field b off len

/-- N: LUNs of a channel. -/
def pfLuns (s : State) : Nat := pfField 10 1 s * pfField 11 1 s
/-- PLANES. -/
def pfPlanes (s : State) : Nat := pfField 12 1 s
/-- RETRY_LEVELS. -/
def pfRetry (s : State) : Nat := pfField 13 1 s
/-- BLOCKS. -/
def pfBlocks (s : State) : Nat := pfField 16 4 s
/-- PAGES. -/
def pfPages (s : State) : Nat := pfField 20 4 s
/-- SLC_PAGES. -/
def pfSlcPages (s : State) : Nat := pfField 24 2 s
/-- PE_CYCLES. -/
def pfCycles (s : State) : Nat := pfField 52 4 s

/-- LUNs of the module: 48 channels (R411). -/
def lunCount (s : State) : Nat := 48 * pfLuns s

/-- Blocks of the module; block `b` of LUN `u` is number u × BLOCKS + b (R415, R431). -/
def blockCount (s : State) : Nat := lunCount s * pfBlocks s

/-- The LUN of a block. -/
def blockLun (b : Nat) (s : State) : Nat := b / pfBlocks s
/-- The plane of a block (R415). -/
def blockPlane (b : Nat) (s : State) : Nat := b % pfBlocks s % pfPlanes s
/-- PPN of a page of a block (R415). -/
def ppnOf (b page : Nat) (s : State) : Nat := b * pfPages s + page
/-- The block of a PPN. -/
def ppnBlock (ppn : Nat) (s : State) : Nat := ppn / pfPages s
/-- The LUN of a PPN. -/
def ppnLun (ppn : Nat) (s : State) : Nat := blockLun (ppnBlock ppn s) s

/-- LOGICAL_PAGES, 0 until the flash is formatted. -/
def logicalPages (s : State) : Nat := (s.med.format.map (·.logicalPages)).getD 0

/-- W (R419). -/
def stripeWidth (s : State) : Nat := (s.med.format.map (·.width)).getD 0

/-- The LUN that a channel gives to the journal: slot 0, or slot 1 once the ring is rebuilt there (R429, R443). -/
def journalLun (c : Nat) (s : State) : Nat := pfLuns s * c + b2n (s.med.jslot1.contains c)

/-- Whether a LUN belongs to the journal. -/
def isJournalLun (u : Nat) (s : State) : Bool :=
  (List.range 8).any fun k => journalLun k s == u || journalLun (k + 24) s == u

/-- Whether a block is a journal block: the first JOURNAL_BLOCKS of a journal LUN (R429). -/
def isJournalBlock (b : Nat) (s : State) : Bool :=
  isJournalLun (blockLun b s) s && b % pfBlocks s < (s.med.format.map (·.journalBlocks)).getD 0

/-- A LUN. -/
def getLun (u : Nat) (s : State) : Lun := sget lunReset s.med.luns u
/-- A LUN changed by `f`. -/
def onLun (u : Nat) (f : Lun → Lun) (s : State) : State :=
  onMed (fun m => { m with luns := smod lunReset m.luns u f }) s
/-- Whether a LUN is in use. -/
def lunAlive (u : Nat) (s : State) : Bool := (getLun u s).state == .ready

/-- A block. -/
def getNand (b : Nat) (s : State) : NandBlock := sget (blockReset s.med.eraseBase) s.med.blocks b
/-- A journal entry appended (R431). -/
def journal (e : JEntry) (s : State) : State := onMed (fun m => { m with entries := m.entries ++ [e] }) s
/-- A block in a new state, journalled (R421, R431). -/
def setBlock (b : Nat) (st : BState) (erases : Nat) (s : State) : State :=
  journal (.block b st erases) (onMed (fun m => { m with
    blocks := sset (blockReset m.eraseBase) m.blocks b { state := st, erases := erases } }) s)
/-- Blocks moved to a state. -/
def setBlocks (bs : List Nat) (st : BState) (s : State) : State :=
  bs.foldl (fun s b => if (getNand b s).state == .retired then s else setBlock b st (getNand b s).erases s) s

/-- Counters of flash changed (R451). -/
def onMedCounts (f : MedCounts → MedCounts) (s : State) : State := onMed (fun m => { m with counts := f m.counts }) s
/-- A partition's flash counters changed (R451). -/
def onMedPart (p : Nat) (f : MedPart → MedPart) (s : State) : State :=
  onMed (fun m => { m with parts := smod medPartReset m.parts p f }) s

/-- The partition of the index that a tag names; none is 0xFF. -/
def tagPart (t : Tag) (s : State) : Nat := ((tget? s.srch.indexes t.handle).map (·.desc.part)).getD 0xFF

/-- A FLASH_FAIL record (R414, R441, R443). -/
def flashFail (lpn ppn lun part : Nat) (s : State) : State :=
  fileRec { mkRec 0x1A 2 4 (locFlash lpn ppn lun 0xFF) with part := part } s

/-! Capacity (R443, R446). -/

/-- Blocks that hold data: not RETIRED, of LUNs in use. -/
def goodBlocks (s : State) : Nat :=
  let bad := s.med.blocks.filter fun e => e.2.state == .retired && lunAlive (blockLun e.1 s) s
  ((List.range (lunCount s)).filter fun u => lunAlive u s).length * pfBlocks s - bad.length

/-- Whether LOGICAL_PAGES of a format fit: at most 7/8 of (W − 1) / W of the data pages of good blocks (R446). -/
def capacityOk (lp w : Nat) (s : State) : Bool := lp * 8 * w ≤ 7 * (w - 1) * goodBlocks s * pfPages s

/-- READ_ONLY once the good capacity no longer suffices (R443). -/
def checkCapacity (s : State) : State :=
  if s.med.state = .ready ∧ !capacityOk (logicalPages s) (stripeWidth s) s then onMed (fun m => { m with state := .readOnly }) s
  else s

/-! Superblocks (R419–R422). -/

/-- Stripe sets of the module: slots × 48 / W (R419). -/
def setCount (s : State) : Nat := pfLuns s * (48 / stripeWidth s)

/-- The LUNs of a stripe set, set i being slot i / (48 / W) and channel group i mod (48 / W); failed ones form no later
superblock (R419, R443). -/
def setLuns (i : Nat) (s : State) : List Nat :=
  let w := stripeWidth s
  let per := 48 / w
  ((List.range w).map fun k => pfLuns s * (i % per * w + k) + i / per).filter fun u => lunAlive u s

/-- FREE blocks of a plane of a LUN that superblocks may take (R422, R429). -/
def freeBlocks (u plane : Nat) (s : State) : List Nat :=
  ((List.range (pfBlocks s / pfPlanes s)).map fun k => u * pfBlocks s + k * pfPlanes s + plane).filter fun b =>
    (getNand b s).state == .free && !isJournalBlock b s

/-- The FREE block with the lowest erase count, the lower number on a tie (R422). -/
def bestFree (u plane : Nat) (s : State) : Option Nat :=
  (freeBlocks u plane s).foldl (fun acc b => match acc with
    | none => some b
    | some a => if (getNand b s).erases < (getNand a s).erases then some b else acc) none

/-- Superblocks that a stripe set's FREE blocks make (R437). -/
def freeSupers (i : Nat) (s : State) : Nat :=
  let counts := (setLuns i s).flatMap fun u => (List.range (pfPlanes s)).map fun q => (freeBlocks u q s).length
  match counts with
  | [] => 0
  | c :: cs => cs.foldl min c

/-- A superblock formed for a stream of a set (R419, R422): its number and the state, if every plane of every member LUN has
a FREE block. -/
def formSuper (i stream : Nat) (s : State) : Option (Nat × State) :=
  let wanted := (List.range (pfPlanes s)).flatMap fun q => (setLuns i s).map fun u => bestFree u q s
  let members := wanted.filterMap id
  if members.length ≠ wanted.length ∨ (setLuns i s).length < 2 then none
  else
    let sb := s.med.nextSb
    let x : Super := { set := i, stream := stream, members := members, next := 0 }
    let s := journal (.super sb i stream members) (onMed (fun m => { m with
      supers := tput m.supers sb x, nextSb := m.nextSb + 1 }) s)
    some (sb, setBlocks members .reserved s)

/-- Members of one plane of a superblock. -/
def superWidth (x : Super) (s : State) : Nat := x.members.length / pfPlanes s

/-- Data pages of a superblock. -/
def superPages (x : Super) (s : State) : Nat := pfPages s * pfPlanes s * (superWidth x s - 1)

/-- The block at place `k` of plane `q` of a superblock. -/
def superBlock (x : Super) (q k : Nat) (s : State) : Nat := x.members.getD (q * superWidth x s + k) 0

/-- The page that data page `i` of a superblock is: page p of plane q, the members in channel order but member p mod W
(R419). -/
def dataPage (x : Super) (i : Nat) (s : State) : Nat :=
  let m := superWidth x s
  let p := i / (pfPlanes s * (m - 1))
  let q := i / (m - 1) % pfPlanes s
  let k := i % (m - 1)
  ppnOf (superBlock x q (if k < p % m then k else k + 1) s) p s

/-- The PARITY page of stripe (p, q) (R419). -/
def parityPage (x : Super) (p q : Nat) (s : State) : Nat := ppnOf (superBlock x q (p % superWidth x s) s) p s

/-- The pages of stripe (p, q) but its PARITY page. -/
def stripeData (x : Super) (p q : Nat) (s : State) : List Nat :=
  ((List.range (superWidth x s)).filter (· != p % superWidth x s)).map fun k => ppnOf (superBlock x q k s) p s

/-- A stream of a set. -/
def getStream (i stream : Nat) (s : State) : Stream := sget streamReset s.med.streams (3 * i + stream)

/-- A stream replaced. -/
def putStream (i stream : Nat) (x : Stream) (s : State) : State :=
  onMed (fun m => { m with streams := sset streamReset m.streams (3 * i + stream) x }) s

/-- A superblock of a stream opened, the next one reserved; the opening forces a flush (R420). -/
def openNext (i stream : Nat) (s : State) : Option (Nat × State) :=
  let st := getStream i stream s
  let first := match st.reserved with
    | some sb => some (sb, s)
    | none => formSuper i stream s
  match first with
  | none => none
  | some (sb, s) =>
    let members := ((tget? s.med.supers sb).map (·.members)).getD []
    let s := setBlocks members .opened (onMed (fun m => { m with flushDue := true }) s)
    match formSuper i stream s with
    | some (r, s) => some (sb, putStream i stream { opened := some sb, reserved := some r } s)
    | none => some (sb, putStream i stream { opened := some sb, reserved := none } s)

/-- Whether a page may be programmed: its block is not RETIRED and its LUN in use (R443). -/
def pageUsable (ppn : Nat) (s : State) : Bool := (getNand (ppnBlock ppn s) s).state != .retired && lunAlive (ppnLun ppn s) s

/-- From data page `i` of a superblock on, of at most `n`, the first that may be programmed. -/
def skipPages (x : Super) (s : State) : Nat → Nat → Nat
  | 0, i => i
  | n + 1, i => if pageUsable (dataPage x i s) s then i else skipPages x s n (i + 1)

/-- The next data page that a superblock gives out; its number of pages when it is full. -/
def nextPage (x : Super) (s : State) : Nat := skipPages x s (superPages x s - x.next) x.next

/-- A full superblock closed (R421). -/
def closeFull (i stream : Nat) (s : State) : State :=
  let st := getStream i stream s
  match st.opened with
  | none => s
  | some sb =>
    match tget? s.med.supers sb with
    | none => putStream i stream { st with opened := none } s
    | some x =>
      if nextPage x s < superPages x s then s
      else putStream i stream { st with opened := none } (setBlocks x.members .closed s)

/-- The next page of a stream of a set: superblock, PPN and state (R420). -/
def takePage (i stream : Nat) (s : State) : Option (Nat × Nat × State) :=
  let s := closeFull i stream s
  let sbOpen := match (getStream i stream s).opened with
    | some sb => some (sb, s)
    | none => openNext i stream s
  match sbOpen with
  | none => none
  | some (sb, s) =>
    match tget? s.med.supers sb with
    | none => none
    | some x =>
      let i := nextPage x s
      if superPages x s ≤ i then none
      else some (sb, dataPage x i s, onMed (fun m => { m with supers := tput m.supers sb { x with next := i + 1 } }) s)

/-- The first set from `i` on, of `n`, whose stream has a page (R437). -/
def takeAnywhere (stream : Nat) : Nat → Nat → State → Option (Nat × Nat × State)
  | _, 0, _ => none
  | i, n + 1, s =>
    match takePage (i % setCount s) stream s with
    | some r => some r
    | none => takeAnywhere stream (i + 1) n s

/-- The stream of a program (R420). -/
def streamOf : ProgFor → Nat
  | .index => 0
  | .copy _ _ _ => 1
  | .parity => 2
  | .ckpt => 2

/-! Programs. -/

/-- The first operation of a LUN started, once its queue holds no read. DEDUCED (log 125) from R425, which makes a read wait for the
running operation alone: the reads of the queue go before an operation that has not started. -/
def startHead (now : Nat) (l : Lun) : Lun :=
  if !l.reads.isEmpty then l
  else match l.ops with
    | [] => l
    | o :: os => if o.started then l else { l with ops := { o with started := true, since := now } :: os }

/-- An operation issued to a LUN; it starts at once when nothing runs there. While writes are held it waits (R541). -/
def issueOp (u : Nat) (work : OpWork) (s : State) : State :=
  if s.med.held then onMed (fun m => { m with heldOps := m.heldOps ++ [(u, work)] }) s
  else
  let now := timeUs s
  let op : LunOp := { work := work, started := false, susp := 0, suspended := false, since := now, reads := 0 }
  onLun u (fun l => startHead now { l with ops := l.ops ++ [op] }) s

/-- The next WSEQ taken (R418). -/
def takeWseq (s : State) : Nat × State := (s.med.wseq, onMed (fun m => { m with wseq := wrap64 (m.wseq + 1) }) s)

/-- Where a program goes, with its tag as programmed: the next page of its stream, in the first set with room from the one in
turn on; `none` while no set has any. -/
def placeProgram (t : Tag) (why : ProgFor) (s : State) : Option (Nat × Tag × State) :=
  match takeAnywhere (streamOf why) s.med.nextSet (setCount s) s with
  | none => none
  | some (sb, ppn, s) =>
    let (w, s) := takeWseq (onMed (fun m => { m with nextSet := m.nextSet + 1 }) s)
    let t := { t with wseq := w, sb := sb }
    let s := if why = .index then onMedPart (tagPart t s) (fun c => { c with writes := wrap64 (c.writes + 1) }) s else s
    some (ppn, t, s)

/-- A program issued, or waiting for a FREE superblock (R437). -/
def program (t : Tag) (why : ProgFor) (s : State) : State :=
  match placeProgram t why s with
  | none => onMed (fun m => { m with waiting := m.waiting ++ [(t, why)] }) s
  | some (ppn, t, s) => issueOp (ppnLun ppn s) (.program ppn t why) s

/-- The programs that wait, tried again. -/
def retryWaiting (s : State) : State :=
  let l := s.med.waiting
  l.foldl (fun s e => program e.1 e.2 s) (onMed (fun m => { m with waiting := [] }) s)

/-- A checkpoint's page (R433). -/
def ckptTag : Tag := { kind := 4, handle := 0, lpn := 0xFFFFFFFF, wseq := 0, csn := 0, sb := 0 }

/-- Whether a page of a stripe needs no more programming: it is programmed, or its block is lost. -/
def pageDone (ppn : Nat) (s : State) : Bool :=
  (tget? s.med.pages ppn).isSome || (getNand (ppnBlock ppn s) s).state == .retired || !lunAlive (ppnLun ppn s) s

/-- Whether a parity page is programmed or on its way. -/
def parityIssued (ppn : Nat) (s : State) : Bool :=
  (tget? s.med.pages ppn).isSome || (getLun (ppnLun ppn s) s).ops.any fun o => match o.work with
    | .program p _ _ => p == ppn
    | _ => false

/-- The PARITY page of a stripe issued once its data pages are programmed (R419). -/
def closeStripe (sb p q : Nat) (s : State) : State :=
  match tget? s.med.supers sb with
  | none => s
  | some x =>
    let pp := parityPage x p q s
    if (stripeData x p q s).all (fun d => pageDone d s) && !pageDone pp s && !parityIssued pp s then
      let (w, s) := takeWseq s
      issueOp (ppnLun pp s) (.program pp { kind := 3, handle := 0, lpn := 0xFFFFFFFF, wseq := w, csn := 0, sb := sb } .parity) s
    else s

/-- A checkpoint's page programmed: the next one goes out, or CKPT_COMMIT with the root is appended (R433). -/
def ckptPage (ppn : Nat) (s : State) : State :=
  match s.med.running with
  | none => s
  | some k =>
    let k := { k with pages := k.pages ++ [ppn], toGo := k.toGo - 1 }
    if k.toGo = 0 then
      journal (.ckptCommit k.num ppn) (onMed (fun m => { m with running := some { k with sealed := true } }) s)
    else program ckptTag .ckpt (onMed (fun m => { m with running := some k }) s)

/-- A program completed, counted (R451). -/
def countProgram (s : State) : State := onMedCounts (fun c => { c with programs := wrap64 (c.programs + 1) }) s

/-- A page programmed: its tag, the map or the journal, and its stripe (R419, R428, R431, R438). -/
def landProgram (ppn : Nat) (t : Tag) (why : ProgFor) (s : State) : State :=
  let s := countProgram (onMed (fun m => { m with pages := tput m.pages ppn t }) s)
  let s := match why with
    | .index => journal (.map t.lpn ppn) (onMed (fun m => { m with map := tput m.map t.lpn ppn }) s)
    | .copy old gc cold => if tget? s.med.map t.lpn = some old then journal (.reloc t.lpn ppn old gc cold) s else s
    | .ckpt => ckptPage ppn s
    | .parity => s
  if why = .parity then s else closeStripe t.sb (ppn % pfPages s) (blockPlane (ppnBlock ppn s) s) s

/-- A program made whole within its step: step 1 of a publication (R162). -/
def programNow (t : Tag) (why : ProgFor) (s : State) : Option State :=
  if s.med.held then none else
  match placeProgram t why s with
  | none => none
  | some (ppn, t, s) => some (landProgram ppn t why s)

/-- A page whose data are at hand programmed through RELOC (R426). -/
def relocate (gc cold : Bool) (s : State) (ppn : Nat) : State :=
  match tget? s.med.pages ppn with
  | none => s
  | some t => program { t with kind := 2 } (.copy ppn gc cold) s

/-- Whether a read is the media manager's own of a page. -/
def copiesPage (ppn : Nat) (r : FRead) : Bool :=
  r.ppn == ppn && match r.who with
    | .copy _ _ => true
    | .crate _ _ | .rerank _ _ => false

/-- Whether a copy of a page is under way: its read or its program. -/
def copyUnderWay (ppn : Nat) (s : State) : Bool :=
  s.med.hub.any (fun e => e.2.any (copiesPage ppn)) || s.med.luns.any (fun e => e.2.reads.any (copiesPage ppn))
    || s.med.waiting.any (fun e => match e.2 with
      | .copy old _ _ => old == ppn
      | .index | .parity | .ckpt => false)
    || s.med.luns.any fun e => e.2.ops.any fun o => match o.work with
      | .program _ _ (.copy old _ _) => old == ppn
      | _ => false

/-- A read put into a hub queue (R424). -/
def hubPut (r : FRead) (s : State) : State :=
  onMed (fun m => { m with hub := sset (fun _ => []) m.hub r.part (sget (fun _ => []) m.hub r.part ++ [r]) }) s

/-- The copy of a page through RELOC begun with the media manager's own read of it (R424, R437, R438). -/
def copyPage (gc cold : Bool) (s : State) (ppn : Nat) : State :=
  match tget? s.med.pages ppn with
  | none => s
  | some t =>
    if copyUnderWay ppn s then s
    else hubPut { lpn := t.lpn, ppn := ppn, part := 64, who := .copy gc cold, queued := timeUs s, asked := false, begun := false,
                  dropped := false } s

/-- Whether a page holds what the map, the journalled map or a checkpoint names. -/
def pageValid (ppn : Nat) (t : Tag) (s : State) : Bool :=
  match t.kind with
  | 1 | 2 => tget? s.med.map t.lpn == some ppn || tget? s.med.durMap t.lpn == some ppn
  | 4 => s.med.ckptPages.contains ppn || s.med.running.any fun k => k.pages.contains ppn
  | _ => false

/-- The valid pages that satisfy `sel`. -/
def validPages (sel : Nat → Tag → Bool) (s : State) : List Nat :=
  (s.med.pages.filter fun e => sel e.1 e.2 && pageValid e.1 e.2 s).map (·.1)

/-- Valid pages of a superblock. -/
def superValid (sb : Nat) (s : State) : List Nat := validPages (fun _ t => t.sb == sb) s

/-- Whether a superblock is in use by a stream. -/
def inStream (sb : Nat) (s : State) : Bool := s.med.streams.any fun e => e.2.opened == some sb || e.2.reserved == some sb

/-- Whether an operation of a superblock's pages is still to come. -/
def superBusy (sb : Nat) (s : State) : Bool :=
  s.med.luns.any fun e => e.2.ops.any fun o => match o.work with
    | .program _ t _ => t.sb == sb
    | _ => false

/-- A CLOSED superblock with no valid page: its blocks are DIRTY and are erased (R421, R438 step 4). -/
def freeSuper (sb : Nat) (x : Super) (s : State) : State :=
  let live := x.members.filter fun b => (getNand b s).state != .retired && lunAlive (blockLun b s) s
  let s := setBlocks x.members .dirty s
  let s := onMed (fun m => { m with supers := tdel m.supers sb, victims := m.victims.filter (· != sb) }) s
  live.foldl (fun s b => issueOp (blockLun b s) (.erase b) s) s

/-- Every superblock that the committed entries have emptied is freed; a FAILED LUN with no valid page left is REBUILT (R443,
R450). -/
def sweepEmpty (s : State) : State :=
  let s := s.med.supers.foldl (fun s e =>
    if inStream e.1 s || superBusy e.1 s || !(superValid e.1 s).isEmpty then s else freeSuper e.1 e.2 s) s
  let gone := (s.med.luns.filter fun e => e.2.state == .failed &&
    (validPages (fun ppn _ => ppnLun ppn s == e.1) s).isEmpty).map (·.1)
  gone.foldl (fun s u => onLun u (fun l => { l with state := .rebuilt }) s) s

/-- A block RETIRED after a failure, its valid pages relocated (R443). -/
def retireBlock (b : Nat) (s : State) : State :=
  let s := setBlock b .retired (getNand b s).erases s
  let s := (validPages (fun ppn _ => ppnBlock ppn s == b) s).foldl (copyPage false false) s
  checkCapacity s

/-! Reads (R122, R424–R427). -/

/-- A read asked of the media manager: it waits in the hub, or, of an unmapped page, is answered at once with zeros (R428). -/
def submitRead (part : Nat) (who : ReadFor) (lpn : Nat) (s : State) : State :=
  match tget? s.med.map lpn with
  | none => onMed (fun m => { m with arrived := m.arrived ++ [{ who := who, bad := none }] }) s
  | some ppn =>
    hubPut { lpn := lpn, ppn := ppn, part := part, who := who, queued := timeUs s, asked := false, begun := false,
             dropped := false } s

/-- Whether a read is one of a command's rerank for a page, and not yet begun. -/
def sharesPage (c : CmdRef) (lpn : Nat) (r : FRead) : Bool :=
  r.lpn == lpn && !r.begun && !r.dropped && match r.who with
    | .rerank d _ => d == c
    | .crate _ _ | .copy _ _ => false

/-- A rerank entry joined to a read of its page. -/
def joinRead (i : Nat) (r : FRead) : FRead :=
  match r.who with
  | .rerank c es => { r with who := .rerank c (es ++ [i]) }
  | .crate _ _ | .copy _ _ => r

/-- A rerank entry's read: slots of one query that share a page share one array read (R122). -/
def submitRerank (part : Nat) (c : CmdRef) (i lpn : Nat) (s : State) : State :=
  let inHub := s.med.hub.any fun e => e.2.any (sharesPage c lpn)
  let inLun := s.med.luns.any fun e => e.2.reads.any (sharesPage c lpn)
  if inHub then
    onMed (fun m => { m with hub := m.hub.map fun e => (e.1, updWhere (sharesPage c lpn) (joinRead i) e.2) }) s
  else if inLun then
    onMed (fun m => { m with luns := m.luns.map fun e =>
      (e.1, { e.2 with reads := updWhere (sharesPage c lpn) (joinRead i) e.2.reads }) }) s
  else submitRead part (.rerank c [i]) lpn s

/-- Whether a read serves a command alone. -/
def readOf (c : CmdRef) (r : ReadFor) : Bool :=
  match r with
  | .rerank d _ => d == c
  | .crate _ _ | .copy _ _ => false

/-- The reads of a command withdrawn: one whose suspension was requested, or whose array read has begun, runs on and its data is
discarded (R427). -/
def withdrawReads (c : CmdRef) (s : State) : State :=
  let now := timeUs s
  let keep : FRead → Bool := fun r => !readOf c r.who || r.begun || r.asked
  let drop : FRead → FRead := fun r => { r with dropped := true }
  onMed (fun m => { m with
    hub := (m.hub.map fun e => (e.1, e.2.filter keep)).filter fun e => !e.2.isEmpty
    luns := m.luns.map fun e =>
      (e.1, startHead now { e.2 with reads := updWhere (fun r => readOf c r.who) drop (e.2.reads.filter keep) })
    arrived := m.arrived.filter fun a => !readOf c a.who }) s

/-- The first read for somebody that has ended, taken. -/
def takeArrived (sel : ReadFor → Bool) (s : State) : Option (Arrived × State) :=
  match s.med.arrived.find? fun a => sel a.who with
  | none => none
  | some a => some (a, onMed (fun m => { m with arrived := m.arrived.erase a }) s)

/-- A rerank entry whose read has ended, taken. -/
def takeEntry (c : CmdRef) (i : Nat) (s : State) : Option (Arrived × State) :=
  let hit : Arrived → Bool := fun a => match a.who with
    | .rerank d es => d == c && es.contains i
    | .crate _ _ | .copy _ _ => false
  let less : Arrived → Arrived := fun a => match a.who with
    | .rerank d es => { a with who := .rerank d (es.erase i) }
    | .crate _ _ | .copy _ _ => a
  match s.med.arrived.find? hit with
  | none => none
  | some a => some (a, onMed (fun m => { m with
      arrived := (updWhere hit less m.arrived).filter fun b => b.who != .rerank c [] }) s)

/-- PPN and LUN of the copy that the map names of a logical page, as LOCATION gives them (R480). -/
def copyOf (lpn : Nat) (s : State) : Nat × Nat :=
  match tget? s.med.map lpn with
  | some ppn => (ppn, ppnLun ppn s)
  | none => (0xFFFFFFFF, 0xFFFF)

/-- Weight of a hub queue: FLASH_WEIGHT of its partition, 64 for the media manager (R424). -/
def readWeight (p : Nat) (s : State) : Nat := if p = 64 then 64 else max 1 (getPtn p s).shares.flashWeight

/-- The first read of a hub queue for a LUN. -/
def hubRead (u p : Nat) (s : State) : Option FRead :=
  (sget (fun _ => []) s.med.hub p).find? fun r => ppnLun r.ppn s == u

/-- The hub queue that the round robin of a LUN serves next, with what is left of its turn (R424). -/
def nextTurn (u : Nat) (s : State) : Option (Nat × Nat) :=
  let l := getLun u s
  if 0 < l.left ∧ (hubRead u l.turn s).isSome then some (l.turn, l.left)
  else (((List.range 65).map fun k => (l.turn + 1 + k) % 65).find? fun p => (hubRead u p s).isSome).map fun p =>
    (p, readWeight p s)

/-- Whether the running operation of a LUN may be suspended for a read (R424). -/
def maySuspend (l : Lun) (s : State) : Bool :=
  match l.ops with
  | [] => false
  | o :: _ => o.started && !o.suspended && o.susp < s.med.suspLimit && o.since + 100 ≤ timeUs s

/-- The running program or erase of a LUN suspended (R424). -/
def suspendHead (l : Lun) : Lun :=
  match l.ops with
  | [] => l
  | o :: os => { l with ops := { o with suspended := true, susp := o.susp + 1, reads := 0 } :: os }

/-- Whether the array of a LUN can read: nothing runs there, or the operation is suspended. -/
def arrayFree (l : Lun) : Bool :=
  match l.ops with
  | [] => true
  | o :: _ => !o.started || o.suspended

/-- Reads that one array read takes: in order of arrival, up to PLANES on distinct planes (R424). -/
def arraySet (planes : Nat) (plane : FRead → Nat) : List FRead → List Nat → List FRead
  | [], _ => []
  | r :: rs, used =>
    if used.length < planes ∧ !used.contains (plane r) then { r with begun := true } :: arraySet planes plane rs (plane r :: used)
    else r :: arraySet planes plane rs used

/-- An array read begun (R424): not after eight since the suspension. -/
def beginArray (u : Nat) (s : State) : State :=
  let l := getLun u s
  let spent := match l.ops with
    | [] => false
    | o :: _ => 8 ≤ o.reads
  if !arrayFree l || l.reads.any (·.begun) || spent then s
  else
    let reads := arraySet (pfPlanes s) (fun r => blockPlane (ppnBlock r.ppn s) s) l.reads []
    let ops := match l.ops with
      | [] => []
      | o :: os => if reads.any (·.begun) && o.started then { o with reads := o.reads + 1 } :: os else o :: os
    onLun u (fun l => { l with reads := reads, ops := ops }) s

/-- A read moves from the hub to a LUN queue (R424). -/
def enqueueRead (u : Nat) (s : State) : State :=
  if 32 ≤ (getLun u s).reads.length then s
  else match nextTurn u s with
    | none => s
    | some (p, left) =>
      match hubRead u p s with
      | none => s
      | some r =>
        let s := onMed (fun m => { m with hub := sset (fun _ => []) m.hub p ((sget (fun _ => []) m.hub p).erase r) }) s
        let stop := maySuspend (getLun u s) s
        let s := if stop then onMedCounts (fun c => { c with suspends := wrap64 (c.suspends + 1) }) s else s
        beginArray u (onLun u (fun l =>
          let l := if stop then suspendHead l else l
          { l with reads := l.reads ++ [{ r with asked := stop }], turn := p, left := left - 1 }) s)

/-- Whether the stripe of a page is closed and has lost no other member (R426, R443). -/
def stripeWhole (ppn : Nat) (s : State) : Bool :=
  match (tget? s.med.pages ppn).bind fun t => tget? s.med.supers t.sb with
  | none => false
  | some x =>
    let p := ppn % pfPages s
    let q := blockPlane (ppnBlock ppn s) s
    let parity := parityPage x p q s
    (tget? s.med.pages parity).isSome
      && (parity :: stripeData x p q s).all fun d => d == ppn || lunAlive (ppnLun d s) s

/-- How a read ended, with the work that its recovery brings (R426): a page recovered beyond retry level 4, or rebuilt, is
rewritten through RELOC, which a copy does of itself. An erased page is uncorrectable (R416). -/
def readResult (r : FRead) (u : Nat) (f : FlashRead) (s : State) : Bool × State :=
  let decoded := match f.level with
    | some l => lunAlive u s && l ≤ pfRetry s && (tget? s.med.pages r.ppn).isSome
    | none => false
  let level := f.level.getD 0
  let again : Bool := match r.who with
    | .copy _ _ => false
    | .crate _ _ | .rerank _ _ => true
  if decoded then
    let s := if level = 0 then s else onMedCounts (fun c => { c with retries := wrap64 (c.retries + 1) }) s
    (true, if 4 < level ∧ again then relocate false false s r.ppn else s)
  else if f.rebuildOk && stripeWhole r.ppn s then
    let s := onMedCounts (fun c => { c with rebuilt := wrap64 (c.rebuilt + 1) }) s
    (true, if again then relocate false false s r.ppn else s)
  else (false, s)

/-- The FLASH_UE record of an uncorrectable read (R426, R480, R488). -/
def readRec (r : FRead) (u : Nat) (f : FlashRead) (s : State) : Rec :=
  let part := if r.part < 64 then r.part else 0xFF
  let e := { mkRec 0x19 2 4 (locFlash r.lpn r.ppn u (f.codeword % 4)) with part := part }
  match r.who with
  | .crate _ _ | .copy _ _ => e
  | .rerank c _ => match findCmd c s with
    | some k => if k.remote then e else cmdRec k e
    | none => e

/-- What a read that ended brings: a page of a copy is programmed if it is valid still; other data go to their taker (R426, R438). -/
def deliverRead (r : FRead) (bad : Option (Nat × Bool)) (s : State) : State :=
  match r.who with
  | .copy gc cold =>
    if bad.isNone && (tget? s.med.pages r.ppn).any fun t => pageValid r.ppn t s then relocate gc cold s r.ppn else s
  | .crate _ _ | .rerank _ _ =>
    if r.dropped then s else onMed (fun m => { m with arrived := m.arrived ++ [{ who := r.who, bad := bad }] }) s

/-- A read of a LUN ends (R424–R427, R451); the LUN goes on with its reads, then with its operations. -/
def endRead (u : Nat) (f : FlashRead) (s : State) : State :=
  let s := beginArray u s
  match (getLun u s).reads.find? (·.begun) with
  | none => s
  | some r =>
    let now := timeUs s
    let s := onLun u (fun l => startHead now { l with reads := l.reads.erase r }) s
    let (good, s) := readResult r u f s
    let s := if r.part < 64 then onMedPart r.part (fun c => { c with
      reads := wrap64 (c.reads + 1), readUs := wrap64 (c.readUs + (now - r.queued))
      uncorr := if good then c.uncorr else wrap64 (c.uncorr + 1) }) s else s
    let (bad, s) := if good then (none, s) else
      let (s, seq, lost) := fileErr (readRec r u f s) none false s
      (some (seq, lost), s)
    beginArray u (deliverRead r bad s)

/-- A suspended operation resumes once the LUN queue is empty or eight array reads have run (R424). -/
def resumeOp (u : Nat) (s : State) : State :=
  let l := getLun u s
  match l.ops with
  | [] => s
  | o :: os =>
    if o.suspended && (l.reads.isEmpty || (8 ≤ o.reads && !l.reads.any (·.begun))) then
      let now := timeUs s
      onLun u (fun l => { l with ops := { o with suspended := false, since := now, reads := 0 } :: os }) s
    else s

/-- FLASH_READ_ENQUEUE (R424). -/
def execFlashReadEnqueue (lun : Nat) (now : Nat) (s : State) : Host.Outcome State Fault Refusal :=
  .next (enqueueRead lun (atTime now s))

/-- FLASH_READ_COMPLETE (R426). -/
def execFlashReadComplete (lun : Nat) (r : FlashRead) (now : Nat) (s : State) : Host.Outcome State Fault Refusal :=
  .next (endRead lun r (atTime now s))

/-- OPERATION_RESUME (R424). -/
def execOperationResume (lun : Nat) (now : Nat) (s : State) : Host.Outcome State Fault Refusal :=
  .next (resumeOp lun (atTime now s))

end Sys2Proof.Machine
end

