-- ==== Sys2Proof/Machine/Journal.lean ====
section
/-!
DEFINITION. The journal, its segments and the groups they make durable, checkpoints, and what the end of a program or an erase
brings (R178, R179, R429–R433, R437, R438, R443).
-/
namespace Sys2Proof.Machine

/-! Entries and segments (R430–R432). -/

/-- Bytes of an entry (R431). -/
def entryLen : JEntry → Nat
  | .super _ _ _ members => (12 + 4 * members.length + 15) / 16 * 16
  | .group _ _ bytes => bytes
  | .trim _ _ _ | .map _ _ | .reloc _ _ _ _ _ | .block _ _ _ | .ckptBegin _ | .ckptCommit _ _ => 16

/-- Bytes of a body. -/
def bodyLen (es : List JEntry) : Nat := (es.map entryLen).foldl (· + ·) 0

/-- The entries that one segment takes: as many as 512 KiB hold (R430). -/
def takeBody : Nat → List JEntry → List JEntry
  | _, [] => []
  | room, e :: es => if entryLen e ≤ room then e :: takeBody (room - entryLen e) es else []

/-- SCAN_FROM of an open superblock: its lowest page with a program still under way, else the page it has come to (R430). -/
def scanFrom (sb : Nat) (s : State) : Nat :=
  match tget? s.med.supers sb with
  | none => 0
  | some x =>
    let here := x.next / (pfPlanes s * (superWidth x s - 1))
    let busy := s.med.luns.flatMap fun e => e.2.ops.filterMap fun o => match o.work with
      | .program ppn t _ => if t.sb = sb then some (ppn % pfPages s) else none
      | _ => none
    busy.foldl min here

/-- The stream entries of a header (R430). -/
def streamEntries (s : State) : List StreamEntry :=
  s.med.streams.map fun e =>
    { set := e.1 / 3, stream := e.1 % 3, opened := e.2.opened
      scanFrom := match e.2.opened with
        | some sb => scanFrom sb s
        | none => 0
      reserved := e.2.reserved }

/-- Pages of a segment: headers, body and commit page (R430). -/
def segPages (streams body : Nat) : Nat := (64 + 16 * streams + 16383) / 16384 + (body + 16383) / 16384 + 1

/-- A segment of some entries. -/
def makeSegment (isMeta : Bool) (body : Nat) (es : List JEntry) (s : State) : Segment :=
  let streams := streamEntries s
  { seq := s.med.nextSeg, wseqFlush := s.med.wseq, isMeta := isMeta, entries := es, streams := streams
    pages := segPages streams.length body }

/-- Journal pages of the ring: eight pairs, less the two anchor block pairs (R429). -/
def ringPages (s : State) : Nat := (8 * (s.med.format.map (·.journalBlocks)).getD 0 - 2) * pfSlcPages s

/-- Whether the ring has room for more pages before the segments that the newest committed checkpoint needs (R432). -/
def ringFits (pages : Nat) (s : State) : Bool :=
  (s.med.segs.map (·.pages)).foldl (· + ·) 0 + pages ≤ ringPages s

/-- The LUNs of a journal pair that are in use (R429, R443). -/
def pairLuns (k : Nat) (s : State) : List Nat :=
  [journalLun (k % 8) s, journalLun (k % 8 + 24) s].filter fun u => lunAlive u s

/-- The LUNs of the anchor pair that checkpoint `n` uses: the first two block pairs of the ring, in turn (R429). -/
def anchorLuns (n : Nat) (s : State) : List Nat := pairLuns (n % 2) s

/-- The next page of the segment being written goes to both LUNs of its pair (R429, R430). -/
def issueSegPage (s : State) : State :=
  match s.med.writing with
  | none => s
  | some w =>
    let luns := pairLuns s.med.ringPos s
    let s := onMed (fun m => { m with writing := some { w with left := luns }, ringPos := m.ringPos + 1 }) s
    luns.foldl (fun s u => issueOp u .segPage s) s

/-- Whether a flush is due (R432). -/
def flushNow (s : State) : Bool :=
  s.med.lastFlush + 32000 ≤ timeUs s || 8192 ≤ s.med.entries.length || 524288 < bodyLen s.med.entries || s.med.flushDue
    || s.med.entries.any fun e => match e with
      | .ckptCommit _ _ => true
      | _ => false

/-- Pages a checkpoint writes: map, block table, superblock table, a metadata record per index, root (R433). -/
def ckptSize (s : State) : Nat :=
  let pages : Nat → Nat := fun b => (b + 16383) / 16384
  let supers := (s.med.supers.map fun e => entryLen (.super e.1 0 0 e.2.members)).foldl (· + ·) 0
  let metas := s.grp.kept.map fun e =>
    let d := e.2.desc
    pages (128 + 32 * d.filterCount + (if d.code4 then 16 else 256) * d.dim * 2)
  pages (4 * logicalPages s) + pages (8 * blockCount s) + pages supers + metas.foldl (· + ·) 0 + 1

/-- A checkpoint begun (R433); the ring of a pair that lost a LUN moves to slot 1 (R443). -/
def startCkpt (s : State) : State :=
  match s.med.running with
  | some _ => s
  | none =>
    let lost := ((List.range 8) ++ (List.range 8).map (· + 24)).filter fun c =>
      !lunAlive (journalLun c s) s && 2 ≤ pfLuns s && !s.med.jslot1.contains c && lunAlive (pfLuns s * c + 1) s
    let now := timeUs s
    let s := onMed (fun m => { m with jslot1 := m.jslot1 ++ lost, lastCkpt := now }) s
    let n := s.med.ckpt + 1
    let k : Ckpt := { num := n, start := now, toGo := ckptSize s, pages := [], beginSeg := s.med.nextSeg, sealed := false }
    program ckptTag .ckpt (onMed (fun m => { m with running := some k }) (journal (.ckptBegin n) s))

/-- A flush of the DRAM journal begun (R432): it waits, counted once, and a checkpoint starts, while the ring has no room. -/
def startFlush (s : State) : State :=
  let es := takeBody 524288 s.med.entries
  let seg := makeSegment false (bodyLen es) es s
  if ringFits seg.pages s then
    let now := timeUs s
    let w : SegWrite := { seg := seg, page := 0, left := [], committed := false }
    issueSegPage (onMed (fun m => { m with
      entries := m.entries.drop es.length, flushDue := false, flushWaits := false, lastFlush := now, nextSeg := m.nextSeg + 1
      writing := some w }) s)
  else
    let s := if s.med.flushWaits then s else onMedCounts (fun c => { c with journalWait := wrap64 (c.journalWait + 1) }) s
    startCkpt (onMed (fun m => { m with flushWaits := true }) s)

/-- Whether the media manager has a map (R449). -/
def mediaUp (s : State) : Bool := s.med.state == .ready || s.med.state == .readOnly

/-- JOURNAL_FLUSH: one segment at a time (R432). -/
def tryFlush (s : State) : State := if mediaUp s && s.med.writing.isNone && flushNow s then startFlush s else s

/-- A metadata segment written at once, in the next place of segment order (R430, R432). -/
def writeMeta (bytes : Nat) (s : State) : State :=
  let seg := makeSegment true bytes [] s
  onMedCounts (fun c => { c with segments := wrap64 (c.segments + 1) }) (onMed (fun m => { m with
    nextSeg := m.nextSeg + 1, segs := m.segs ++ [seg] }) s)

/-! Durable groups (R178, R179). -/

/-- Whether a program of a group's own crates is still to come. -/
def groupPending (h csn : Nat) (s : State) : Bool :=
  s.med.waiting.any (fun e => e.1.handle == h && e.1.csn == csn && e.2 == .index) ||
  s.med.luns.any fun e => e.2.ops.any fun o => match o.work with
    | .program _ t why => t.handle == h && t.csn == csn && why == .index
    | _ => false

/-- The GROUP entry of each published group appended once its pages are written, in order for each index (R178, R179). -/
def queueGroups (s : State) : State :=
  s.grp.published.foldl (fun s p =>
    let first := s.grp.published.find? fun x => x.handle == p.handle && !x.queued
    if p.queued || first.any (fun x => x.index.csn != p.index.csn) || groupPending p.handle p.index.csn s then s
    else
      let mark : Published → Published := fun x => { x with queued := true }
      journal (.group p.handle p.index.csn p.bytes) (onMut (fun m => { m with
        published := updWhere (fun x => x.handle == p.handle && x.index.csn == p.index.csn) mark m.published }) s)) s

/-- A group durable: what flash holds of its index, and its completion if one waits (R178, R179). -/
def makeDurable (h csn : Nat) (s : State) : State :=
  match s.grp.published.find? fun x => x.handle == h && x.index.csn == csn && x.queued with
  | none => s
  | some p =>
    let s := onMut (fun m => { m with
      published := m.published.erase p
      kept := tmod (fun old => { p.index with filters := old.filters, failed := old.failed }) m.kept h }) s
    match p.waiter with
    | none => s
    | some w => finish w.ref w.resultOk stOk w.count w.detail w.result s

/-! Commit (R430, R431, R433). -/

/-- A committed entry takes effect (R431, R438). -/
def applyEntry (s : State) (e : JEntry) : State :=
  match e with
  | .map lpn ppn => onMed (fun m => { m with durMap := tput m.durMap lpn ppn }) s
  | .trim first count w =>
    onMed (fun m => { m with
      durMap := m.durMap.filter fun e => !(first ≤ e.1 && e.1 < first + count), trims := m.trims ++ [(first, count, w)] }) s
  | .reloc lpn new old gc cold =>
    let s := onMed (fun m => { m with
      map := if tget? m.map lpn = some old then tput m.map lpn new else m.map
      durMap := if tget? m.durMap lpn = some old then tput m.durMap lpn new else m.durMap }) s
    onMedCounts (fun c => { c with
      gcPages := if gc then wrap64 (c.gcPages + 1) else c.gcPages
      wlPages := if cold then wrap64 (c.wlPages + 1) else c.wlPages }) s
  | .group h csn _ => makeDurable h csn s
  | .ckptCommit n _ =>
    if s.med.running.any (·.num == n) then (anchorLuns n s).foldl (fun s u => issueOp u (.anchor n) s) s else s
  | .block _ _ _ | .super _ _ _ _ | .ckptBegin _ => s

/-- A segment committed (R430). -/
def commitSegment (seg : Segment) (s : State) : State :=
  let s := onMedCounts (fun c => { c with segments := wrap64 (c.segments + 1) })
    (onMed (fun m => { m with segs := m.segs ++ [seg] }) s)
  sweepEmpty (seg.entries.foldl applyEntry s)

/-- A page of the segment programmed on a LUN, or that LUN lost: the commit page commits the segment on its first mirror; the
next page begins when both mirrors have this one (R430, R432). -/
def segPageDone (u : Nat) (programmed : Bool) (s : State) : State :=
  match s.med.writing with
  | none => s
  | some w =>
    let w := { w with left := w.left.erase u }
    let last := w.page + 1 = w.seg.pages
    let now := last && programmed && !w.committed
    let w := { w with committed := w.committed || now }
    let s := onMed (fun m => { m with writing := some w }) s
    let s := if now then commitSegment w.seg s else s
    if !w.left.isEmpty then s
    else if last then onMed (fun m => { m with writing := none }) s
    else issueSegPage (onMed (fun m => { m with writing := some { w with page := w.page + 1 } }) s)

/-- The anchor of a checkpoint programmed: it counts, what came before it is freed, and MED_CHECKPOINT completes (R433,
R447). -/
def anchorDone (n : Nat) (s : State) : State :=
  match s.med.running with
  | none => s
  | some k =>
    if k.num ≠ n then s
    else
      let waiters := s.med.ckptWaiters
      let s := onMed (fun m => { m with
        ckpt := n, ckptPages := k.pages, running := none, ckptWaiters := []
        segs := m.segs.filter fun x => k.beginSeg ≤ x.seq }) s
      sweepEmpty (waiters.foldl (fun s c => complete c stOk 0 n [] s) s)

/-- A checkpoint not committed 30 s after its start is abandoned: its pages are garbage (R433). -/
def abandonCkpt (s : State) : State :=
  match s.med.running with
  | none => s
  | some k =>
    if k.start + 30000000 ≤ timeUs s then
      sweepEmpty (onMed (fun m => { m with running := none, entries := m.entries.filter fun e => match e with
        | .ckptCommit n _ => n != k.num
        | _ => true }) s)
    else s

/-! The end of an operation (R421, R443). -/

/-- The first operation of a LUN taken off; the reads of its queue go on, then the next operation (R424). -/
def dropOp (u : Nat) (s : State) : State :=
  let now := timeUs s
  beginArray u (onLun u (fun l => startHead now { l with ops := l.ops.drop 1 }) s)

/-- A program failed: its data goes to the next page of its stream, and its block is retired (R443). -/
def programFailed (u ppn : Nat) (t : Tag) (why : ProgFor) (s : State) : State :=
  let s := flashFail t.lpn ppn u (tagPart t s) s
  let s := retireBlock (ppnBlock ppn s) s
  if why = .parity then s else program t why s

/-- An erase ended (R421, R443): FREE with its count one higher, or RETIRED. -/
def eraseDone (u b : Nat) (ok : Bool) (s : State) : State :=
  if ok then
    let n := (getNand b s).erases + 1
    let s := onMed (fun m => { m with pages := m.pages.filter fun e => ppnBlock e.1 s != b }) s
    let s := setBlock b .free n (onMedCounts (fun c => { c with erases := wrap64 (c.erases + 1) }) s)
    let s := if n = pfCycles s then fileRec (mkRec 0x1B 0 4 (locFlash 0xFFFFFFFF (ppnOf b 0 s) u 0xFF)) s else s
    retryWaiting s
  else retireBlock b (flashFail 0xFFFFFFFF (ppnOf b 0 s) u 0xFF s)

/-- What the end of an operation brings. -/
def opEffect (u : Nat) (w : OpWork) (ok : Bool) (s : State) : State :=
  match w with
  | .program ppn t why =>
    if ok then queueGroups (landProgram ppn t why s) else programFailed u ppn t why s
  | .segPage => if ok then segPageDone u true (countProgram s) else issueOp u .segPage s
  | .anchor n => if ok then anchorDone n (countProgram s) else issueOp u (.anchor n) s
  | .erase b => eraseDone u b ok s

/-- A program or an erase of a LUN ends; `isErase` says which the event is. A suspended one does not end. -/
def endOp (isErase : Bool) (u : Nat) (ok : Bool) (s : State) : State :=
  match (getLun u s).ops with
  | [] => s
  | o :: _ =>
    let erases := match o.work with
      | .erase _ => true
      | _ => false
    if !o.started || o.suspended || erases != isErase then s else opEffect u o.work ok (dropOp u s)

/-! Failed LUNs (R443). -/

/-- Valid pages of a LUN that a rebuild can bring back. -/
def rebuildPages (u : Nat) (s : State) : List Nat :=
  (validPages (fun ppn _ => ppnLun ppn s == u) s).filter fun ppn => stripeWhole ppn s

/-- An operation of a LUN that failed, taken up elsewhere (R443). -/
def orphanOp (u : Nat) (s : State) (o : LunOp) : State :=
  match o.work with
  | .program _ t why => if why = .parity then s else program t why s
  | .segPage => segPageDone u false s
  | .anchor n => if (anchorLuns n s).isEmpty then anchorDone n s else s
  | .erase _ => s

/-- A LUN marked FAILED: its operations move, and every valid page of it is rebuilt through RELOC (R443). -/
def failLun (u : Nat) (s : State) : State :=
  if lunCount s ≤ u || !lunAlive u s then s
  else
    let ops := (getLun u s).ops
    let s := onLun u (fun l => { l with state := .failed, ops := [] }) s
    let s := flashFail 0xFFFFFFFF 0xFFFFFFFF u 0xFF s
    let s := ops.foldl (orphanOp u) s
    checkCapacity ((rebuildPages u s).foldl (copyPage false false) s)

/-! Garbage collection and cold relocation (R423, R437, R438). -/

/-- The CLOSED superblocks: full, of no stream, none of them being emptied. -/
def closedSupers (s : State) : List (Nat × Super) :=
  s.med.supers.filter fun e => !inStream e.1 s && !s.med.victims.contains e.1

/-- A superblock emptied by garbage collection: its valid pages copied through RELOC (R437, R438). -/
def emptySuper (sb : Nat) (s : State) : State :=
  let s := onMed (fun m => { m with victims := m.victims ++ [sb] }) s
  sweepEmpty ((superValid sb s).foldl (copyPage true false) s)

/-- The first of the pairs with the smallest number. -/
def leastBy : List (Nat × Nat) → Option Nat
  | [] => none
  | x :: xs => some (xs.foldl (fun a b => if b.2 < a.2 then b else a) x).1

/-- Garbage collection in a stripe set: below GC_LOW, and on until GC_HIGH, the CLOSED superblock of any set with the fewest
valid pages is emptied (R437). -/
def collect (i : Nat) (s : State) : State :=
  let free := freeSupers i s
  if !mediaUp s || setCount s ≤ i then s
  else if s.med.gcHigh ≤ free then onMed (fun m => { m with collecting := m.collecting.filter (· != i) }) s
  else if free < s.med.gcLow || s.med.collecting.contains i then
    let s := onMed (fun m => { m with collecting := if m.collecting.contains i then m.collecting else i :: m.collecting }) s
    match leastBy ((closedSupers s).map fun e => (e.1, (superValid e.1 s).length)) with
    | some sb => emptySuper sb s
    | none => s
  else s

/-- Erase counts of the blocks that are not RETIRED. -/
def eraseCounts (s : State) : List Nat :=
  let listed := (s.med.blocks.filter fun e => e.2.state != .retired).map (·.2.erases)
  if s.med.blocks.length < blockCount s then s.med.eraseBase :: listed else listed

/-- Lowest erase count (R423, R447). -/
def eraseMin (s : State) : Nat :=
  match eraseCounts s with
  | [] => 0
  | c :: cs => cs.foldl min c

/-- Highest erase count (R423, R447). -/
def eraseMax (s : State) : Nat := (eraseCounts s).foldl max 0

/-- Mean erase count of a superblock's blocks, in thousandths. -/
def superWear (x : Super) (s : State) : Nat :=
  (x.members.map fun b => (getNand b s).erases).foldl (· + ·) 0 * 1000 / x.members.length

/-- The superblock that cold relocation empties next (R423): the CLOSED one with the lowest mean erase count, while the spread
exceeds 2,000 and a CLOSED superblock holds a block at the lowest count. -/
def pickCold (s : State) : State :=
  let low := eraseMin s
  let cands := closedSupers s
  let holds := cands.any fun e => e.2.members.any fun b => (getNand b s).erases == low && (getNand b s).state != .retired
  if low + 2000 < eraseMax s && holds then
    match leastBy (cands.map fun e => (e.1, superWear e.2 s)) with
    | some sb =>
      let pages := superValid sb s
      sweepEmpty (onMed (fun m => { m with wlActive := true, victims := m.victims ++ [sb], coldLeft := pages }) s)
    | none => s
  else onMed (fun m => { m with wlActive := false }) s

/-- Cold data relocated (R423): at most WL_RATE pages in a millisecond. -/
def relocateCold (s : State) : State :=
  let now := timeUs s
  if !mediaUp s || now < s.med.coldAt + 1000 then s
  else
    let s := if s.med.coldLeft.isEmpty then pickCold s else s
    (s.med.coldLeft.take s.med.wlRate).foldl (copyPage false true)
      (onMed (fun m => { m with coldLeft := m.coldLeft.drop m.wlRate, coldAt := now }) s)

/-! Rows. -/

/-- FLASH_PROGRAM_COMPLETE (R443; GROUP_DURABLE, R178). -/
def execFlashProgramComplete (lun : Nat) (ok : Bool) (s : State) : Host.Outcome State Fault Refusal :=
  .next (endOp false lun ok s)

/-- FLASH_ERASE_COMPLETE (R421, R443). -/
def execFlashEraseComplete (lun : Nat) (ok : Bool) (s : State) : Host.Outcome State Fault Refusal :=
  .next (endOp true lun ok s)

/-- LUN_FAILED (R443). -/
def execLunFailed (lun : Nat) (s : State) : Host.Outcome State Fault Refusal := .next (failLun lun s)

/-- JOURNAL_FLUSH (R432). -/
def execJournalFlush (now : Nat) (s : State) : Host.Outcome State Fault Refusal := .next (tryFlush (atTime now s))

/-- Whether a checkpoint starts of itself (R433). -/
def ckptDue (s : State) : Bool := mediaUp s && s.med.lastCkpt + 1000000 * s.med.ckptS ≤ timeUs s

/-- CHECKPOINT_START (R433). -/
def execCheckpointStart (now : Nat) (s : State) : Host.Outcome State Fault Refusal :=
  let s := atTime now s
  .next (if ckptDue s then startCkpt s else s)

/-- CHECKPOINT_ABANDON (R433). -/
def execCheckpointAbandon (now : Nat) (s : State) : Host.Outcome State Fault Refusal := .next (abandonCkpt (atTime now s))

/-- GARBAGE_COLLECTION (R437, R438). -/
def execGarbageCollection (set : Nat) (s : State) : Host.Outcome State Fault Refusal := .next (collect set s)

/-- COLD_RELOCATION (R423). -/
def execColdRelocation (now : Nat) (s : State) : Host.Outcome State Fault Refusal := .next (relocateCold (atTime now s))

end Sys2Proof.Machine
end

