-- ==== Sys2Proof/Machine/Crc.lean ====
section
/-!
DEFINITION. CRC-32C (Castagnoli), the check of program images, model images and chunks (R207, R266, R276, R279).
-/
namespace Sys2Proof.Machine

/-- One bit of the reflected CRC-32C. -/
def crcBit (c : Nat) : Nat := if c % 2 = 1 then Nat.xor (c / 2) 0x82F63B78 else c / 2

/-- `n` bits of the CRC. -/
def crcBits : Nat → Nat → Nat
  | 0, c => c
  | n + 1, c => crcBits n (crcBit c)

/-- CRC-32C of bytes. -/
def crc32c (bs : List Byte) : Nat :=
  Nat.xor (bs.foldl (fun c b => crcBits 8 (Nat.xor c b.toNat)) 0xFFFFFFFF) 0xFFFFFFFF

/-- Bytes with the four from `off` on taken as zero. -/
def blank4 (off : Nat) (bs : List Byte) : List Byte := bs.take off ++ zeros 4 ++ bs.drop (off + 4)

/-- Whether the CHECK field of an image, at an offset, is its CRC-32C with the field taken as zero. -/
def checkOk (off : Nat) (bs : List Byte) : Bool := field bs off 4 == crc32c (blank4 off bs)

end Sys2Proof.Machine
end

