-- ==== Sys2Proof/Machine/Float.lean ====
section
/-!
DEFINITION. Floating-point values and formats: exact values, one rounding to nearest with ties to even, and the
arithmetic every unit uses (R108, R124, R142–R144, R206, R246–R251).
-/
namespace Sys2Proof.Machine

/-- A floating-point value: not a number, an infinity, or `(-1)^neg × m × 2^e` exactly. -/
inductive Fv where
  | nan
  | inf (neg : Bool)
  | fin (neg : Bool) (m : Nat) (e : Int)
deriving DecidableEq, Repr

/-- How a format uses its largest exponent: as IEEE formats, with only the all-ones code a NaN, or with finite values
only. -/
inductive FmtKind where
  | ieee
  | oneNan
  | finite
deriving DecidableEq, Repr

/-- A format: exponent bits, mantissa bits, bias. -/
structure Fmt where
  expBits : Nat
  manBits : Nat
  bias : Nat
  kind : FmtKind
deriving DecidableEq, Repr

/-- IEEE binary32. -/
def fp32 : Fmt := { expBits := 8, manBits := 23, bias := 127, kind := .ieee }
/-- IEEE binary16. -/
def fp16 : Fmt := { expBits := 5, manBits := 10, bias := 15, kind := .ieee }
/-- bfloat16. -/
def bf16 : Fmt := { expBits := 8, manBits := 7, bias := 127, kind := .ieee }
/-- IEEE binary64. -/
def fp64 : Fmt := { expBits := 11, manBits := 52, bias := 1023, kind := .ieee }
/-- FP8-E4M3: no infinity, the all-ones code is NaN. -/
def e4m3 : Fmt := { expBits := 4, manBits := 3, bias := 7, kind := .oneNan }
/-- FP8-E5M2: as IEEE. -/
def e5m2 : Fmt := { expBits := 5, manBits := 2, bias := 15, kind := .ieee }
/-- FP4-E2M1: finite values only. -/
def e2m1 : Fmt := { expBits := 2, manBits := 1, bias := 1, kind := .finite }

/-- The value of a code of a format. -/
def fdecode (f : Fmt) (c : Nat) : Fv :=
  let man := c % 2 ^ f.manBits
  let ex := c / 2 ^ f.manBits % 2 ^ f.expBits
  let neg := bit c (f.manBits + f.expBits)
  let top := 2 ^ f.expBits - 1
  let value : Fv :=
    if ex = 0 then .fin neg man (1 - (f.bias : Int) - f.manBits)
    else .fin neg (man + 2 ^ f.manBits) ((ex : Int) - f.bias - f.manBits)
  match f.kind with
  | .ieee => if ex = top then if man = 0 then .inf neg else .nan else value
  | .oneNan => if ex = top ∧ man = 2 ^ f.manBits - 1 then .nan else value
  | .finite => value

/-- The code of the largest finite magnitude of a format. -/
def maxCode (f : Fmt) : Nat :=
  match f.kind with
  | .ieee => (2 ^ f.expBits - 1) * 2 ^ f.manBits - 1
  | .oneNan => 2 ^ (f.expBits + f.manBits) - 2
  | .finite => 2 ^ (f.expBits + f.manBits) - 1

/-- The canonical NaN of a format: for an IEEE format the quiet one with no other payload. -/
def nanCode (f : Fmt) : Nat :=
  match f.kind with
  | .ieee => (2 ^ f.expBits - 1) * 2 ^ f.manBits + 2 ^ (f.manBits - 1)
  | .oneNan | .finite => 2 ^ (f.expBits + f.manBits) - 1

/-- `m × 2^-k` rounded to an integer, to nearest with ties to even. -/
def shiftRne (m k : Nat) : Nat :=
  let q := m / 2 ^ k
  let r := m % 2 ^ k
  if k = 0 then m
  else if 2 ^ (k - 1) < r ∨ (r = 2 ^ (k - 1) ∧ q % 2 = 1) then q + 1 else q

/-- The magnitude code of `m × 2^e` in a format, before any overflow: ties to even, or towards zero with `trunc`. -/
def magCode (f : Fmt) (trunc : Bool) (m : Nat) (e : Int) : Nat :=
  if m = 0 then 0
  else
    let emin : Int := 1 - (f.bias : Int)
    let top : Int := max ((log2 m : Int) + e) emin
    let q : Int := top - f.manBits
    let sig := if q ≤ e then m * 2 ^ (e - q).toNat
      else if trunc then m / 2 ^ (q - e).toNat else shiftRne m (q - e).toNat
    (top - emin).toNat * 2 ^ f.manBits + sig

/-- The sign bit of a format. -/
def signCode (f : Fmt) (neg : Bool) : Nat := if neg then 2 ^ (f.expBits + f.manBits) else 0

/-- A value rounded into a format; a magnitude past the largest becomes infinity, or the largest with `sat` and in
formats without infinity. -/
def fencodeWith (f : Fmt) (trunc sat : Bool) : Fv → Nat
  | .nan => nanCode f
  | .inf neg => signCode f neg + match f.kind with
    | .ieee => if sat then maxCode f else maxCode f + 1
    | .oneNan | .finite => maxCode f
  | .fin neg m e =>
    let c := magCode f trunc m e
    signCode f neg + if c ≤ maxCode f then c
      else match f.kind with
        | .ieee => if sat then maxCode f else maxCode f + 1
        | .oneNan | .finite => maxCode f

/-- A value rounded to nearest, ties to even, into a format with the IEEE overflow. -/
def fencode (f : Fmt) (v : Fv) : Nat := fencodeWith f false false v

/-- The exact negation. -/
def fneg : Fv → Fv
  | .nan => .nan
  | .inf n => .inf (!n)
  | .fin n m e => .fin (!n) m e

/-- Magnitude at a common exponent. -/
def alignTo (e : Int) (m : Nat) (e' : Int) : Nat := m * 2 ^ (e' - e).toNat

/-- The exact sum; a zero sum of unlike signs is +0. -/
def faddX : Fv → Fv → Fv
  | .nan, _ => .nan
  | _, .nan => .nan
  | .inf a, .inf b => if a = b then .inf a else .nan
  | .inf a, _ => .inf a
  | _, .inf b => .inf b
  | .fin a m e, .fin b n f =>
    let g := min e f
    let x := alignTo g m e
    let y := alignTo g n f
    if a = b then .fin a (x + y) g
    else if y < x then .fin a (x - y) g
    else if x < y then .fin b (y - x) g
    else .fin false 0 g

/-- The exact product. -/
def fmulX : Fv → Fv → Fv
  | .nan, _ => .nan
  | _, .nan => .nan
  | .inf a, .inf b => .inf (a != b)
  | .inf a, .fin b m _ => if m = 0 then .nan else .inf (a != b)
  | .fin a m _, .inf b => if m = 0 then .nan else .inf (a != b)
  | .fin a m e, .fin b n f => .fin (a != b) (m * n) (e + f)

/-- The quotient, exact but for a sticky last bit far below any rounding position. -/
def fdivX : Fv → Fv → Fv
  | .nan, _ => .nan
  | _, .nan => .nan
  | .inf _, .inf _ => .nan
  | .inf a, .fin b _ _ => .inf (a != b)
  | .fin a _ _, .inf b => .fin (a != b) 0 0
  | .fin a m e, .fin b n f =>
    if n = 0 then if m = 0 then .nan else .inf (a != b)
    else
      let k := 128 + log2 n
      let q := m * 2 ^ k / n
      let s := if m * 2 ^ k % n = 0 then 0 else 1
      .fin (a != b) (2 * q + s) (e - f - k - 1)

/-- Bits of an integer square root, from bit `n` down. -/
def isqrtFrom (m : Nat) : Nat → Nat → Nat
  | 0, r => if (r + 1) * (r + 1) ≤ m then r + 1 else r
  | n + 1, r => if (r + 2 ^ (n + 1)) * (r + 2 ^ (n + 1)) ≤ m then isqrtFrom m n (r + 2 ^ (n + 1)) else isqrtFrom m n r

/-- The integer square root. -/
def isqrt (m : Nat) : Nat := isqrtFrom m (log2 m / 2 + 1) 0

/-- The square root, exact but for a sticky last bit far below any rounding position; negative numbers give NaN. -/
def fsqrtX : Fv → Fv
  | .nan => .nan
  | .inf n => if n then .nan else .inf false
  | .fin n m e =>
    if m = 0 then .fin n 0 e
    else if n then .nan
    else
      let k : Nat := if e % 2 = 0 then 128 else 129
      let w := m * 2 ^ k
      let r := isqrt w
      let s := if r * r = w then 0 else 1
      .fin false (2 * r + s) ((e - k) / 2 - 1)

/-- Numeric order on values that are not NaN; false when either is. −0 equals +0. -/
def fltV : Fv → Fv → Bool
  | .nan, _ => false
  | _, .nan => false
  | .inf a, .inf b => a && !b
  | .inf a, .fin _ _ _ => a
  | .fin _ _ _, .inf b => !b
  | .fin a m e, .fin b n f =>
    let g := min e f
    let x := alignTo g m e
    let y := alignTo g n f
    match a, b with
    | false, false => x < y
    | true, true => y < x
    | true, false => x != 0 || y != 0
    | false, true => false

/-- Whether a value is NaN. -/
def Fv.isNan : Fv → Bool
  | .nan => true
  | _ => false

/-- Whether a value is finite. -/
def Fv.isFin : Fv → Bool
  | .fin _ _ _ => true
  | _ => false

/-- Whether a value is zero, of either sign. -/
def Fv.isZero : Fv → Bool
  | .fin _ m _ => m == 0
  | _ => false

/-- The value of an FP32 word. -/
def f32v (w : W32) : Fv := fdecode fp32 w.toNat

/-- A value rounded to FP32, to nearest with ties to even. -/
def f32r (v : Fv) : W32 := BitVec.ofNat 32 (fencode fp32 v)

/-- FP32 addition. -/
def f32add (a b : W32) : W32 := f32r (faddX (f32v a) (f32v b))
/-- FP32 subtraction. -/
def f32sub (a b : W32) : W32 := f32r (faddX (f32v a) (fneg (f32v b)))
/-- FP32 multiplication. -/
def f32mul (a b : W32) : W32 := f32r (fmulX (f32v a) (f32v b))
/-- FP32 division. -/
def f32div (a b : W32) : W32 := f32r (fdivX (f32v a) (f32v b))
/-- FP32 square root. -/
def f32sqrt (a : W32) : W32 := f32r (fsqrtX (f32v a))
/-- FP32 negation. -/
def f32neg (a : W32) : W32 := a ^^^ 0x80000000#32
/-- FP32 numeric less-than. -/
def f32lt (a b : W32) : Bool := fltV (f32v a) (f32v b)
/-- FP32 numeric at-most. -/
def f32le (a b : W32) : Bool := !(f32v a).isNan && !(f32v b).isNan && !f32lt b a
/-- FP32 one. -/
def f32one : W32 := 0x3F800000#32
/-- FP32 positive infinity. -/
def f32inf : W32 := 0x7F800000#32

/-- An integer as an exact value. -/
def intV (i : Int) : Fv := .fin (i < 0) i.natAbs 0

/-- Distance order of R110: numbers ascending, a NaN after every number, the lower slot on a tie. -/
def distLt (a b : W32 × Nat) : Bool :=
  let x := f32v a.1
  let y := f32v b.1
  match x.isNan, y.isNan with
  | true, true => a.2 < b.2
  | true, false => false
  | false, true => true
  | false, false => fltV x y || (!fltV y x && a.2 < b.2)

end Sys2Proof.Machine
end

