-- ==== Sys2Proof/Machine/Fmts.lean ====
section
/-!
DEFINITION. Element formats, group scales and the narrowing of outputs (R237–R250), and the functions of the tile's output
unit (R272).
-/
namespace Sys2Proof.Machine

/-- FP6-E3M2 (R238). -/
def e3m2 : Fmt := { expBits := 3, manBits := 2, bias := 3, kind := .finite }
/-- FP6-E2M3 (R238). -/
def e2m3 : Fmt := { expBits := 2, manBits := 3, bias := 1, kind := .finite }

/-- Width in bits of an FMT (R237). -/
def fmtWidth (f : Nat) : Nat := [32, 16, 16, 8, 8, 6, 6, 4, 16, 8, 4, 2, 2, 8, 4].getD f 8

/-- The floating-point format of an FMT, if it is one. -/
def floatFmt (f : Nat) : Option Fmt := [fp32, fp16, bf16, e4m3, e5m2, e3m2, e2m3, e2m1][f]?

/-- Whether an FMT is an integer format or TRN. -/
def isIntFmt (f : Nat) : Bool := 8 ≤ f && f ≤ 12

/-- The value of an element (R238, R240); index formats have none. -/
def fmtValue (f c : Nat) : Fv :=
  match floatFmt f with
  | some x => fdecode x c
  | none => if isIntFmt f then intV (signed (fmtWidth f) c) else .nan

/-- The bytes a row of `n` elements takes: RB of R244. -/
def rowBytes (n w : Nat) : Nat := (n * w + 511) / 512 * 64

/-- Element `i` of a packed row (R241). -/
def elemAt (bs : List Byte) (w i : Nat) : Nat := field bs (w * i / 8) 5 / 2 ^ (w * i % 8) % 2 ^ w

/-- Elements packed without gaps (R241), as a number. -/
def packNat (w : Nat) : List Nat → Nat
  | [] => 0
  | x :: xs => x % 2 ^ w + 2 ^ w * packNat w xs

/-- Elements packed without gaps (R241), in `n` bytes. -/
def packElems (w n : Nat) (xs : List Nat) : List Byte := leBytes n (packNat w xs)

/-- G of a SCALE byte (R243); 0 for NONE. -/
def groupSize (sc : Nat) : Nat := [0, 32, 64, 128].getD (sc % 4) 0

/-- Whether a SCALE byte is valid (R243). -/
def scaleByteOk (sc : Nat) : Bool := sc < 8 && (sc % 4 != 0 || sc == 0)

/-- The value of a group scale (R242). -/
def groupScale (sc code : Nat) : Fv :=
  if bit sc 2 then fdecode e4m3 code else if code = 255 then .nan else .fin false 1 ((code : Int) - 127)

/-- Whether a group-scale code is valid (R242). -/
def scaleCodeOk (sc code : Nat) : Bool := if bit sc 2 then 1 ≤ code && code ≤ 0x7E else code < 255

/-- Whether a tensor scale is valid: positive, finite, normal (R242). -/
def tensorScaleOk (c : Nat) : Bool := 0x00800000 ≤ c && c ≤ 0x7F7FFFFF

/-- The exact one. -/
def fvOne : Fv := .fin false 1 0

/-- Scale `g` of a list of codes: 1 with GROUP NONE (R245). -/
def scaleAt (sc : Nat) (codes : List Nat) (g : Nat) : Fv :=
  if groupSize sc = 0 then fvOne else groupScale sc (codes.getD g 0x7F)

/-- What narrowing one value did (R249): the code, and whether it clipped, or was not finite. -/
structure Narrowed where
  code : Nat
  clipped : Bool
  nonfinite : Bool
deriving DecidableEq, Repr

/-- Whether a format has NaN; whether it has infinity (R238). -/
def fmtHas (f : Nat) : Bool × Bool := (f ≤ 4, f ≤ 2 || f == 4)

/-- MINF and MAXF of an integer format (R249). -/
def intLimits (f : Nat) : Int × Int :=
  if f = 12 then (-1, 1) else let w := fmtWidth f; (-(2 ^ (w - 1) : Nat), (2 ^ (w - 1) : Nat) - 1)

/-- A number rounded to an integer: towards zero, or to nearest with ties to even. -/
def roundFv (trunc neg : Bool) (m : Nat) (e : Int) : Int :=
  let k := (-e).toNat
  let a : Nat := if 0 ≤ e then m * 2 ^ e.toNat else if trunc then m / 2 ^ k else shiftRne m k
  if neg then -(a : Int) else a

/-- A finite exact value rounded onto the grid of a format and held in its range (R249). -/
def narrowFin (f : Nat) (trunc neg : Bool) (m : Nat) (e : Int) : Narrowed :=
  match floatFmt f with
  | some x =>
    let c := magCode x trunc m e
    { code := signCode x neg + min c (maxCode x), clipped := maxCode x < c, nonfinite := false }
  | none =>
    let i := roundFv trunc neg m e
    let (lo, hi) := intLimits f
    { code := twos (fmtWidth f) (max lo (min hi i)), clipped := i < lo || hi < i, nonfinite := false }

/-- narrow() of R249 on a value and the exact scale. -/
def narrow (f : Nat) (trunc : Bool) (y scale : Fv) : Narrowed :=
  match y with
  | .nan =>
    let c := match floatFmt f with
      | some x => if (fmtHas f).1 then nanCode x else 0
      | none => 0
    { code := c, clipped := true, nonfinite := true }
  | .inf neg =>
    let c := match floatFmt f with
      | some x => signCode x neg + if (fmtHas f).2 then maxCode x + 1 else maxCode x
      | none => twos (fmtWidth f) (if neg then -(intLimits f).2 else (intLimits f).2)
    { code := c, clipped := true, nonfinite := true }
  | .fin _ _ _ =>
    match fdivX y scale with
    | .fin neg m e => narrowFin f trunc neg m e
    | .inf neg => narrowFin f trunc neg 1 4096
    | .nan => narrowFin f trunc false 0 0

/-- MAXF of a format as a value (R249). -/
def fmtMax (f : Nat) : Fv :=
  match floatFmt f with
  | some x => fdecode x (maxCode x)
  | none => intV (intLimits f).2

/-- The greater of two non-negative FP32 codes. -/
def maxMag (a b : Nat) : Nat := max a b

/-- A power of two times a positive value at or above it: the least E8M0 exponent (R258). -/
def ceilLog2 (m : Nat) (e : Int) : Int := (log2 m : Int) + e + if 2 ^ log2 m = m then 0 else 1

/-- The least scale code at or above a positive target, and whether it was clamped (R258). -/
def roundUpScale (sc : Nat) (v : Fv) : Nat × Bool :=
  match v with
  | .fin _ m e =>
    if bit sc 2 then
      match (List.range 0x7E).find? fun c => !fltV (fdecode e4m3 (c + 1)) v with
      | some c => (c + 1, fltV v (fdecode e4m3 1))
      | none => (0x7E, true)
    else
      let x := ceilLog2 m e
      if x < -127 then (0, true) else if 127 < x then (0xFE, true) else ((x + 127).toNat, false)
  | _ => (if bit sc 2 then 0x7E else 0xFE, true)

/-- s' = 2^⌈log2(A / 448)⌉, 1 when A is 0 (R259 step 3). -/
def rerunScale (amax : Nat) : Fv :=
  match fdivX (fdecode fp32 amax) (.fin false 448 0) with
  | .fin _ m e => if m = 0 then fvOne else .fin false 1 (ceilLog2 m e)
  | _ => fvOne

/-- s' as the output's tensor scale: FP32 bits. One below every FP32 number has none: a free value (log 119). -/
def rerunTscale (amax : Nat) : Nat :=
  match rerunScale amax with
  | .fin neg m e => if e < -149 then (Config.openFp 259 (BitVec.ofNat 32 amax)).toNat else fencode fp32 (.fin neg m e)
  | _ => 0x3F800000

/-! Conversions (R251). -/

/-- Whether the hardware converts between two formats, and whether exactly: `none` for a pair that R251 does not list. -/
def convertKind (a b : Nat) : Option Bool :=
  if 3 ≤ a ∧ a ≤ 7 then if b ≤ 2 then some true else if 5 ≤ a ∧ b = 3 then some true else none
  else if 9 ≤ a ∧ a ≤ 12 ∧ b ≤ 2 then some true
  else if 10 ≤ a ∧ a ≤ 12 ∧ b = 3 then some true
  else if a = 8 ∧ b ≤ 2 then some (b == 0)
  else if (a = 1 ∨ a = 2) ∧ b = 0 then some true
  else if a ≤ 2 ∧ b ≤ 12 ∧ a ≠ b then some false
  else if 8 ≤ a ∧ a ≤ 11 ∧ a < b ∧ b ≤ 12 then some false
  else none

/-- A value in a format, rounded towards zero where it is not exact: NaN and infinity are kept by a format that has them, and become 0
and ±MAXF in one that has not, which counts as not finite (R251). -/
def convertTo (b : Nat) (v scale : Fv) : Narrowed :=
  match v with
  | .nan => { narrow b true .nan fvOne with nonfinite := !(fmtHas b).1 }
  | .inf neg => { narrow b true (.inf neg) fvOne with nonfinite := !(fmtHas b).2 }
  | v => narrow b true v scale

/-- A code of format `a` converted to format `b`, with a scale where the result is narrower (R251). -/
def convert (a b code : Nat) (scale : Fv) : Option Narrowed := (convertKind a b).map fun _ => convertTo b (fmtValue a code) scale

/-- A codebook entry times its group scale in FP16, as UNPK4 would write it (R206, R244, R251). -/
def convertCb4 (trunc : Bool) (entry : Nat) (scale : Fv) : Nat := fencodeWith fp16 trunc true (fmulX (fdecode e4m3 entry) scale)

/-! Functions of EPI (R272): computed far beyond FP32, rounded, and moved by the free distance the rule allows. -/

/-- Fraction bits of the fixed-point work. -/
def fixBits : Nat := 320

/-- ln 2 and √(2/π), times 10^96. -/
def ln2Dec : Nat :=
  693147180559945309417232121458176568075500134360255254120680009493393621969694715605863326996418
/-- √(2/π) times 10^96. -/
def gelDec : Nat :=
  797884560802865355879892119868763736951717262329869315331851659341315851798603677002504667814613

/-- A decimal fraction in fixed point. -/
def decFix (d : Nat) : Nat := d * 2 ^ fixBits / 10 ^ 96

/-- The exponential series of a fixed-point number below ln 2, `n` terms, from the term numbered `i` on. -/
def expSeries (r : Nat) : Nat → Nat → Nat → Nat
  | 0, _, _ => 0
  | n + 1, i, term => term + expSeries r n (i + 1) (term * r / 2 ^ fixBits / (i + 1))

/-- e^x of a finite value, to some 300 bits. -/
def expFv (v : Fv) : Fv :=
  match v with
  | .nan => .nan
  | .inf neg => if neg then .fin false 0 0 else .inf false
  | .fin neg m e =>
    if m = 0 then fvOne
    else if 12 < (log2 m : Int) + e then if neg then .fin false 0 0 else .inf false
    else
      let sh := e + fixBits
      let a : Nat := if 0 ≤ sh then m * 2 ^ sh.toNat else m / 2 ^ (-sh).toNat
      let l := decFix ln2Dec
      let k : Int := if neg then -((a + l - 1) / l : Nat) else (a / l : Nat)
      let r := ((if neg then -(a : Int) else a) - k * l).toNat
      .fin false (expSeries r 90 0 (2 ^ fixBits)) (k - fixBits)

/-- −1 exactly. -/
def fvMinusOne : Fv := .fin true 1 0

/-- 1 / (1 + e^−x). -/
def sigmoidFv (v : Fv) : Fv := fdivX fvOne (faddX fvOne (expFv (fneg v)))

/-- tanh x. -/
def tanhFv (v : Fv) : Fv :=
  match v with
  | .fin _ m e =>
    if m = 0 ∨ (log2 m : Int) + e < -60 then v
    else match expFv (fmulX (.fin false 2 0) v) with
      | .inf _ => fvOne
      | t => fdivX (faddX t fvMinusOne) (faddX t fvOne)
  | .inf neg => .fin neg 1 0
  | .nan => .nan

/-- GELU in its tanh form: x / (1 + e^−2u), u = √(2/π) (x + 0.044715 x³). -/
def geluFv (v : Fv) : Fv :=
  let cube := fmulX v (fmulX v v)
  let inner := faddX v (fdivX (fmulX cube (.fin false 44715 0)) (.fin false 1000000 0))
  let u := fmulX (.fin false (decFix gelDec) (-(fixBits : Int))) inner
  fdivX v (faddX fvOne (expFv (fneg (fmulX (.fin false 2 0) u))))

/-- An FP32 code moved by some units in the last place, over the order of the numbers. -/
def shiftUlp (c : Nat) (d : Int) : Nat :=
  let mag : Nat := c % 2 ^ 31
  if 0x7F800000 ≤ mag then c
  else
    let i : Int := (if bit c 31 then -(Int.ofNat mag) else Int.ofNat mag) + d
    if i < 0 then 2 ^ 31 + min 0x7F7FFFFF i.natAbs else min 0x7F7FFFFF i.natAbs

/-- A transcendental result: the exact value rounded, within the free distance of at most 2 units (R272). -/
def transcend (fn : Nat) (x : W32) (v : Fv) : W32 :=
  BitVec.ofNat 32 (shiftUlp (fencode fp32 v) (Int.ofNat (Config.ulpShift fn x % 5) - 2))

/-- The function FN of EPI on an FP32 value (R272). Infinite operands of GELU and SiLU have no stated result at −∞. -/
def epiFn (fn : Nat) (x : W32) : W32 :=
  let v := f32v x
  match fn, v with
  | 0, _ => x
  | _, .nan => f32r .nan
  | 1, _ => if fltV (.fin false 0 0) v then x else 0#32
  | 2, .inf neg => if neg then Config.openFp 2 x else x
  | 3, .inf neg => if neg then Config.openFp 3 x else x
  | 2, _ => transcend 2 x (geluFv v)
  | 3, _ => transcend 3 x (fmulX v (sigmoidFv v))
  | 4, _ => transcend 4 x (sigmoidFv v)
  | 5, _ => transcend 5 x (tanhFv v)
  | _, _ => x

end Sys2Proof.Machine
end

