-- ==== Sys2Proof/Machine/Links.lean ====
section
/-!
DEFINITION. Fabric lanes: cells, replay, credits, the egress order with its deficit round robin, routing and the states of a
lane (R348–R357, R361, R399–R401).
-/
namespace Sys2Proof.Machine

/-- A lane. -/
def getLane (n : Nat) (s : State) : Lane := sget laneReset s.fab.lanes n

/-- A lane changed by `f`. -/
def onLane (n : Nat) (f : Lane → Lane) (s : State) : State :=
  onFab (fun x => { x with lanes := smod laneReset x.lanes n f }) s

/-- Node counters of the fabric changed (R389). -/
def onFabCounts (f : FabCounts → FabCounts) (s : State) : State := onFab (fun x => { x with counts := f x.counts }) s

/-! Cells (R352, R353). -/

/-- The 256 bytes of a cell without its check: `data` is none for an IDLE cell. -/
def cellBody (data : Option Cell) (lseq ack crPool crCount : Nat) (nak : Bool) : List Byte :=
  match data with
  | none => leBytes 1 0 ++ leBytes 1 (32 * b2n nak) ++ zeros 2 ++ leBytes 2 ack ++ leBytes 1 crPool ++ leBytes 1 crCount ++ zeros 248
  | some c =>
    leBytes 1 1 ++ leBytes 1 (c.cls + 4 * b2n c.first + 8 * b2n c.last + 16 * b2n c.transit + 32 * b2n nak) ++ leBytes 2 lseq
      ++ leBytes 2 ack ++ leBytes 1 crPool ++ leBytes 1 crCount ++ leBytes 2 c.dst ++ leBytes 2 c.src ++ leBytes 4 c.msgId
      ++ leBytes 4 c.offset ++ leBytes 1 c.payload.length ++ leBytes 1 c.hops ++ leBytes 1 c.dpart ++ zeros 1
      ++ leBytes 4 c.fcrc ++ zeros 4 ++ fit 224 c.payload

/-- A cell with its CCRC. -/
def sealCell (bs : List Byte) : List Byte := bs.take 28 ++ leBytes 4 (crc32c bs) ++ bs.drop 32

/-- The DATA cell of 256 bytes. -/
def readCell (bs : List Byte) : Cell :=
  let fl := field bs 1 1
  { cls := bits fl 1 0, first := bit fl 2, last := bit fl 3, transit := bit fl 4, dst := field bs 8 2, src := field bs 10 2,
    msgId := field bs 12 4, offset := bits (field bs 16 4) 20 0, hops := field bs 21 1, dpart := field bs 22 1,
    payload := (bs.drop 32).take (field bs 20 1), fcrc := field bs 24 4 }

/-- Whether a received cell is bad (R352). -/
def cellBad (exp : Nat) (ok : Bool) (bs : List Byte) : Bool :=
  let data := field bs 0 1 == 1
  !ok || bs.length != 256 || !checkOk 28 bs || 1 < field bs 0 1
    || (data && (field bs 2 2 != exp || field bs 21 1 == 0 || 8 < field bs 21 1))

/-- The cells of a frame for a neighbour (R353, R356). -/
def frameCells (peer : Nat) (f : Frame) : List Cell :=
  let n := (f.payload.length + 223) / 224
  (List.range n).map fun i =>
    { cls := f.cls, first := i == 0, last := i + 1 == n, transit := f.dst != peer, dst := f.dst, src := f.src,
      msgId := f.msgId, offset := f.offset + 224 * i, hops := f.hops, dpart := f.dpart,
      payload := (f.payload.drop (224 * i)).take 224, fcrc := if i + 1 = n then crc32c f.payload else 0 }

/-- Cells of a frame. -/
def cellCount (f : Frame) : Nat := (f.payload.length + 223) / 224

/-! Routing (R361). -/

/-- The routing entry of a node (R391). -/
def routeEntry (node : Nat) (s : State) : Nat := sget (fun _ => 0) s.fab.routes node

/-- Whether a routing entry is VALID. -/
def routeValid (node : Nat) (s : State) : Bool := bit (routeEntry node s) 63

/-- The UP lanes of a node's entry, LANE0 first (R361). -/
def upLanes (node : Nat) (s : State) : List Nat :=
  let v := routeEntry node s
  ((List.range 4).filter fun i => bit v (7 * i + 6)).filterMap fun i =>
    let n := bits v (7 * i + 5) (7 * i)
    if (getLane n s).state = .up then some n else none

/-- Whether a lane is UP. -/
def laneIsUp (n : Nat) (s : State) : Bool := (getLane n s).state == .up

/-- The lane that the message of a frame has taken, while it stays UP (R361, R383). -/
def pathLane (f : Frame) (s : State) : Option Nat :=
  (s.fab.paths.find? fun p => p.src == f.src && p.msgId == f.msgId && timeUs s < p.at0 + 4000000 && laneIsUp p.lane s).map (·.lane)

/-- The lane a frame takes (R361): that of its message, else one that the hash picks. -/
def pickLane (f : Frame) (s : State) : Option Nat :=
  match pathLane f s with
  | some n => some n
  | none =>
    let ls := upLanes f.dst s
    if ls.isEmpty then none else ls[(f.src * 0x9E37 + f.msgId) % ls.length]?

/-- The lane of a message noted, and the notes that are 4 s old forgotten. -/
def notePath (f : Frame) (n : Nat) (s : State) : State :=
  if (pathLane f s).isSome then s
  else
    let now := timeUs s
    let p : Path := { src := f.src, msgId := f.msgId, lane := n, at0 := now }
    let keep : Path → Bool := fun q => !(q.src == f.src && q.msgId == f.msgId) && decide (now < q.at0 + 4000000)
    onFab (fun x => { x with paths := x.paths.filter keep ++ [p] }) s

/-- A frame assigned to its lane; with none UP it waits (R361). -/
def routeFrame (f : Frame) (s : State) : State :=
  match pickLane f s with
  | some n => onLane n (fun x => { x with txq := x.txq ++ [f] }) (notePath f n s)
  | none => onFab (fun x => { x with waiting := x.waiting ++ [f] }) s

/-- The frames without a lane routed again. -/
def rerouteWaiting (s : State) : State :=
  let fs := s.fab.waiting
  fs.foldl (fun s f => routeFrame f s) (onFab (fun x => { x with waiting := [] }) s)

/-! Credits (R356). -/

/-- The receiver's pool that a frame uses at a neighbour: CTRL, transit, or the local pool of its partition. -/
def poolOf (peer : Nat) (f : Frame) : Nat := if f.cls = 3 then 65 else if f.dst ≠ peer then 64 else f.dpart

/-- Key of a pool's class. -/
def creditKey (pool cls : Nat) : Nat := 4 * pool + cls

/-- Cells of this node's receive buffer that a lane gives a pool and class (R356). -/
def poolCells (pool cls : Nat) (s : State) : Nat :=
  if pool = 65 then if cls = 3 then 32 else 0
  else if pool = 64 then if cls < 2 then 64 else if cls = 2 then 96 else 0
  else
    let n := 4 * (getPtn pool s).shares.fabShare
    if cls < 2 then n / 4 else if cls = 2 then n / 2 else 0

/-- The credits that the handshake grants the neighbour (R351, R356). DESIGN CHOICE (log 124): a change of FAB_SHARE shows at the next
handshake of a lane. -/
def grantedCredits (s : State) : List (Nat × Nat) :=
  (List.range 66).flatMap fun pool => ((List.range 4).map fun cls => (creditKey pool cls, poolCells pool cls s)).filter (·.2 != 0)

/-- Credits to be returned (R356). -/
def refund (r : Option Refund) (s : State) : State :=
  match r with
  | none => s
  | some r => onLane r.lane (fun x => { x with owed := smod (fun _ => 0) x.owed (creditKey r.pool r.cls) (· + r.cells) }) s

/-- Whether a lane holds the credits of a frame's cells, and its shaper allows it (R400, R401). -/
def frameEligible (x : Lane) (f : Frame) (s : State) : Bool :=
  cellCount f ≤ sget (fun _ => 0) x.credits (creditKey (poolOf x.peer f) f.cls)
    && (64 ≤ f.part || f.cls == 1 || f.cls == 3 || shaperOpen (3 * f.part + b2n (f.cls == 2)) s)

/-! Egress (R354, R401). -/

/-- The deficit round robin queue of a REQ or BULK frame (R401). -/
def drrQueue (f : Frame) : Nat := if f.part < 64 then 2 * f.part + b2n (f.cls == 2) else 128 + b2n (f.cls == 2)

/-- The quantum of a queue in bytes (R401, R409). -/
def drrQuantum (q : Nat) (s : State) : Nat :=
  quantumBytes (if q < 128 then (getShaper (3 * (q / 2) + q % 2) s).cfg.quantum
    else if q = 128 then s.tm.transitReqQ else s.tm.transitBulkQ)

/-- The oldest frame of a queue on a lane. -/
def queueHead (x : Lane) (q : Nat) : Option Frame := x.txq.find? fun f => (f.cls == 0 || f.cls == 2) && drrQueue f == q

/-- Whether any REQ or BULK frame is eligible on a lane. -/
def anyEligible (x : Lane) (s : State) : Bool :=
  (List.range 130).any fun q => (queueHead x q).any fun f => frameEligible x f s

/-- The next REQ or BULK frame of a lane by deficit round robin (R401), in at most `n` visits. -/
def drrPick (lane : Nat) : Nat → State → Option Frame × State
  | 0, s => (none, s)
  | n + 1, s =>
    let x := getLane lane s
    let q := x.turn
    let k := 130 * lane + q
    let next : State → State := onLane lane fun x => { x with turn := (q + 1) % 130, inTurn := false }
    match queueHead x q with
    | none => drrPick lane n (next (setDeficit k 0 s))
    | some f =>
      if !frameEligible x f s then drrPick lane n (next s)
      else
        let s := if x.inTurn then s else
          onLane lane (fun x => { x with inTurn := true }) (setDeficit k (deficit k s + drrQuantum q s) s)
        let b := 256 * cellCount f
        if b ≤ deficit k s then (some f, setDeficit k (deficit k s - b) s) else drrPick lane n (next s)

/-- A frame taken from a lane's queue to be sent: its credits spent (R356). -/
def startFrame (lane : Nat) (f : Frame) (s : State) : State :=
  onLane lane (fun x =>
    let k := creditKey (poolOf x.peer f) f.cls
    { x with txq := x.txq.erase f, credits := smod (fun _ => 0) x.credits k (· - cellCount f)
             cur := (frameCells x.peer f).map (fun c => (c, f)) ++ x.cur }) s

/-- The frame a lane starts next, if one may start: CTRL at any time, else RSP, else REQ and BULK, between frames (R353,
R354). -/
def chooseFrame (lane : Nat) (s : State) : State :=
  let x := getLane lane s
  match x.txq.find? fun f => f.cls == 3 && frameEligible x f s with
  | some f => if (x.cur.head?.any fun c => c.1.cls == 3) then s else startFrame lane f s
  | none =>
    if !x.cur.isEmpty then s
    else match x.txq.find? fun f => f.cls == 1 && frameEligible x f s with
      | some f => startFrame lane f s
      | none =>
        if !anyEligible x s then s
        else match drrPick lane 4000 s with
          | (some f, s) => startFrame lane f s
          | (none, s) => s

/-- A frame whose credits have gone back. -/
def forwarded (f : Frame) : Frame := { f with refund := none }

/-- A cell sent for the first time: noted for replay, charged to its shaper, a transit frame's credits returned, once, with its last
cell (R355, R356, R399). -/
def sendFirst (lane : Nat) (c : Cell) (f : Frame) (s : State) : State :=
  let now := timeUs s
  let note : List Sent → List Sent := fun l => if c.last then updWhere (·.frame == f) (fun e => { e with frame := forwarded f }) l else l
  let s := onLane lane (fun x => { x with
    cur := x.cur.drop 1, nextSeq := (x.nextSeq + 1) % 65536, cells := wrap64 (x.cells + 1)
    ackAt := if x.replay.isEmpty then now else x.ackAt
    replay := note (x.replay ++ [{ lseq := x.nextSeq, cell := c, frame := f, sends := 1, sentAt := now, firstNak := none }]) }) s
  let s := if f.part < 64 && (f.cls == 0 || f.cls == 2) then chargeShaper (3 * f.part + b2n (f.cls == 2)) 256 s else s
  if c.last && 64 ≤ f.part then refund f.refund s else s

/-- The credits a cell returns: at most 63 of one pool and class (R352). -/
def crField (x : Lane) : Nat × Nat × Nat :=
  match x.owed with
  | [] => (0xFF, 0, 0)
  | (k, n) :: _ => (k / 4, k % 4, min 63 n)

/-- One cell put on a lane with its acknowledgement and credit return (R352, R355, R356). -/
def putCell (lane : Nat) (data : Option Cell) (lseq : Nat) (s : State) : State :=
  let x := getLane lane s
  let (pool, cls, n) := crField x
  let ack := if x.nak then x.expSeq else (x.expSeq + 65535) % 65536
  let bytes := sealCell (cellBody data lseq ack pool (64 * cls + n) x.nak)
  let s := onLane lane (fun x => { x with
    nak := false, owed := if n = 0 then x.owed else smod (fun _ => 0) x.owed (creditKey pool cls) (· - n) }) s
  emit (.cell lane bytes) s

/-- One cell time of a lane (R352–R356): a replayed cell, else the next DATA cell unless the replay buffer is full, else
IDLE. -/
def cellTime (lane : Nat) (s : State) : State :=
  let x := getLane lane s
  if x.state ≠ .up ∨ x.test = 1 then s
  else match x.again.bind fun i => (x.replay[i]?).map fun c => (i, c) with
    | some (i, c) =>
      let now := timeUs s
      let s := onLane lane (fun x => { x with
        replay := updAt (fun c => { c with sends := c.sends + 1, sentAt := now }) i x.replay
        again := if i + 1 < x.replay.length then some (i + 1) else none }) s
      putCell lane (some c.cell) c.lseq s
    | none =>
      if 256 ≤ x.replay.length then putCell lane none 0 s
      else
        let s := chooseFrame lane s
        match (getLane lane s).cur with
        | [] => putCell lane none 0 s
        | (c, f) :: _ => putCell lane (some c) x.nextSeq (sendFirst lane c f s)

/-! Ingress (R352, R353, R355, R356). -/

/-- Cells acknowledged up to a sequence number leave the replay buffer; `incl` takes that cell too. -/
def ackUpTo (now lseq : Nat) (incl : Bool) (x : Lane) : Lane :=
  match x.replay.findIdx? (·.lseq == lseq) with
  | none => x
  | some i =>
    let n := if incl then i + 1 else i
    if n = 0 then x
    else { x with replay := x.replay.drop n, again := x.again.map (· - n), ackAt := now }

/-- A replay from the oldest unacknowledged cell begins (R355). -/
def beginReplay (now : Nat) (x : Lane) : Lane :=
  if x.replay.isEmpty then x
  else { x with again := some 0, replays := wrap64 (x.replays + 1), ackAt := now
                replay := x.replay.map fun c => { c with firstNak := some (c.firstNak.getD now) } }

/-- A frame received whole (R353): its cells taken off; kept when its FCRC holds, else its credits go back. -/
def closeFrame (lane : Nat) (last : Cell) (s : State) : State :=
  let x := getLane lane s
  let same : Cell → Bool := fun c => (c.cls == 3) == (last.cls == 3)
  let cs := (x.rx.filter same).reverse
  let first := cs.headD last
  let pool := if last.cls = 3 then 65 else if last.transit then 64 else last.dpart
  let r : Refund := { lane := lane, pool := pool, cls := last.cls, cells := cs.length }
  let f : Frame := { cls := last.cls, dst := last.dst, src := last.src, msgId := last.msgId, offset := first.offset,
                     hops := last.hops, dpart := last.dpart, payload := cs.flatMap (·.payload), part := 64,
                     at0 := timeUs s, refund := some r }
  let ok := crc32c f.payload == last.fcrc
  let s := onLane lane (fun x => { x with
    rx := x.rx.filter fun c => !same c, rxDone := if ok then x.rxDone ++ [f] else x.rxDone }) s
  if ok then s else refund (some r) s

/-- A good DATA cell taken in order. -/
def takeCell (lane : Nat) (c : Cell) (s : State) : State :=
  let s := onLane lane (fun x => { x with expSeq := (x.expSeq + 1) % 65536, discarding := false, rx := c :: x.rx }) s
  if c.last then closeFrame lane c s else s

/-- A cell received (R352, R355, R356). -/
def cellReceive (lane : Nat) (bs : List Byte) (fec : EccOutcome) (s : State) : State :=
  let x := getLane lane s
  if x.state ≠ .up then s
  else
    let now := timeUs s
    let s := match fec with
      | .clean => s
      | .corrected _ => onLane lane (fun x => { x with fecCorr := wrap64 (x.fecCorr + 1) }) s
      | .uncorrectable => onLane lane (fun x => { x with
          fecUncorr := wrap64 (x.fecUncorr + 1), uncorrAt := (now :: x.uncorrAt).take 16 }) s
    if cellBad x.expSeq (fec != .uncorrectable) bs then
      onLane lane (fun x => { x with discarding := true, nak := x.nak || !x.discarding }) s
    else
      let nak := bit (field bs 1 1) 5
      let ack := field bs 4 2
      let pool := field bs 6 1
      let cr := field bs 7 1
      let s := onLane lane (fun x =>
        let x := if nak then beginReplay now (ackUpTo now ack false x) else ackUpTo now ack true x
        if pool = 0xFF then x
        else { x with credits := smod (fun _ => 0) x.credits (creditKey pool (cr / 64)) (· + cr % 64) }) s
      if field bs 0 1 = 1 then takeCell lane (readCell bs) s else s

/-! Lane states (R351, R355). -/

/-- Each element once, the first kept. -/
def distinctFrames : List Frame → List Frame
  | [] => []
  | f :: fs => f :: (distinctFrames fs).filter (· != f)

/-- The frames of a lane whose LAST cell is not acknowledged (R355). -/
def unackedFrames (x : Lane) : List Frame :=
  distinctFrames ((x.replay.map (·.frame)) ++ (x.cur.map (·.2)) ++ x.txq)

/-- The frames that the lane's end of life leaves incomplete or unsent are taken off it, and its link state starts anew. -/
def emptyLane (x : Lane) (st : LaneState) : Lane :=
  { x with state := st, txq := [], cur := [], replay := [], again := none, nextSeq := 0, expSeq := 0, nak := false
           discarding := false, credits := [], owed := [], rx := [], turn := 0, inTurn := false, uncorrAt := [] }

/-- Training starts on every lane that is enabled, and stops on one that is not; `resend` acts on the frames that a lane
leaves unacknowledged (R351, R355). -/
def laneFails (resend : List Frame → State → State) (lane : Nat) (st : LaneState) (s : State) : State :=
  let x := getLane lane s
  if x.state ≠ .up then onLane lane (fun x => emptyLane x st) s
  else
    let fs := unackedFrames x
    let s := onLane lane (fun x => { emptyLane x st with downs := wrap64 (x.downs + 1) }) s
    resend fs (fs.foldl (fun s f => routeFrame f s) s)

/-- Whether 16 uncorrectable codewords have come within 1 ms (R351). -/
def tooManyUncorr (x : Lane) : Bool := x.uncorrAt.length == 16 && x.uncorrAt.headD 0 ≤ x.uncorrAt.getLastD 0 + 1000

/-- A lane reaches UP with the neighbour's node ID and credits, and grants its own (R351, R356). -/
def laneUp (lane peer : Nat) (credits : List (Nat × Nat)) (s : State) : State :=
  let x := getLane lane s
  if !x.enable || x.state == .up || x.state == .disabled then s
  else
    let now := timeUs s
    let set : Lane → Lane := fun x => { x with
      state := .up, peer := peer % 65536, ackAt := now
      credits := credits.foldl (fun t e => sset (fun _ => 0) t e.1 e.2) [] }
    rerouteWaiting (onLane lane set (emit (.handshake lane s.nodeId (grantedCredits s)) s))

/-- A training attempt that has not reached UP in 500 ms is restarted; a DOWN lane starts to train (R351). -/
def restartTraining (lane : Nat) (s : State) : State :=
  let x := getLane lane s
  let now := timeUs s
  match x.state with
  | .down => onLane lane (fun x => { x with state := .training, trainAt := now }) s
  | .training =>
    if now < x.trainAt + 500000 then s
    else onLane lane (fun x => { x with trainAt := now, trainFail := wrap64 (x.trainFail + 1) }) s
  | _ => s

/-- The ACK timeout (R355). -/
def replayTimeout (lane : Nat) (s : State) : State :=
  let x := getLane lane s
  if x.replay.isEmpty || x.state != .up || timeUs s < x.ackAt + 4 then s
  else
    let now := timeUs s
    onLane lane (beginReplay now) s

/-- Whether the replay budget of the oldest unacknowledged cell has ended (R355). -/
def budgetOver (x : Lane) (now : Nat) : Bool :=
  x.replay.any fun c => 9 ≤ c.sends || c.firstNak.any fun t => t + 40 ≤ now

/-- CELL_TIME (R352). -/
def execCellTime (lane : Nat) (s : State) : Host.Outcome State Fault Refusal := .next (cellTime lane s)

/-- CELL_RECEIVE (R355). -/
def execCellReceive (lane : Nat) (cell : List Byte) (fec : EccOutcome) (s : State) : Host.Outcome State Fault Refusal :=
  .next (cellReceive lane cell fec s)

/-- LANE_UP (R351). -/
def execLaneUp (lane peer : Nat) (credits : List (Nat × Nat)) (s : State) : Host.Outcome State Fault Refusal :=
  .next (laneUp lane peer credits s)

/-- LANE_TRAINING_RESTART (R351). -/
def execLaneTrainingRestart (lane : Nat) (now : Nat) (s : State) : Host.Outcome State Fault Refusal :=
  .next (restartTraining lane (atTime now s))

/-- REPLAY_TIMEOUT (R355). -/
def execReplayTimeout (lane : Nat) (now : Nat) (s : State) : Host.Outcome State Fault Refusal :=
  .next (replayTimeout lane (atTime now s))

/-- PRBS31_CHECK_ERROR (R387). -/
def execPrbs31CheckError (lane : Nat) (s : State) : Host.Outcome State Fault Refusal :=
  .next (if (getLane lane s).test = 1 ∧ lane < 36 then onLane lane (fun x => { x with prbsErr := true }) s else s)

end Sys2Proof.Machine
end

