-- ==== Sys2Proof/Machine/Messages.lean ====
section
/-!
DEFINITION. Messages: sending, reassembly, policing, requests with their retransmission, the fabric duplicate table, and the
epoch and slot a request must meet (R357–R365, R368, R369, R375, R382, R393, R397).
-/
namespace Sys2Proof.Machine

/-- The class of a message kind (R360). -/
def kindClass (k : Nat) : Option Nat :=
  if k ∈ [0x01, 0x08, 0x0C] then some 0
  else if k ∈ [0x02, 0x09, 0x0D, 0x11] then some 1
  else if k ∈ [0x0A, 0x0B, 0x10, 0x21] then some 2
  else if k ∈ [0x20, 0x22, 0x23, 0x24, 0x25, 0x28, 0x29, 0x2A, 0x2B, 0x2C] then some 3
  else none

/-- The response kind of a request kind (R360, R397). -/
def answerKind (k : Nat) : Nat := if k = 0x01 then 0x02 else if k = 0x08 then 0x09 else if k = 0x0C then 0x0D else 0x11

/-- A message as its bytes (R359). -/
def msgBytes (m : Msg) : List Byte :=
  leBytes 1 m.kind ++ leBytes 1 (b2n m.short + 2 * b2n m.resent) ++ leBytes 2 m.status ++ leBytes 4 m.reqId ++ leBytes 4 m.comp
    ++ leBytes 4 m.epoch ++ leBytes 4 m.slot ++ leBytes 4 (64 + m.body.length) ++ leBytes 4 m.seq ++ zeros 36 ++ m.body

/-- The message that reassembled bytes give (R359). -/
def readMsg (p : Partial) (node : Nat) (bs : List Byte) : Msg :=
  let fl := field bs 1 1
  { src := p.src, dst := node, msgId := p.msgId, cls := p.cls, dpart := p.dpart, kind := field bs 0 1, short := bit fl 0,
    resent := bit fl 1, status := field bs 2 2, reqId := field bs 4 4, comp := field bs 8 4, epoch := field bs 12 4,
    slot := field bs 16 4, seq := field bs 24 4, body := bs.drop 64 }

/-- The frames of a message (R358). -/
def msgFrames (m : Msg) (part now : Nat) : List Frame :=
  let bs := msgBytes m
  (List.range ((bs.length + 4095) / 4096)).map fun i =>
    { cls := m.cls, dst := m.dst, src := m.src, msgId := m.msgId, offset := 4096 * i, hops := 8, dpart := m.dpart,
      payload := (bs.drop (4096 * i)).take 4096, part := part, at0 := now, refund := none }

/-! Compositions as messages see them (R367, R368, R382). -/

/-- A composition. -/
def getComp (id : Nat) (s : State) : Option Comp := tget? s.fab.comps id

/-- A composition changed by `f`. -/
def onComp (id : Nat) (f : Comp → Comp) (s : State) : State := onFab (fun x => { x with comps := tmod f x.comps id }) s

/-- T_req of a composition (R366, R385). -/
def treqOf (id : Nat) (s : State) : Nat :=
  match getComp id s with
  | some c => if c.treqUs = 0 then s.fab.timeoutDefault else c.treqUs
  | none => s.fab.timeoutDefault

/-- The drain window of a composition (R366, R385). -/
def drainOf (c : Comp) (s : State) : Nat := if c.drainUs = 0 then s.fab.drainDefault else c.drainUs

/-- Bytes of activation blocks held for a composition (R374). -/
def blockBytes (id : Nat) (s : State) : Nat :=
  ((s.fab.blocks.filter (·.comp == id)).map (·.bytes.length)).foldl (· + ·) 0

/-- Whether the receive buffer of a PIPELINE composition is full: it cannot take another message (R374). -/
def bufferFull (id : Nat) (s : State) : Bool :=
  match getComp id s with
  | some c => c.kind == 2 && c.rxbufMib * 1048576 < blockBytes id s + 1048576
  | none => false

/-- Whether this node is short for a composition (R382). -/
def nodeShort (id : Nat) (s : State) : Bool :=
  match getComp id s with
  | none => false
  | some c =>
    4096 < (s.srch.queries.filter fun q => q.part == c.part && q.phase == .waiting).length
      || 131072 * 9 < 10 * s.fab.fdups.length || bufferFull id s

/-! Sending (R361, R362). -/

/-- A message sent: it takes the next MSG_ID, and its frames their lanes. -/
def sendMsg (part : Nat) (m : Msg) (s : State) : State × Nat :=
  let id := s.fab.nextMsg
  let m := { m with src := s.nodeId, msgId := id, short := nodeShort m.comp s }
  let s := onFab (fun x => { x with nextMsg := (id + 1) % 2 ^ 32 }) s
  ((msgFrames m part (timeUs s)).foldl (fun s f => routeFrame f s) s, id)

/-- A message as its sender gives it. -/
def mkMsg (dst dpart kind comp epoch slot seq : Nat) (body : List Byte) : Msg where
  src := 0
  dst := dst
  msgId := 0
  cls := (kindClass kind).getD 3
  dpart := dpart
  kind := kind
  short := false
  resent := false
  status := 0
  reqId := 0
  comp := comp
  epoch := epoch
  slot := slot
  seq := seq
  body := body

/-- A message sent that no record is kept of: responses and CTRL. -/
def sendOnly (m : Msg) (s : State) : State := (sendMsg 64 m s).1

/-- A request sent and recorded (R362); the bodies in `rest` follow one by one, each once the one before it is
acknowledged. -/
def sendReq (part : Nat) (m : Msg) (waiter : ReqFor) (rest : List (List Byte)) (s : State) : State :=
  let rid := s.fab.nextReq
  let m := { m with reqId := rid }
  let (s, mid) := sendMsg part m s
  let r : Req := { id := rid, part := part, msg := { m with msgId := mid }, waiter := waiter, rest := rest, resent := 0,
                   at0 := timeUs s, treq := treqOf m.comp s }
  let s := onXq part (fun c => { c with reqs := wrap64 (c.reqs + 1) }) s
  onFab (fun x => { x with nextReq := (rid + 1) % 2 ^ 32, reqs := x.reqs ++ [r] }) s

/-- A request sent again, at most twice (R362). -/
def resendReq (r : Req) (s : State) : State :=
  if 2 ≤ r.resent then s
  else
    let (s, mid) := sendMsg r.part { r.msg with resent := true } s
    let set : Req → Req := fun q => { q with resent := q.resent + 1, msg := { q.msg with msgId := mid } }
    onXq r.part (fun c => { c with resent := wrap64 (c.resent + 1) })
      (onFab (fun x => { x with reqs := updWhere (·.id == r.id) set x.reqs }) s)

/-- The requests that some frames belong to, sent again (R362). -/
def resendOf (fs : List Frame) (s : State) : State :=
  let hit := s.fab.reqs.filter fun r => fs.any fun f => f.src == s.nodeId && f.msgId == r.msg.msgId
  hit.foldl (fun s r => resendReq r s) s

/-- A request record freed. -/
def dropReq (id : Nat) (s : State) : State := onFab (fun x => { x with reqs := x.reqs.filter (·.id != id) }) s

/-- The request records that wait for a command freed, with a CANCEL for each (R365). -/
def cancelReqs (c : CmdRef) (s : State) : State :=
  let mine := s.fab.reqs.filter fun r => r.waiter == .command c
  mine.foldl (fun s r =>
    sendOnly { mkMsg r.msg.dst r.msg.dpart 0x2C r.msg.comp r.msg.epoch r.msg.slot 0 [] with reqId := r.id } (dropReq r.id s)) s

/-! The fabric duplicate table (R363). -/

/-- Bytes of the response store in use (R363). -/
def storeBytes (s : State) : Nat :=
  (s.fab.fdups.map fun d => match d.state with
    | .stored m => 64 + m.body.length
    | _ => 0).foldl (· + ·) 0

/-- The answer of a request: sent, and kept for its duplicates when it fits (R363). -/
def respond (m : Msg) (status : Nat) (epoch slot seq : Nat) (body : List Byte) (s : State) : State :=
  let r := { mkMsg m.src m.dpart (answerKind m.kind) m.comp epoch slot seq body with status := status, reqId := m.reqId }
  let keep : FDupState := if 64 + body.length ≤ 65536 then .stored r else .unstored
  let set : FDup → FDup := fun d => { d with state := keep }
  sendOnly r (onFab (fun x => { x with fdups := updWhere (fun d => d.src == m.src && d.reqId == m.reqId) set x.fdups }) s)

/-- The answer of a request with a status and no body. -/
def respondSt (m : Msg) (status : Nat) (s : State) : State := respond m status m.epoch m.slot m.seq [] s

/-- An answer that the duplicate table does not note: the request was not run (R363, R397). -/
def turnAway (m : Msg) (s : State) : State :=
  sendOnly { mkMsg m.src m.dpart (answerKind m.kind) m.comp m.epoch m.slot m.seq [] with
    status := stThrottled, reqId := m.reqId } s

/-- The duplicate check of a request (R363): the state, and whether the request runs. -/
def fabricDup (m : Msg) (s : State) : State × Bool :=
  match s.fab.fdups.find? fun d => d.src == m.src && d.reqId == m.reqId with
  | some d =>
    match d.state with
    | .running => (s, false)
    | .stored r => (sendOnly r s, false)
    | .unstored => (s, true)
  | none =>
    if 131072 ≤ s.fab.fdups.length || 67108864 ≤ storeBytes s then (turnAway m s, false)
    else
      let d : FDup := { src := m.src, reqId := m.reqId, comp := m.comp, slot := m.slot, part := m.dpart, at0 := timeUs s,
                        hold := 4 * treqOf m.comp s, state := .running }
      (onFab (fun x => { x with fdups := x.fdups ++ [d] }) s, true)

/-- An entry of the fabric duplicate table released after 4 × T_req (R363). -/
def fdupExpire (src req : Nat) (s : State) : State :=
  let now := timeUs s
  onFab (fun x => { x with fdups := x.fdups.filter fun d => !(d.src == src && d.reqId == req && d.at0 + d.hold ≤ now) }) s

/-! Epochs and slots (R368, R369, R375). -/

/-- What the epoch rules say of a request or command. -/
inductive Gate where
  | serve (members : List (Nat × Nat))
  | redirect
  | notOwner
  | hold
deriving DecidableEq, Repr

/-- The rule of R368 for epoch `e` at a composition. -/
def epochGate (c : Comp) (e : Nat) (s : State) : Gate :=
  if e = c.epoch then .serve c.members
  else if c.epoch < e then .hold
  else match c.prev with
    | some p => if e = p.epoch ∧ timeUs s < p.endsAt then .serve p.members else .redirect
    | none => .redirect

/-- DETAIL of a REDIRECT: epoch, node of the slot under it, slot (R369). -/
def redirectDetail (epoch node slot : Nat) : Nat := epoch % 2 ^ 32 + 2 ^ 32 * (node % 2 ^ 16) + 2 ^ 48 * (slot % 2 ^ 16)

/-- The node of a slot under the current epoch. -/
def slotNode (c : Comp) (slot : Nat) : Nat := (c.members.getD slot (0, 0)).1

/-- What the node holds of a slot. -/
def getSlot (c : Comp) (slot : Nat) : Slot := sget slotReset c.slots slot

/-- The slot of a composition changed by `f`. -/
def onSlot (id slot : Nat) (f : Slot → Slot) (s : State) : State :=
  onComp id (fun c => { c with slots := smod slotReset c.slots slot f }) s

/-- The answer REDIRECT of a request (R369, R377): the current epoch, its slot, and the node that is named. -/
def respondRedirect (m : Msg) (c : Comp) (node : Nat) (s : State) : State :=
  respond m stRedirect c.epoch m.slot node [] (onXq c.part (fun x => { x with redirects := wrap64 (x.redirects + 1) }) s)

/-- An OWNER_QUERY to a node about a slot, with this node's state of it (R378). -/
def askOwner (id : Nat) (c : Comp) (slot node : Nat) (s : State) : State :=
  sendOnly (mkMsg node c.part 0x24 id c.epoch slot 0 (leBytes 1 (getSlot c slot).state.code)) s

/-- A request kept until its epoch or slot is there (R368, R375). -/
def holdMsg (m : Msg) (s : State) : State :=
  if s.fab.held.any fun h => h.1 == m then s
  else
    let now := timeUs s
    onFab (fun x => { x with held := x.held ++ [(m, now)] }) s

/-- A request no longer kept. -/
def unholdMsg (m : Msg) (s : State) : State := onFab (fun x => { x with held := x.held.filter fun h => h.1 != m }) s

/-- A noted request put to the epoch and slot rules, `run` when they let it (R368, R375, R377, R378). -/
def gateReq (kind : Nat) (m : Msg) (run : Msg → Comp → State → State) (s : State) : State :=
  match getComp m.comp s with
  | none => respondSt m stNotOwner (unholdMsg m s)
  | some c =>
    if c.kind ≠ kind then respondSt m stNotOwner (unholdMsg m s)
    else match epochGate c m.epoch s with
      | .hold => holdMsg m s
      | .notOwner => respondSt m stNotOwner (unholdMsg m s)
      | .redirect => respondRedirect m c (slotNode c m.slot) (unholdMsg m s)
      | .serve _ =>
        let sl := getSlot c m.slot
        match sl.state with
        | .owned => run m c (unholdMsg m s)
        | .offering => respondRedirect m c sl.peer (unholdMsg m s)
        | .receiving => holdMsg m s
        | .none => if m.src = slotNode c m.slot then askOwner m.comp c m.slot m.src (holdMsg m s) else holdMsg m s
        | .released =>
          if m.src = slotNode c m.slot then askOwner m.comp c m.slot m.src (holdMsg m s)
          else respondRedirect m c (slotNode c m.slot) (unholdMsg m s)

/-- A message of the inbox, by source, number and kind. -/
def inboxMsg (kind src msg : Nat) (s : State) : Option Msg :=
  s.fab.inbox.find? fun m => m.kind == kind && m.src == src && m.msgId == msg

/-- A message taken off the inbox. -/
def takeMsg (m : Msg) (s : State) : State := onFab (fun x => { x with inbox := x.inbox.erase m }) s

/-- A request message handled (R363, R368): from the inbox after the duplicate check, or again from those held. -/
def handleReq (kind compKind src msg : Nat) (run : Msg → Comp → State → State) (s : State) : State :=
  match inboxMsg kind src msg s with
  | some m =>
    let (s, go) := fabricDup m (takeMsg m s)
    if go then gateReq compKind m run s else s
  | none =>
    match s.fab.held.find? fun h => h.1.kind == kind && h.1.src == src && h.1.msgId == msg with
    | some h => gateReq compKind h.1 run s
    | none => s

/-- A response message handled (R364): dropped as late when its request's record is gone. -/
def handleRsp (kind src msg : Nat) (run : Req → Msg → State → State) (s : State) : State :=
  match inboxMsg kind src msg s with
  | none => s
  | some m =>
    let s := takeMsg m s
    match s.fab.reqs.find? fun r => r.id == m.reqId && r.msg.dst == src with
    | none => onXq (m.dpart % 64) (fun c => { c with lateRsp := wrap64 (c.lateRsp + 1) }) s
    | some r => run r m (dropReq r.id s)

/-- A CTRL message handled. -/
def handleCtrl (kind src msg : Nat) (run : Msg → State → State) (s : State) : State :=
  match inboxMsg kind src msg s with
  | none => s
  | some m => run m (takeMsg m s)

/-! Reception (R353, R357, R358, R360, R382, R393, R397). -/

/-- SHORT noted for the sender of a message (R382). -/
def noteShort (m : Msg) (s : State) : State :=
  if m.short then
    let now := timeUs s
    onComp m.comp (fun c => { c with shorts := tput c.shorts m.src now }) s
  else s

/-- The fabric pre-colour of a message's class (R396). -/
def fabricColour (m : Msg) (s : State) : Colour :=
  let q := sget qColourReset s.tm.colours m.dpart
  colourOf (if m.cls = 0 then q.req else q.bulk)

/-- A block no part of which is held any longer (R397). -/
def forgetBlock (comp slot seq : Nat) (s : State) : State :=
  onFab (fun x => { x with blocks := x.blocks.filter fun b => !(b.comp == comp && b.slot == slot && b.seq == seq) }) s

/-- A message complete (R360, R393, R397): discarded when its kind or class is wrong, policed when it is a request or an
activation block, else put into the inbox. -/
def messageDone (m : Msg) (s : State) : State :=
  if kindClass m.kind ≠ some m.cls then onFabCounts (fun c => { c with badMsg := wrap64 (c.badMsg + 1) }) s
  else
    let s := noteShort m s
    let (stop, s) := if m.cls = 0 ∨ m.kind = 0x10 then police (3 * m.dpart + 2) (64 + m.body.length) (fabricColour m s) s
      else (false, s)
    if stop then turnAway m (if m.kind = 0x10 then forgetBlock m.comp m.slot m.seq s else s)
    else onFab (fun x => { x with inbox := x.inbox ++ [m] }) s

/-- Bytes added to a partial message; an offset already received keeps its byte (R358). -/
def addBytes (off : Nat) : List Byte → Table Byte → Table Byte
  | [], t => t
  | b :: bs, t => addBytes (off + 1) bs (if (tget? t off).isSome then t else tput t off b)

/-- A frame for this node (R358): added to its message, which is complete when every byte has come. -/
def deliver (f : Frame) (s : State) : State :=
  let same : Partial → Bool := fun p => p.src == f.src && p.msgId == f.msgId
  let p := (s.fab.partials.find? same).getD
    { src := f.src, msgId := f.msgId, cls := f.cls, dpart := f.dpart % 64, bytes := [] }
  let p := { p with bytes := addBytes f.offset f.payload p.bytes }
  let s := onFab (fun x => { x with partials := x.partials.filter fun q => !same q }) s
  let keep := onFab (fun x => { x with partials := x.partials ++ [p] }) s
  let head := (p.bytes.take 64).map (·.2)
  if !(List.range 64).all (fun i => (tget? p.bytes i).isSome) then keep
  else
    let len := field head 20 4
    if len < 64 || 64 + 1048576 < len || (f.cls == 3 && 4096 < len) then
      onFabCounts (fun c => { c with badMsg := wrap64 (c.badMsg + 1) }) s
    else
      let have_ := p.bytes.filter fun e => e.1 < len
      if have_.length < len then keep else messageDone (readMsg p s.nodeId (have_.map (·.2))) s

/-- A transit frame dropped: its sender is told (R357). -/
def dropTransit (f : Frame) (s : State) : State :=
  let s := onFabCounts (fun c => { c with transitDrop := wrap64 (c.transitDrop + 1) }) (refund f.refund s)
  sendOnly (mkMsg f.src 0 0x2B 0 0 0 0 (leBytes 4 f.msgId ++ leBytes 4 f.offset)) s

/-- Whether a frame's message must wait for room in a receive buffer (R356, R374). -/
def frameWaits (f : Frame) (s : State) : Bool :=
  f.dst == s.nodeId && f.cls == 2 && s.fab.comps.any fun c => c.2.part == f.dpart && bufferFull c.1 s

/-- The next frame received whole, delivered or forwarded (R353, R356, R357, R361). -/
def frameReceive (lane : Nat) (s : State) : State :=
  match (getLane lane s).rxDone.find? fun f => !frameWaits f s with
  | none => s
  | some f =>
    let s := onLane lane (fun x => { x with rxDone := x.rxDone.erase f }) s
    if f.dst = s.nodeId then deliver f (refund f.refund s)
    else if f.hops ≤ 1 || !routeValid f.dst s then dropTransit f s
    else routeFrame { f with hops := f.hops - 1, part := 64 } s

/-- A transit frame that has found no credit for 100 µs is dropped (R357). -/
def transitDrop (lane : Nat) (s : State) : State :=
  let x := getLane lane s
  match x.txq.find? fun f => f.part == 64 && f.src != s.nodeId && f.at0 + 100 ≤ timeUs s && !frameEligible x f s with
  | none => s
  | some f => dropTransit f (onLane lane (fun x => { x with txq := x.txq.erase f }) s)

/-- A lane fails (R351, R355, R362). -/
def laneDown (lane : Nat) (s : State) : State :=
  if (getLane lane s).state = .up then laneFails resendOf lane .down s else s

/-- TEST and the polarities of XQ_LCTRL written (R10, R386): they are not live-safe, so an enabled lane keeps them, and an
attempt to change them is counted; a reserved TEST value is not taken. -/
def writeLctrlFields (n v : Nat) (s : State) : State :=
  let x := getLane n s
  let test := if bits v 30 29 = 3 then x.test else bits v 30 29
  if x.enable = false then onLane n (fun x => { x with test := test, txInv := bit v 28, rxInv := bit v 27 }) s
  else if test = x.test ∧ bit v 28 = x.txInv ∧ bit v 27 = x.rxInv then s
  else onFabCounts (fun c => { c with cfgBusy := wrap64 (c.cfgBusy + 1) }) s

/-- XQ_LCTRL written (R351, R386). -/
def writeLctrl (n v : Nat) (s : State) : State :=
  let x := getLane n s
  let now := timeUs s
  let s := onLane n (fun x => { x with enable := bit v 31 }) (writeLctrlFields n v s)
  if bit v 31 == x.enable then s
  else if bit v 31 then onLane n (fun x => { x with state := .training, trainAt := now }) s
  else laneFails resendOf n .disabled s

/-- FRAME_RECEIVE (R353). -/
def execFrameReceive (lane : Nat) (s : State) : Host.Outcome State Fault Refusal := .next (frameReceive lane s)

/-- TRANSIT_DROP (R357). -/
def execTransitDrop (lane : Nat) (now : Nat) (s : State) : Host.Outcome State Fault Refusal :=
  .next (transitDrop lane (atTime now s))

/-- LANE_DOWN (R351): FEC lock is lost, or 16 uncorrectable codewords have come within 1 ms. -/
def execLaneDown (lane : Nat) (cause : LaneFail) (s : State) : Host.Outcome State Fault Refusal :=
  .next (match cause with
    | .fecLock => laneDown lane s
    | .uncorrectableCodewords => if tooManyUncorr (getLane lane s) then laneDown lane s else s)

/-- REPLAY_BUDGET_EXPIRY (R355). -/
def execReplayBudgetExpiry (lane : Nat) (now : Nat) (s : State) : Host.Outcome State Fault Refusal :=
  let s := atTime now s
  .next (if budgetOver (getLane lane s) (timeUs s) then laneDown lane s else s)

/-- FABRIC_DUP_EXPIRY (R363). -/
def execFabricDupExpiry (src req : Nat) (now : Nat) (s : State) : Host.Outcome State Fault Refusal :=
  .next (fdupExpire src req (atTime now s))

/-- PROBE (R380): answered with PROBE_ACK. -/
def execProbe (src msg : Nat) (s : State) : Host.Outcome State Fault Refusal :=
  .next (handleCtrl 0x28 src msg (fun m s => sendOnly (mkMsg m.src m.dpart 0x29 0 0 0 0 []) s) s)

/-- PROBE_ACK (R380): the node lives. -/
def execProbeAck (src msg : Nat) (s : State) : Host.Outcome State Fault Refusal :=
  .next (handleCtrl 0x29 src msg (fun m s =>
    onFab (fun x => { x with probes := x.probes.filter (·.node != m.src) }) s) s)

/-- DROPPED (R362): the request of the dropped frame is sent again. -/
def execDroppedNotice (src msg : Nat) (s : State) : Host.Outcome State Fault Refusal :=
  .next (handleCtrl 0x2B src msg (fun m s =>
    let id := field m.body 0 4
    (s.fab.reqs.filter fun r => r.msg.msgId == id).foldl (fun s r => resendReq r s) s) s)

end Sys2Proof.Machine
end

