-- ==== Sys2Proof/Machine/Gate.lean ====
section
/-!
DEFINITION. The rule of epochs for commands that name a composition (R368, R371, R381, R382), and what a command gets for its
index handle (R75).
-/
namespace Sys2Proof.Machine

/-! Commands that name a composition (R368, R369, R371, R381, R382). -/

/-- The composition of a kind and handle. -/
def compFor (kind handle : Nat) (s : State) : Option (Nat × Comp) :=
  s.fab.comps.find? fun e => e.2.kind == kind && e.2.handle == handle

/-- What the composition rules say of a command. -/
inductive CmdGate where
  | alone
  | composed (id : Nat) (members : List (Nat × Nat))
  | stop (v : Verdict)
deriving DecidableEq, Repr

/-- The slot of this node among members. -/
def ownSlot (members : List (Nat × Nat)) (s : State) : Nat := (members.findIdx? (·.1 == s.nodeId)).getD 0

/-- Whether a node said SHORT within the last 200 µs (R382). -/
def saidShort (c : Comp) (node : Nat) (s : State) : Bool := (tget? c.shorts node).any fun t => timeUs s < t + 200

/-- The rules of R368, R371, R381 and R382 for a command that needs the members in some slots. -/
def cmdGate (kind : Nat) (needs : List Nat) (k : Cmd) (s : State) : CmdGate :=
  if k.epoch = 0 then .alone
  else match compFor kind k.handle s with
    | none => .stop (.fail stNotOwner 0)
    | some (id, c) =>
      if !c.lost.isEmpty then .stop (.fail stNotOwner 0)
      else match epochGate c k.epoch s with
        | .hold => .stop .hold
        | .notOwner => .stop (.fail stNotOwner 0)
        | .redirect => let me := ownSlot c.members s; .stop (.fail stRedirect (redirectDetail c.epoch (slotNode c me) me))
        | .serve members =>
          if needs.any fun i => saidShort c (members.getD i (0, 0)).1 s then .stop (.fail stThrottled 0)
          else .composed id members

/-- What a command gets for the index its HANDLE names (R75): the checks `more` of an index of its partition. For a handle of no
index it follows R368 when it names an epoch: a redirect or a wait where an INDEX composition is installed for the handle. -/
def forIndex (k : Cmd) (s : State) (more : Index → Verdict) : Verdict :=
  match getIndex k.handle s with
  | some ix => if ix.desc.part ≠ cmdPart k then .fail stRefused 0 else more ix
  | none =>
    match cmdGate 0 [] k s with
    | .alone => .fail stBadParam 0
    | .stop v => v
    | .composed _ _ => .fail stNotOwner 0

end Sys2Proof.Machine
end

