-- ==== Sys2Proof/Machine/Graph.lean ====
section
/-!
DEFINITION. The index structures and the walk over them as functions of an index: code layout, distance tables, scores,
visibility, descent, expansion, linking (R71–R101, R108–R117, R164–R166, R171–R173).
-/
namespace Sys2Proof.Machine

/-- K: centroids per subquantiser (R78). -/
def centroids (d : IndexDesc) : Nat := if d.code4 then 16 else 256

/-- CB: bytes of a code (R78). -/
def codeBytes (d : IndexDesc) : Nat := if d.code4 then d.m / 2 else d.m

/-- Bytes of a stored element (R74). -/
def elemBytes (fmt : Nat) : Nat := if fmt ≤ 1 then 2 else 1

/-- VB: the full-vector stride (R92). -/
def vecBytes (d : IndexDesc) : Nat := (d.dim * elemBytes d.vecFormat + 63) / 64 * 64

/-- P: vectors of a logical page (R92). -/
def vecsPerPage (d : IndexDesc) : Nat := 16384 / vecBytes d

/-- The value of a stored element (R74). -/
def elemValue (fmt : Nat) (c : Nat) : Fv :=
  match fmt with
  | 0 => fdecode fp16 c
  | 1 => fdecode bf16 c
  | 2 => intV (signed 8 c)
  | 3 => fdecode e4m3 c
  | _ => fdecode e5m2 c

/-- The elements of a stored vector as FP32 words: every stored value is exact in FP32 (R92, R124). -/
def vecElems (d : IndexDesc) (bs : List Byte) : List W32 :=
  (List.range d.dim).map fun x =>
    f32r (elemValue d.vecFormat (field bs (x * elemBytes d.vecFormat) (elemBytes d.vecFormat)))

/-- The elements of a query as FP32 words: FP16, or BF16 for a BF16 index (R130). -/
def queryElems (d : IndexDesc) (q : List W16) : List W32 :=
  q.map fun w => f32r (fdecode (if d.vecFormat = 1 then bf16 else fp16) w.toNat)

/-- The codebook of a generation bound by a reference (R80, R186). -/
def bookOf (ix : Index) (gen : Nat) : List W16 := if gen = ix.curGen then ix.curBook else ix.oldBook

/-- Element `x` of centroid `c` of subquantiser `j` (R79). -/
def centroidElem (d : IndexDesc) (book : List W16) (j c x : Nat) : W32 :=
  f32r (fdecode fp16 ((book.getD ((j * centroids d + c) * (d.dim / d.m) + x) 0).toNat))

/-- Subquantiser index `j` of a code (R78). -/
def codeIndex (d : IndexDesc) (code : List Byte) (j : Nat) : Nat :=
  if d.code4 then
    let b := (code.getD (j / 2) 0).toNat
    if j % 2 = 0 then b % 16 else b / 16
  else (code.getD j 0).toNat

/-- Code bytes of subquantiser indices (R78). -/
def packCode (d : IndexDesc) (ixs : List Nat) : List Byte :=
  if d.code4 then
    (List.range (d.m / 2)).map fun j => BitVec.ofNat 8 (ixs.getD (2 * j) 0 + 16 * ixs.getD (2 * j + 1) 0)
  else ixs.map (BitVec.ofNat 8)

/-- A sum in FP32 in ascending order (R108). -/
def f32sum (xs : List W32) : W32 := xs.foldl f32add 0#32

/-- Squared difference, in FP32 (R108). -/
def sqDiff (a b : W32) : W32 := f32mul (f32sub a b) (f32sub a b)

/-- Σ (a_x − b_x)² in FP32 in ascending x (R108). -/
def l2Sum (a b : List W32) : W32 := f32sum (List.zipWith sqDiff a b)

/-- Σ a_x × b_x in FP32 in ascending x (R108). -/
def dotSum (a b : List W32) : W32 := f32sum (List.zipWith f32mul a b)

/-- Elements of a vector that subquantiser `j` covers (R79). -/
def subElems (d : IndexDesc) (v : List W32) (j : Nat) : List W32 := (v.drop (j * (d.dim / d.m))).take (d.dim / d.m)

/-- Elements of a centroid. -/
def centroidElems (d : IndexDesc) (book : List W16) (j c : Nat) : List W32 :=
  (List.range (d.dim / d.m)).map (centroidElem d book j c)

/-- The query as the metric uses it: divided by its norm for cosine (R108). -/
def metricQuery (d : IndexDesc) (q : List W32) : List W32 :=
  if d.metric = 2 then
    let n := f32sqrt (dotSum q q)
    q.map fun x => f32div x n
  else q

/-- Entry (j, c) of the distance table (R108). -/
def tableEntry (d : IndexDesc) (book : List W16) (q : List W32) (j c : Nat) : W32 :=
  if d.metric = 0 then l2Sum (subElems d q j) (centroidElems d book j c)
  else f32neg (dotSum (subElems d q j) (centroidElems d book j c))

/-- The distance table: entry (j, c) at position j × K + c (R108). -/
def distTable (d : IndexDesc) (book : List W16) (q : List W32) : List W32 :=
  let u := metricQuery d q
  (List.range d.m).flatMap fun j => (List.range (centroids d)).map fun c => tableEntry d book u j c

/-- The score of a code (R109): the selected entries in ascending j, then 1.0 for cosine. -/
def scoreCode (d : IndexDesc) (table : List W32) (code : List Byte) : W32 :=
  let sum := f32sum ((List.range d.m).map fun j => table.getD (j * centroids d + codeIndex d code j) 0#32)
  if d.metric = 2 then f32add sum f32one else sum

/-- The code of a slot in the code array; zero where nothing was written (R78, R164). -/
def codeOf (ix : Index) (slot : Nat) : List Byte := sget (fun _ => zeros (codeBytes ix.desc)) ix.codes slot

/-- The first index of the least key, ties to the lower (R171). -/
def argMin (lt : W32 → W32 → Bool) (xs : List W32) : Nat :=
  (xs.foldl (fun (acc : Nat × Option (Nat × W32)) x =>
    match acc.2 with
    | none => (acc.1 + 1, some (acc.1, x))
    | some (i, y) => (acc.1 + 1, if lt x y then some (acc.1, x) else some (i, y))) (0, none)).2.map (·.1) |>.getD 0

/-- The code of a vector against a codebook (R171). -/
def encodeVec (d : IndexDesc) (book : List W16) (v : List W32) : List Byte :=
  packCode d ((List.range d.m).map fun j =>
    argMin (fun a b => distLt (a, 0) (b, 0))
      ((List.range (centroids d)).map fun c => l2Sum (subElems d v j) (centroidElems d book j c)))

/-- The code-to-code distance (R173 step 2). -/
def codeDistance (d : IndexDesc) (book : List W16) (a b : List Byte) : W32 :=
  f32sum ((List.range d.m).map fun j =>
    l2Sum (centroidElems d book j (codeIndex d a j)) (centroidElems d book j (codeIndex d b j)))

/-- The `n` nearest of some slots to a code under the code-to-code distance, ties to the lower slot (R173 step 2). -/
def keepNearest (ix : Index) (book : List W16) (n : Nat) (code : List Byte) (slots : List Nat) : List Nat :=
  ((sortBy distLt (slots.map fun s => (codeDistance ix.desc book code (codeOf ix s), s))).take n).map (·.2)

/-- The newest published image of a crate (R85). -/
def crateOf (ix : Index) (c : Nat) : Crate := sget crateEmpty ix.crates c

/-- The crate record of a slot, when OCCUPIED (R85, R86). -/
def recOf (ix : Index) (slot : Nat) : Option CrateRec := tget? (crateOf ix (slot / 64)).recs (slot % 64)

/-- The liveness bit (R93). -/
def liveBit (ix : Index) (slot : Nat) : Bool := sget (fun _ => false) ix.live slot

/-- A slot is FREE when its record is not OCCUPIED (R93). -/
def slotFree (ix : Index) (slot : Nat) : Bool := (recOf ix slot).isNone

/-- A slot is DEAD when its record is OCCUPIED and its liveness bit is 0 (R93). -/
def slotDead (ix : Index) (slot : Nat) : Bool := (recOf ix slot).isSome && !liveBit ix slot

/-- LIVE_COUNT (R73). -/
def liveCount (ix : Index) : Nat := ix.live.length

/-- KIND of the ring entry of a slot with the lowest CSN above a snapshot, 0 if none (R164). -/
def firstAfter (ix : Index) (slot snap : Nat) : Nat :=
  match (ix.ring.filter fun e => e.2.slot == slot && snap < e.2.csn).foldl
      (fun (acc : Option RingEntry) e =>
        match acc with
        | none => some e.2
        | some a => if e.2.csn < a.csn then some e.2 else some a) none with
  | none => 0
  | some e => e.kind

/-- visible_live of R164. -/
def visibleLive (ix : Index) (snap slot : Nat) : Bool :=
  match firstAfter ix slot snap with
  | 1 => false
  | 2 => true
  | 3 => false
  | _ => liveBit ix slot

/-- traversable of R164. -/
def traversable (ix : Index) (td : Bool) (snap slot : Nat) : Bool :=
  visibleLive ix snap slot || (td && firstAfter ix slot snap != 1)

/-- What a walk sees: the index, its snapshot, whether dead slots are traversed, the filter bit of a slot, PRUNE, the
table, the bounds of R131 and R132, the blocks of spill space that the query has or can still take (R113), and the crate image it
holds a reference to, if one (R90, R166). -/
structure View where
  ix : Index
  snap : Nat
  td : Bool
  filter : Option Nat
  prune : Bool
  table : List W32
  l : Nat
  pool : Nat
  hopLimit : Nat
  range : Option (W32 × W32)
  blocks : Nat
  image : Option Crate
  /-- Upper records that are candidates at their levels (R173 step 4). -/
  extra : List Nat

/-- The filter bit of a slot; without a filter every slot passes (R95, R116). -/
def filterBit (v : View) (slot : Nat) : Bool :=
  match v.filter with
  | none => true
  | some f => filterAt v.ix f slot

/-- A slot is returnable (R116). -/
def returnable (v : View) (slot : Nat) : Bool := visibleLive v.ix v.snap slot && filterBit v slot

/-- The score of a slot (R109). -/
def scoreSlot (v : View) (slot : Nat) : W32 := scoreCode v.ix.desc v.table (codeOf v.ix slot)

/-- A slot recorded as visited (R113): `false` when it already is. Past V it spills; with no block left it is lost. -/
def visitInsert (v : View) (w : Walk) (slot : Nat) : Bool × Walk :=
  if w.visited.contains slot then (false, w)
  else if w.inSram < min 4096 (32 * v.l) then
    (true, { w with visited := slot :: w.visited, inSram := w.inSram + 1 })
  else if w.spilled < 1024 * w.blocks then
    (true, { w with visited := slot :: w.visited, spilled := w.spilled + 1 })
  else if w.blocks < 60 ∧ w.blocks < v.blocks then
    (true, { w with visited := slot :: w.visited, spilled := w.spilled + 1, blocks := w.blocks + 1 })
  else (true, { w with lost := w.lost + 1 })

/-- An offer to the candidate queue (R112). -/
def queueOffer (v : View) (w : Walk) (d : W32) (slot : Nat) : Walk :=
  if w.cands.any (·.slot == slot) then w
  else
    let new : Cand := { dist := d, slot := slot, expanded := false }
    let ins := ordInsert (fun (a b : Cand) => distLt (a.dist, a.slot) (b.dist, b.slot)) new w.cands
    { w with cands := ins.take v.l }

/-- Whether a distance lies within RADIUS; every distance does without one (R132). -/
def withinRadius (v : View) (d : W32) : Bool :=
  match v.range with
  | none => true
  | some (r, _) => f32le d r

/-- An offer of a scored slot to the pool, if it is returnable (R114, R116); FOUND counts it (R129). -/
def poolOffer (v : View) (w : Walk) (d : W32) (slot : Nat) : Walk :=
  if !returnable v slot then w
  else
    let w := if withinRadius v d then { w with found := w.found + 1 } else w
    if w.pool.any (·.2 == slot) then w
    else { w with pool := (ordInsert distLt (d, slot) w.pool).take v.pool }

/-- A slot of the descent scored once: visited, counted, offered to the pool (R111); its distance is answered. -/
def descentScore (v : View) (known : Table W32) (w : Walk) (slot : Nat) : W32 × Table W32 × Walk :=
  match tget? known slot with
  | some d => (d, known, w)
  | none =>
    let d := scoreSlot v slot
    let w := (visitInsert v w slot).2
    let w := poolOffer v { w with codes := w.codes + 1 } d slot
    (d, tput known slot d, w)

/-- Upper records scored as candidates: distances of the walk so far, and (distance, slot, record) triples. -/
structure Descent where
  walk : Walk
  known : Table W32
  cands : List ((W32 × Nat) × Nat)

/-- A record scored and made a candidate of its level. -/
def descentAdd (v : View) (s : Descent) (r : Nat) : Descent :=
  if s.cands.any (·.2 == r) then s
  else match tget? v.ix.upper r with
    | none => s
    | some u =>
      let (d, known, w) := descentScore v s.known s.walk u.slot
      { walk := w, known := known, cands := ordInsert (fun a b => distLt a.1 b.1) ((d, u.slot), r) s.cands }

/-- A neighbour of a held record scored, unless it is returned or not traversable (R111, R182). -/
def descentNbr (v : View) (s : Descent) (r : Nat) : Descent :=
  match tget? v.ix.upper r with
  | none => s
  | some u => if traversable v.ix v.td v.snap u.slot then descentAdd v s r else s

/-- One level of a descent: the upper neighbours of the held records are scored, and the `beam` nearest held, until no
held record is left whose neighbours are unscored (R111). -/
def descentLevel (v : View) (beam : Nat) : Nat → List Nat → Descent → Descent
  | 0, _, s => s
  | n + 1, done, s =>
    let todo := ((s.cands.take beam).map (·.2)).filter fun r => !done.contains r
    if todo.isEmpty then s
    else
      let nbrs := todo.flatMap fun r => ((tget? v.ix.upper r).map (·.adj)).getD []
      descentLevel v beam n (todo ++ done) (nbrs.foldl (descentNbr v) s)

/-- A descent from some held records down to level 1, and the records held at each level (R111, R173). -/
def descendFrom (v : View) (beam : Nat) : Nat → List Nat → Walk → Table W32 → Walk × Table W32 × List (Nat × List Nat)
  | 0, _, w, known => (w, known, [])
  | level + 1, held, w, known =>
    let extra := v.extra.filter fun r => (tget? v.ix.upper r).any (·.level == level + 1)
    let s := (held ++ extra).foldl (descentAdd v) { walk := w, known := known, cands := [] }
    let s := descentLevel v beam (v.ix.upper.length + 1) [] s
    let kept := (s.cands.take beam).map (·.2)
    if level = 0 then (s.walk, s.known, [(1, kept)])
    else
      let down := kept.filterMap fun r => (tget? v.ix.upper r).bind (·.down)
      let down := down.filter fun r => (tget? v.ix.upper r).isSome
      let (w, known, hs) := descendFrom v beam level down s.walk s.known
      (w, known, (level + 1, kept) :: hs)

/-- A slot that seeds the base queue (R111, R116). -/
def seedSlot (v : View) (a : Walk × Table W32) (slot : Nat) : Walk × Table W32 :=
  let (d, known, w) := descentScore v a.2 a.1 slot
  (queueOffer v w d slot, known)

/-- The descent, or the seeds, of a query, and the records held at each level (R111, R166). -/
def descend (v : View) (policy : Nat) (seeds : List Nat) : Walk × List (Nat × List Nat) :=
  match v.ix.entry with
  | none => (walkEmpty, [])
  | some e =>
    let good := if policy = 2 then seeds.filter (traversable v.ix v.td v.snap) else []
    if !good.isEmpty then ((good.foldl (seedSlot v) (walkEmpty, [])).1, [])
    else if v.ix.entryLevel = 0 then ((seedSlot v (walkEmpty, []) e).1, [])
    else
      let (w, known, hs) := descendFrom v (if policy = 1 then 8 else 1) v.ix.entryLevel [e] walkEmpty []
      let slots := match hs.getLast? with
        | some (_, rs) => rs.filterMap fun r => (tget? v.ix.upper r).map (fun u : Upper => u.slot)
        | none => []
      ((slots.foldl (seedSlot v) (w, known)).1, hs)

/-- The nearest unexpanded candidate (R115). -/
def nearest (w : Walk) : Option Cand := w.cands.find? (!·.expanded)

/-- range_done of R115: the pool holds a slot within RADIUS, and the nearest unexpanded entry is farther than
EXPAND_RADIUS (R132). -/
def rangeDone (v : View) (w : Walk) (c : Cand) : Bool :=
  match v.range with
  | none => false
  | some (r, er) => (w.pool.any fun p => f32le p.1 r) && !f32le c.dist er

/-- Why a walk ends at the top of a step, or the candidate it expands (R115, R126). -/
def walkTop (v : View) (w : Walk) (budgetSpent : Bool) : Nat ⊕ Cand :=
  match nearest w with
  | none => .inl 0
  | some c =>
    if w.hops = v.hopLimit then .inl 1
    else if rangeDone v w c then .inl 2
    else if budgetSpent then .inl 3
    else .inr c

/-- The record of a slot in the image a walk holds, else in the newest one (R90, R166). -/
def heldRecOf (v : View) (slot : Nat) : Option CrateRec :=
  match v.image with
  | some c => tget? c.recs (slot % 64)
  | none => recOf v.ix slot

/-- The neighbours a walker takes from a slot's record: none from a FREE slot, or from one reclaimed after the snapshot
(R166). -/
def neighbours (v : View) (slot : Nat) : List Nat :=
  match heldRecOf v slot with
  | none => []
  | some r => if firstAfter v.ix slot v.snap = 3 then [] else r.adj

/-- One neighbour of an expansion (R115, R116). -/
def meet (v : View) (w : Walk) (slot : Nat) : Walk :=
  let (fresh, w') := visitInsert v w slot
  if !fresh then w
  else if !traversable v.ix v.td v.snap slot then w'
  else
    let d := scoreSlot v slot
    let w' := poolOffer v { w' with codes := w'.codes + 1 } d slot
    if v.prune && !filterBit v slot then w' else queueOffer v w' d slot

/-- The expansion of a candidate (R115). -/
def expand (v : View) (w : Walk) (slot : Nat) : Walk :=
  let mark : Cand → Cand := fun c => { c with expanded := true }
  let w := { w with cands := updWhere (fun c : Cand => c.slot == slot) mark w.cands, hops := w.hops + 1 }
  (neighbours v slot).foldl (meet v) w

/-- A whole walk, as a linking search makes it (R173); a crate that it must expand from and whose image is `lost` ends it (R87). -/
def walkAll (v : View) (lost : Nat → Bool) : Nat → Walk → Except Nat Walk
  | 0, w => .ok w
  | n + 1, w =>
    match walkTop v w false with
    | .inl _ => .ok w
    | .inr c => if lost (c.slot / 64) then .error (c.slot / 64) else walkAll v lost n (expand v w c.slot)

/-- mix64 of R301. -/
def mix64 (x seed : Nat) : Nat :=
  let z := (x + seed * 0x9E3779B97F4A7C15) % 2 ^ 64
  let z := (z ^^^ (z / 2 ^ 30)) * 0xBF58476D1CE4E5B9 % 2 ^ 64
  let z := (z ^^^ (z / 2 ^ 27)) * 0x94D049BB133111EB % 2 ^ 64
  z ^^^ (z / 2 ^ 31)

/-- Trailing zero bits of a number, at most `n`. -/
def trailingZeros : Nat → Nat → Nat
  | 0, _ => 0
  | n + 1, x => if x % 2 = 1 then 0 else 1 + trailingZeros n (x / 2)

/-- LEVEL drawn for a slot (R173 step 3). -/
def drawLevel (d : IndexDesc) (slot handle : Nat) : Nat := min d.upperLevels (trailingZeros 64 (mix64 slot handle) / 5)

/-- An edge to a new slot gained by a list of edges: appended, or the `n` nearest kept when it is full (R173 step 2). -/
def gainEdge (ix : Index) (book : List W16) (n : Nat) (code : List Byte) (adj : List Nat) (slot : Nat) : List Nat :=
  if adj.contains slot then adj
  else if adj.length < n then adj ++ [slot]
  else keepNearest ix book n code (adj ++ [slot])

/-- A crate record changed. -/
def modRec (f : CrateRec → CrateRec) (slot : Nat) (ix : Index) : Index :=
  { ix with crates := smod crateEmpty ix.crates (slot / 64) fun c => { c with recs := tmod f c.recs (slot % 64) } }

/-- Upper records by their number, changed. -/
def modUpper (f : Upper → Upper) (n : Nat) (ix : Index) : Index := { ix with upper := tmod f ix.upper n }

/-- The lowest free record number of the pool (R82). -/
def freeUpper (ix : Index) : Option Nat := firstFrom (fun n => (tget? ix.upper n).isNone) 0 ix.desc.upperRecords

/-- The upper record of a slot at a level. -/
def upperOf (ix : Index) (slot level : Nat) : Option Nat :=
  (ix.upper.find? fun e => e.2.slot == slot && e.2.level == level).map (·.1)

/-- An edge to a new upper record gained by a held record (R173 step 4). -/
def gainUpper (book : List W16) (new : Nat) (ix : Index) (r : Nat) : Index :=
  match tget? ix.upper r with
  | none => ix
  | some u =>
    let n := ix.desc.upperDegree
    let adj := u.adj ++ [new]
    let code := codeOf ix u.slot
    let key : Nat → W32 × Nat := fun x =>
      let s := ((tget? ix.upper x).map (·.slot)).getD 0
      (codeDistance ix.desc book code (codeOf ix s), s)
    let adj := if u.adj.length < n then adj
      else ((sortBy (fun a b => distLt a.1 b.1) (adj.map fun x => (key x, x))).take n).map (·.2)
    modUpper (fun u => { u with adj := adj }) r ix

/-- A held record resolved at publication: a pool record that still is that slot's, or the record of an earlier item
(R173 step 4). -/
def resolveHeld (ix : Index) (level : Nat) : HeldRec → Option Nat
  | .pool n slot => if (tget? ix.upper n).any fun u => u.slot == slot && u.level == level then some n else none
  | .item slot => upperOf ix slot level

/-- Upper records of a new node, from level `lvl` up to its level (R82, R173 step 4). -/
def addUpper (book : List W16) (node : NewNode) : Nat → Nat → Option Nat → Index → Index
  | 0, _, _, ix => ix
  | n + 1, lvl, down, ix =>
    match freeUpper ix with
    | none => ix
    | some r =>
      let held := ((node.held.find? (·.1 == lvl)).map (·.2)).getD []
      let links := (held.take ix.desc.upperDegree).filterMap (resolveHeld ix lvl)
      let ix := { ix with upper := tput ix.upper r { slot := node.slot, level := lvl, down := down, adj := links } }
      let ix := links.foldl (gainUpper book r) ix
      addUpper book node n (lvl + 1) (some r) ix

/-- Free record numbers of the pool. -/
def upperRoom (ix : Index) : Nat := ix.desc.upperRecords - ix.upper.length

/-- A new node put into the graph (R173): its record and code, the reverse edges of its LIVE or DEAD neighbours, its
upper records when the pool can hold them (R83), and ENTRY (step 5). `csn` is the CSN of its transition. -/
def addNode (book : List W16) (csn : Nat) (node : NewNode) (ix : Index) : Index :=
  let level := if node.level ≤ upperRoom ix then node.level else 0
  let nbrs := node.nbrs.filter fun s => !slotFree ix s
  let r : CrateRec :=
    { attr := node.attr, level := level, repair := false, code := node.code, adj := nbrs, commitCsn := csn }
  let ix := { ix with
    codes := sset (fun _ => zeros (codeBytes ix.desc)) ix.codes node.slot node.code
    live := sset (fun _ => false) ix.live node.slot true
    attrs := sset (fun _ => 0) ix.attrs node.slot node.attr
    vectors := tput ix.vectors node.slot node.vec
    upperFull := if level = node.level then ix.upperFull else ix.upperFull + 1
    crates := smod crateEmpty ix.crates (node.slot / 64) fun c => { c with recs := tput c.recs (node.slot % 64) r } }
  let back : Index → Nat → Index := fun ix s =>
    modRec (fun r => { r with adj := gainEdge ix book ix.desc.maxDegree r.code r.adj node.slot, commitCsn := csn }) s ix
  let ix := nbrs.foldl back ix
  let ix := addUpper book node level 1 none ix
  if ix.entry.isNone ∨ ix.entryLevel < level then
    { ix with entry := if level = 0 then some node.slot else upperOf ix node.slot level, entryLevel := level }
  else ix

end Sys2Proof.Machine
end

