-- ==== Sys2Proof/Machine/Crates.lean ====
section
/-!
DEFINITION. The image of a crate as flash and frames hold it, and the checks of a crate read (R85–R87).
-/
namespace Sys2Proof.Machine

/-- A record of a crate image: 248 bytes (R86). -/
def crateRecBytes (r : CrateRec) : List Byte :=
  leBytes 8 r.attr ++ leBytes 1 r.adj.length ++ leBytes 1 r.level ++ leBytes 1 (b2n r.repair) ++ zeros 5 ++ fit 64 r.code
    ++ (fit 160 (r.adj.flatMap (leBytes 4) ++ List.replicate 160 0xFF)) ++ leBytes 8 r.commitCsn

/-- Record `i` of an image: zero throughout when it is not OCCUPIED (R86). -/
def recImage (c : Crate) (i : Nat) : List Byte :=
  match tget? c.recs i with
  | none => zeros 248
  | some r => crateRecBytes r

/-- A crate image ahead of CHECK, CHECK, and what comes after it, with the value that CHECK holds given (R85). -/
def crateBytes (h id : Nat) (c : Crate) (check : Nat) : List Byte :=
  (leBytes 4 0x54524351 ++ leBytes 2 1 ++ leBytes 2 h ++ leBytes 4 id ++ zeros 4 ++ leBytes 8 c.csn
    ++ leBytes 8 ((c.recs.map fun e => 2 ^ e.1).foldl (· + ·) 0) ++ leBytes 8 c.dead ++ leBytes 4 c.rewrites ++ zeros 464)
  ++ leBytes 4 check ++ (List.range 64).flatMap (recImage c)

/-- The image of crate `id` of index `h` (R85). -/
def crateImage (h id : Nat) (c : Crate) : List Byte := crateBytes h id c (crc32c (crateBytes h id c 0))

/-- The checks of a crate read (R87): CHECK, MAGIC, LAYOUT, HANDLE and CRATE_ID. -/
def crateImageOk (h id : Nat) (bs : List Byte) : Bool :=
  bs.length == 16384 && checkOk 508 bs && field bs 0 4 == 0x54524351 && field bs 4 2 == 1 && field bs 6 2 == h && field bs 8 4 == id

end Sys2Proof.Machine
end

