-- ==== Sys2Proof/Machine/Ecc.lean ====
section
/-!
DEFINITION. What a DRAM codeword read does beside its data: counts, records, write-back, and the qualification of its row
for repair (R474–R476, R494).
-/
namespace Sys2Proof.Machine

/-- DRAM counters of a stack changed (R500). -/
def onDram (stack : Nat) (f : DramCounts → DramCounts) (s : State) : State :=
  onErr (fun e => { e with dram := smod dramCountsReset e.dram stack f }) s

/-- Key of a bank: stack, pseudo-channel of the stack, bank (R494). -/
def bankKey (stack pc bank : Nat) : Nat := (stack * 32 + pc) * 32 + bank

/-- A field-log entry appended; when 256 are there it is lost and a REPAIR_LOG record says so (R492). -/
def logRepair (r : Repair) (s : State) : State :=
  if s.err.field.length < 256 then onErr (fun e => { e with field := e.field ++ [r] }) s
  else fileRec (mkRec 0x29 0 0 (zeros 16)) s

/-- Whether a row has a repair entry already. -/
def rowListed (stack pc bank row : Nat) (s : State) : Bool :=
  (s.err.factory ++ s.err.field).any fun r =>
    r.kind == 8 && r.place == stack && r.logical == pc * 256 + bank && r.row == row

/-- A row that qualifies for repair (R494): its record, and a PENDING entry unless the bank has had four. -/
def qualifyRow (stack pc bank row unit : Nat) (s : State) : State :=
  if rowListed stack pc bank row s then s
  else
    let key := bankKey stack pc bank
    let used := sget (fun _ => 0) s.err.rowRepairs key
    let e := mkRec 0x28 0 1 (locDram stack pc bank 0 row unit)
    if 4 ≤ used then fileRec { e with refusedRepair := true } s
    else
      let (s, seq, _) := fileErr e none false s
      let s := onErr (fun x => { x with rowRepairs := sset (fun _ => 0) x.rowRepairs key (used + 1) }) s
      logRepair { kind := 8, origin := 2, state := 2, place := stack, logical := pc * 256 + bank, row := row,
                  cause := seq % 2 ^ 32 } s

/-- A codeword read once more: no read after a write-back is due any longer (R494). -/
def noteRead (p : MemPlace) (s : State) : State := onErr (fun e => { e with rewritten := e.rewritten.filter (· != p) }) s

/-- A codeword read and corrected (R474, R476): `n` bytes; with 2 or more it is written back. Its row qualifies for repair when this
is the first read after a write-back (R494). -/
def dramCorrected (stack pc bank row unit n : Nat) (s : State) : State :=
  let p : MemPlace := { stack := stack, pc := pc, bank := bank, row := row, unit := unit }
  let again := s.err.rewritten.contains p
  let s := onDram stack (fun d => { d with ce := wrap64 (d.ce + 1) }) (noteRead p s)
  let s := if 2 ≤ n then
      onErr (fun e => { e with rewritten := p :: e.rewritten }) (onDram stack (fun d => { d with fixed := wrap64 (d.fixed + 1) }) s)
    else s
  let s := fileRec (mkRec 0x10 1 1 (locDram stack pc bank n row unit)) s
  if again then qualifyRow stack pc bank row unit s else s

/-- A codeword declared uncorrectable (R475, R494), for a command when one needed it: the SEQ a command reports, and
whether the record was dropped. -/
def dramLost (cmd : Option Cmd) (stack pc bank row unit : Nat) (s : State) : State × Nat × Bool :=
  let s := onDram stack (fun d => { d with ue := wrap64 (d.ue + 1) })
    (noteRead { stack := stack, pc := pc, bank := bank, row := row, unit := unit } s)
  let e := mkRec 0x11 2 1 (locDram stack pc bank 0 row unit)
  let e := match cmd with
    | some k => cmdRec k e
    | none => e
  let (s, seq, dropped) := fileErr e none false s
  (qualifyRow stack pc bank row unit s, seq, dropped)

/-- The DRAM codewords that work for a command reads as `ecc` finds them at `p` (R474, R475): with one lost, the SEQ of its record and
whether it was dropped. -/
def dramRead (cmd : Option Cmd) (ecc : EccOutcome) (p : MemPlace) (s : State) : State × Option (Nat × Bool) :=
  match ecc with
  | .clean => (noteRead p s, none)
  | .corrected n => (dramCorrected p.stack p.pc p.bank p.row p.unit n s, none)
  | .uncorrectable =>
    let r := dramLost cmd p.stack p.pc p.bank p.row p.unit s
    (r.1, some r.2)

end Sys2Proof.Machine
end

