-- ==== Sys2Proof/Machine/StallBase.lean ====
section
/-!
DEFINITION. Access to stalls, stacks and pinned regions, and the jobs a stall holds: how they arrive, and how they leave when their
command ends (R194, R195, R198, R223); and the hub accesses that wait for a segment to end (R214).
-/
namespace Sys2Proof.Machine

/-- A stall. -/
def getStall (n : Nat) (s : State) : Stall := sget stallReset s.stk.stalls n

/-- A stall changed by `f`. -/
def onStall (n : Nat) (f : Stall → Stall) (s : State) : State :=
  onStk (fun x => { x with stalls := smod stallReset x.stalls n f }) s

/-- A stack. -/
def getStack (t : Nat) (s : State) : Stack := sget stackReset s.stk.stackSt t

/-- A stack changed by `f`. -/
def onStack (t : Nat) (f : Stack → Stack) (s : State) : State :=
  onStk (fun x => { x with stackSt := smod stackReset x.stackSt t f }) s

/-- Refresh debt of a pseudo-channel (R217). -/
def getDebt (n : Nat) (s : State) : Nat := sget (fun _ => 0) s.stk.debts n

/-- The refresh debt set. -/
def setDebt (n v : Nat) (s : State) : State := onStk (fun x => { x with debts := sset (fun _ => 0) x.debts n v }) s

/-- A DRAM region, if the handle names one. -/
def getRegion (h : Nat) (s : State) : Option Region := tget? s.ptn.regions h

/-- A DRAM region changed by `f`. -/
def onRegion (h : Nat) (f : Region → Region) (s : State) : State :=
  onPtn (fun x => { x with regions := tmod f x.regions h }) s

/-- A job of a stall changed by `f`. -/
def onJob (n jid : Nat) (f : Job → Job) (s : State) : State :=
  onStall n (fun x => { x with jobs := updWhere (·.jid == jid) f x.jobs }) s

/-- The job whose segment runs on a stall. -/
def runningJob (x : Stall) : Option Job := x.run.bind fun j => x.jobs.find? (·.jid == j)

/-- A stall without its running segment. -/
def noSegment (x : Stall) : Stall :=
  { x with run := none, segW := 0, endReq := false, opened := [], ropReady := false, paused := false,
           budgetWait := false }

/-- A job with its registers as R198 gives them. -/
def newJob (ref : CmdRef) (part ctx launch : Nat) (work : Work) : Job where
  jid := 0
  stamp := none
  gone := false
  ref := ref
  part := part
  ctx := ctx
  launch := launch
  work := work
  wins := []
  v := List.replicate 8 (List.replicate 32 0)
  a := List.replicate 4 (List.replicate 32 0)
  s := List.replicate 16 0
  pc := 0
  lastPc := 0
  mode := 0
  sat := false
  loads := []
  segs := 0
  acts := 0
  firstNs := none
  maxSegs := 0
  stop := false
  ended := none

/-- The 32 oldest jobs of a stall are held in it; one that enters goes to the end of the round robin (R195). -/
def seat (x : Stall) : Stall :=
  { x with jobs := x.jobs.zipIdx.map fun e => if e.2 < 32 then { e.1 with stamp := some (e.1.stamp.getD x.clock) } else e.1 }

/-- A job put at the end of a stall's arrivals (R195). -/
def addJob (n : Nat) (j : Job) (s : State) : State :=
  onStall n (fun x => seat { x with jobs := x.jobs ++ [{ j with jid := x.nextJid }], nextJid := x.nextJid + 1 }) s

/-- A job that leaves its stall (R195). -/
def removeJob (n jid : Nat) (s : State) : State :=
  onStall n (fun x => seat { x with jobs := x.jobs.filter (·.jid != jid) }) s

/-- A stall without the jobs of a command: one whose segment runs leaves at the end of it (R223). -/
def withoutJobs (c : CmdRef) (x : Stall) : Stall :=
  let mark : Job → Job := fun j => { j with gone := true }
  let jobs := x.jobs.filter fun j => j.ref != c || x.run == some j.jid
  seat { x with jobs := updWhere (fun j : Job => j.ref == c) mark jobs }

/-- Every job of a command ends at its next segment boundary (R223, R231). -/
def dropJobs (c : CmdRef) (s : State) : State :=
  (s.stk.stalls.map (·.1)).foldl (fun s n => onStall n (withoutJobs c) s) s

/-! Hub accesses (R214). -/

/-- An access to a row of the write set of a running segment: it waits at the stack interface, or in the hub behind the 16 there. -/
def holdAccess (n : Nat) (a : HubAccess) (s : State) : State :=
  let s := onStack (n / 32) (fun t => { t with wsWaits := wrap64 (t.wsWaits + 1) }) s
  onStall n (fun x => if x.wsq.length < 16 then { x with wsq := x.wsq ++ [a] } else { x with wsHub := x.wsHub ++ [a] }) s

/-- A hub access served at `ns`: what it writes is written, and its wait enters STK_HUB_WAIT_MAX (R236). -/
def serveAccess (n ns : Nat) (s : State) (a : HubAccess) : State :=
  let s := onStack (n / 32) (fun t => { t with hubWaitMax := max t.hubWaitMax (ns - a.since) }) s
  match a.write with
  | none => s
  | some (h, f, slot, v) => onIndex h (putFilterBit f slot v) s

/-- The write-set accesses of a pseudo-channel served at the end of a segment, at most 16; those that waited in the hub enter the
queue, where their bound begins. -/
def serveWriteSet (n ns : Nat) (s : State) : State :=
  let x := getStall n s
  let s := onStall n (fun x => { x with
    wsq := (x.wsHub.take 16).map (fun a => { a with since := ns }), wsHub := x.wsHub.drop 16 }) s
  x.wsq.foldl (serveAccess n ns) s

/-- Whether the segment of a derivation of filter slot `f` of an index runs on a stall: it writes the slot's rows there. -/
def derivesHere (h f n : Nat) (s : State) : Bool :=
  (runningJob (getStall n s)).any fun j => match j.work with
    | .derive g m _ _ => g == h && m == f
    | _ => false

/-- The bits of a new slot in the BUILDING filter slots of its index (R98, R162 step 3): a write to a row that a segment derives waits
for its end (R231). -/
def writeBuilding (h : Nat) (s : State) (slot : Nat) : State :=
  match getIndex h s with
  | none => s
  | some ix =>
    let n := slot / 8192 % 256
    let bit : Filter → Bool := fun x => filterRecipe (sget (fun _ => 0) ix.attrs slot) x.terms
    (ix.filters.filter fun e => e.2.state == .building).foldl (fun s e =>
      let row := (bitmapPlace ix (ix.desc.attrCount + e.1) (slot / 8192)).2
      if derivesHere h e.1 n s then
        holdAccess n { row := row, since := 1000 * timeUs s, write := some (h, e.1, slot, bit e.2) } s
      else onIndex h (putFilterBit e.1 slot (bit e.2)) s) s

end Sys2Proof.Machine
end

