-- ==== Sys2Proof/Machine/Search.lean ====
section
/-!
DEFINITION. The search pipeline: admission, distance table, walk, crate batches, rerank and selection (chapter 4; R139).
-/
namespace Sys2Proof.Machine

/-- P: the pool of a search (R103, R132). -/
def poolSize (p : SearchParams) : Nat :=
  let base := if 0 < p.d then p.d else p.k
  if p.isRange then max base 1024 else base

/-- F: the bytes of query working SRAM a query takes (R103). -/
def footprint (d : IndexDesc) (p : SearchParams) : Nat :=
  64 + 4 * d.m * centroids d + 8 * p.l + 4 * min 4096 (32 * p.l) + 8 * poolSize p + 2 * d.dim

/-- The footprint of an admitted query. -/
def queryBytes (q : Query) (s : State) : Nat :=
  match getIndex q.handle s with
  | none => 0
  | some ix => footprint ix.desc q.params

/-- Queries a walker holds (R135). -/
def walkerQueries (n : Nat) (s : State) : List Query := s.srch.queries.filter fun q => q.admittedIn && q.walker == n

/-- The free share of a walker in bytes (R104). -/
def walkerFree (n : Nat) (s : State) : Nat :=
  1572864 - ((walkerQueries n s).map (fun q => queryBytes q s)).foldl (· + ·) 0

/-- Free blocks of a walker's spill area (R113). -/
def spillFree (n : Nat) (s : State) : Nat := 4096 - ((walkerQueries n s).map (·.walk.blocks)).foldl (· + ·) 0

/-- Whether a partition's units serve a context: its gang runs (R332). DESIGN CHOICE (log 111): sub-searches of other nodes, which no
context holds, are served while the partition is neither quiescing nor QUIESCED. -/
def ctxRuns (p ctx : Nat) (s : State) : Bool :=
  let x := getPtn p s
  match tget? x.ctxs ctx with
  | some c => x.state == .running && c.gang == x.gang
  | none => ctx == 16 && (x.state == .running || x.state == .idle)

/-- The walker that admits a footprint: the one of the largest free share with room, the lower number on a tie (R104). -/
def pickWalker (p f : Nat) (s : State) : Option Nat :=
  ((livePairs p s).filter fun n => (walkerQueries n s).length < 512 && f ≤ walkerFree n s).foldl
    (fun (acc : Option Nat) n =>
      match acc with
      | none => some n
      | some m => if walkerFree m s < walkerFree n s then some n else some m) none

/-- A query admitted to a walker (R105): its snapshot, its generation, its filter reference, and the settings of WLK_CFG as they stand;
with BATCH_EN clear its requests wait for nothing (R119, R134). -/
def admitTo (n : Nat) (q : Query) (ix : Index) (s : State) : State :=
  let now := timeUs s
  let window := if !s.srch.batchEn then 0 else if q.params.windowUs = 0xFF then s.srch.windowDefault else q.params.windowUs
  let width := if q.params.width = 0 then s.srch.widthDefault else q.params.width
  let s := onQuery q.ref (fun q => { q with phase := .table, walker := n, snap := ix.csn, gen := ix.curGen,
                                            admitted := now,
                                            params := { q.params with windowUs := window, width := width } }) s
  let s := onIndex q.handle bindGen s
  let s := if q.params.useFilter then onIndex q.handle (modRefs (· + 1) q.params.filter) s else s
  onWlk q.part (fun c => { c with admitUs := wrap64 (c.admitUs + (now - q.fetched)) }) s

/-- What admission did undone when a query ends: batches, references, staging queues; the query leaves (R105, R120). -/
def dropQuery (c : CmdRef) (s : State) : State :=
  match getQuery c s with
  | none => s
  | some q =>
    let s := releaseRefs q (dropJobs c (withdrawReads c (leaveCache c s)))
    let s := onSel (fun x => { x with busy := x.busy.filter fun e => e.2 != .search c q.part }) s
    onSrch (fun x => { x with
      queries := x.queries.filter (·.ref != c)
      stageq := (x.stageq.map fun e => (e.1, e.2.filter (· != c))).filter fun e => !e.2.isEmpty }) s

/-! Results (R125–R129). -/

/-- A result entry of a search (R127). -/
def resultEntry (node : Nat) (exact : Bool) (e : W32 × Nat) : List Byte :=
  leBytes 4 e.2 ++ leBytes 2 node ++ zeros 2 ++ leBytes 4 e.1.toNat ++ leBytes 1 (b2n exact) ++ zeros 3

/-- An empty result entry (R128). -/
def emptyEntry : List Byte := resultEntry 0 false (f32inf, 0xFFFFFFFF)

/-- The statistics record (R129). -/
def statsRecord (q : Query) (found : Nat) : List Byte :=
  leBytes 1 q.term ++ zeros 3 ++ leBytes 4 q.walk.hops ++ leBytes 4 q.walk.codes ++ leBytes 4 q.hits
    ++ leBytes 4 q.joins ++ leBytes 4 q.reads ++ leBytes 4 q.exact.length ++ leBytes 4 q.walk.spilled
    ++ leBytes 4 (q.admitted - q.fetched) ++ leBytes 4 (q.walkEnd - q.admitted) ++ leBytes 4 (q.rerankEnd - q.walkEnd)
    ++ leBytes 4 q.gen ++ leBytes 4 found ++ leBytes 1 (if q.walk.lost = 0 then 0 else 1) ++ zeros 11

/-- The pool in the order of the results: by exact distance with D > 0, within RADIUS for RANGE (R125, R132). -/
def ranked (q : Query) : List (W32 × Nat) :=
  let l := if 0 < q.params.d then
      sortBy distLt (q.walk.pool.zipIdx.map fun e => ((tget? q.exact e.2).getD f32inf, e.1.2))
    else q.walk.pool
  if q.params.isRange then l.filter fun e => f32le e.1 q.params.radius else l

/-- FOUND of a finished query (R129, R132). -/
def foundOf (q : Query) : Nat :=
  if q.params.isRange && 0 < q.params.d then (ranked q).length else q.walk.found

/-- The k best of a query. -/
def bestOf (q : Query) : List (W32 × Nat) := (ranked q).take q.params.k

/-- Status and COUNT of a finished query (R128, R132). -/
def searchStatus (q : Query) : Nat × Nat :=
  let n := (bestOf q).length
  if q.params.isRange && q.params.k < foundOf q then (stOverflow, foundOf q)
  else if n = q.params.k then (stOk, n)
  else (stPartial, n)

/-- The result buffer of a finished query (R127, R128). -/
def searchResult (node : Nat) (q : Query) : List Byte :=
  let best := (bestOf q).map (resultEntry node (0 < q.params.d))
  (best ++ List.replicate (q.params.k - best.length) emptyEntry).flatten
    ++ if q.params.stats then statsRecord q (foundOf q) else []

/-- A query ended by a failure with a record (R133): UNCORRECTABLE with its SEQ. DESIGN CHOICE (log 114): with STATS its result buffer
takes k empty entries and the statistics record, in which TERM is ERROR (R126); without, nothing is written. -/
def failQuery (c : CmdRef) (seq : Nat) (dropped : Bool) (s : State) : State :=
  match getQuery c s with
  | none => s
  | some q =>
    let q := { q with term := 4 }
    let result := if q.params.stats then (List.replicate q.params.k emptyEntry).flatten ++ statsRecord q (foundOf q) else []
    completeRecData c stUncorrectable 0 seq dropped result (dropQuery c s)

/-- A query ended with a status and nothing more. -/
def endQuery (c : CmdRef) (st : Nat) (s : State) : State :=
  completeSt c st (dropQuery c s)

/-- The head of a partition's admission list among the contexts whose gang runs (R104, R332). -/
def admissionHead (p : Nat) (s : State) : Option Query :=
  s.srch.queries.find? fun q => q.part == p && q.phase == .waiting && ctxRuns p q.ctx s

/-- One admission (R104, R105): the head of the list to the walker of R104, held while that is gated (R23), or refused when its
filter slot was cleared. -/
def admitQuery (p : Nat) (s : State) : State :=
  match admissionHead p s with
  | none => s
  | some q =>
    match getIndex q.handle s with
    | none => s
    | some ix =>
      match pickWalker p (footprint ix.desc q.params) s with
      | none => s
      | some n =>
        if q.params.useFilter && (getFilter ix q.params.filter).state != .ready then endQuery q.ref stRefused s
        else if unitAwake .walker n s then admitTo n q ix s else s

/-- Whether a query may act: admitted, not parked (R107). -/
def queryRuns (q : Query) : Bool := q.admittedIn && !q.parked

/-- Whether the walker of a query may work on it: it is powered too (R23). -/
def walkerActs (q : Query) (s : State) : Bool := queryRuns q && unitAwake .walker q.walker s

/-- The distance table of a query complete (R108). -/
def completeTable (c : CmdRef) (s : State) : State :=
  match getQuery c s with
  | none => s
  | some q =>
    match getIndex q.handle s with
    | none => s
    | some ix =>
      if walkerActs q s && q.phase == .table then
        let t := distTable ix.desc (bookOf ix q.gen) (queryElems ix.desc q.vec)
        onQuery c (fun q => { q with table := t, phase := .descent }) s
      else s

/-- What a query's walk sees (R116, R131, R132). -/
def viewOf (q : Query) (ix : Index) (s : State) : View where
  ix := ix
  snap := q.snap
  td := ix.desc.traverseDead
  filter := if q.params.useFilter then some q.params.filter else none
  prune := q.params.prune
  table := q.table
  l := q.params.l
  pool := poolSize q.params
  hopLimit := q.params.hopLimit
  range := if q.params.isRange then some (q.params.radius, q.params.expandRadius) else none
  blocks := q.walk.blocks + spillFree q.walker s
  image := q.frame.map (·.2)
  extra := []

/-- Counters of a step of a walk (R136). -/
def countWalk (p : Nat) (a b : Walk) (s : State) : State :=
  onWlk p (fun c => { c with expansions := wrap64 (c.expansions + (b.hops - a.hops)),
                             codes := wrap64 (c.codes + (b.codes - a.codes)),
                             visitSpills := wrap64 (c.visitSpills + (b.spilled - a.spilled)),
                             visitLost := wrap64 (c.visitLost + (b.lost - a.lost)) }) s

/-- WALK ends (R126): to RERANK with D > 0, on the stalls that the partition then owns (R122), else to SELECT. -/
def endWalk (c : CmdRef) (term : Nat) (s : State) : State :=
  let now := timeUs s
  let next : Query → Query := fun q =>
    { q with term := term, walkEnd := now, rerankEnd := now, stalls := liveStalls q.part s,
             phase := if 0 < q.params.d ∧ q.walk.pool ≠ [] then .rerank else .select }
  onQuery c next s

/-- The queries that hold a reference to the VALID frame of a crate (R91): those of the index whose reference no RETIRING frame has. -/
def frameRefs (h crate : Nat) (ix : Index) (s : State) : List CmdRef :=
  ((s.srch.queries.filter fun q => q.handle == h && (q.frame.map (·.1)) == some crate).map (·.ref)).filter fun c =>
    !ix.retiring.any fun e => e.1 == crate && e.2.contains c

/-- The VALID frames of an index that no walker refers to: eviction may take them (R91). -/
def evictable (h : Nat) (ix : Index) (s : State) : List Nat :=
  (ix.frames.filter fun e => !e.2 && (frameRefs h e.1 ix s).isEmpty).map (·.1)

/-- Frames in use: listed in the directory, RETIRING, or held by an overtaken fill (R89, R90). -/
def usedFrames (ix : Index) : Nat := ix.frames.length + ix.retiring.length + ix.orphans.length

/-- The available frames of an index: FREE ones, and VALID ones without references (R91). -/
def availableFrames (h : Nat) (ix : Index) (s : State) : Nat :=
  (ix.desc.cacheFrames - usedFrames ix) + (evictable h ix s).length

/-- A frame made FREE for a claim, unless one is: a VALID one without references, that a free value picks among those of crates other
than `keep` (R91). `none` when no frame is available. -/
def makeRoom (h : Nat) (keep : Option Nat) (s : State) : Option State :=
  match getIndex h s with
  | none => none
  | some ix =>
    if usedFrames ix < ix.desc.cacheFrames then some s
    else
      let l := (evictable h ix s).filter fun c => keep != some c
      match l[(Config.freeValue s.free).toNat % l.length]? with
      | none => none
      | some victim => some (takeFree 1 (onIndex h (fun ix => { ix with frames := tdel ix.frames victim }) s))

/-- A frame claimed for the fill of a crate (R91), if one is available. -/
def claimFrame (h crate : Nat) (s : State) : Option State :=
  (makeRoom h none s).map (onIndex h fun ix => { ix with frames := tput ix.frames crate true })

/-- One crate request of a query (R118): a hit, a join of a fill, or a miss that opens a batch; a prefetch claims a
frame only while more than 65,536 are available. -/
def requestCrate (c : CmdRef) (demand : Bool) (s : State) (crate : Nat) : State :=
  match getQuery c s with
  | none => s
  | some q =>
    match getIndex q.handle s with
    | none => s
    | some ix =>
      let req : BatchReq := { ref := c, joined := timeUs s, windowUs := q.params.windowUs }
      match tget? ix.frames crate with
      | some false =>
        if q.requests.contains crate then s
        else
          let s := onQuery c (fun q => { q with requests := crate :: q.requests, hits := q.hits + 1 }) s
          onWlk q.part (fun c => { c with crateHits := wrap64 (c.crateHits + 1) }) s
      | some true =>
        let mine := s.srch.batches.any fun b => b.handle == q.handle && b.crate == crate && b.reqs.any (·.ref == c)
        if mine then s
        else
          let join : Batch → Batch := fun b => { b with reqs := b.reqs ++ [req] }
          let hit : Batch → Bool := fun b => b.handle == q.handle && b.crate == crate
          let s := onSrch (fun x => { x with batches := updWhere hit join x.batches }) s
          let s := onQuery c (fun q => { q with requests := crate :: q.requests.erase crate, joins := q.joins + 1 }) s
          onWlk q.part (fun c => { c with crateJoins := wrap64 (c.crateJoins + 1) }) s
      | none =>
        if demand || 65536 < availableFrames q.handle ix s then
          match claimFrame q.handle crate s with
          | none => s
          | some s =>
            let b : Batch := { handle := q.handle, crate := crate, reqs := [req], opener := some c, issued := false }
            let s := onSrch (fun x => { x with batches := x.batches ++ [b] }) s
            onQuery c (fun q => { q with requests := crate :: q.requests.erase crate }) s
        else s

/-- Whether an entry counts as expanded: it is, or it lies beyond EXPAND_RADIUS of a RANGE whose pool holds a slot within RADIUS
(R132). -/
def countsExpanded (q : Query) (e : Cand) : Bool :=
  e.expanded || (q.params.isRange && (q.walk.pool.any fun p => f32le p.1 q.params.radius) && !f32le e.dist q.params.expandRadius)

/-- The requests of a step: the EXPAND_WIDTH nearest unexpanded entries, the first of them on demand (R118). -/
def requestCrates (c : CmdRef) (s : State) : State :=
  match getQuery c s with
  | none => s
  | some q =>
    match (q.walk.cands.filter fun e => !countsExpanded q e).take (max 1 q.params.width) with
    | [] => s
    | e :: es =>
      let s := requestCrate c true s (e.slot / 64)
      (es.map (·.slot / 64)).foldl (requestCrate c false) s

/-- The reference to the frame of a crate taken, once it is VALID: the walker reads the image that is in it now (R90, R118). -/
def takeFrame (c : CmdRef) (crate : Nat) (s : State) : State :=
  match (getQuery c s).bind fun q => getIndex q.handle s with
  | none => s
  | some ix =>
    if tget? ix.frames crate = some false then
      onQuery c (fun q => { q with frame := some (crate, crateOf ix crate), requests := q.requests.erase crate }) s
    else s

/-- The expansion of the entry in hand from the image held, and its reference released (R115, R166). -/
def expandHeld (c : CmdRef) (q : Query) (ix : Index) (s : State) : State :=
  let w := expand (viewOf q ix s) q.walk (q.next.getD 0)
  countWalk q.part q.walk w (releaseFrame c (onQuery c (fun q => { q with walk := w, next := none }) s))

/-- The crate of the entry in hand, once it is in a VALID frame: its reference is taken and, unless the event ends there (`mid`), the
entry is expanded (R115, R118). -/
def useFrame (c : CmdRef) (mid : Bool) (crate : Nat) (s : State) : State :=
  let s := takeFrame c crate s
  match if mid then none else getQuery c s with
  | none => s
  | some q =>
    match q.frame, getIndex q.handle s with
    | some _, some ix => expandHeld c q ix s
    | _, _ => s

/-- A step of a walk (R115): at its top it ends, or an entry is chosen and its crates asked for; then, once the crate is in a VALID
frame, the entry is expanded from it. -/
def walkOn (c : CmdRef) (mid : Bool) (q : Query) (ix : Index) (s : State) : State :=
  match q.frame, q.next with
  | some _, _ => expandHeld c q ix s
  | none, some slot => useFrame c mid (slot / 64) (requestCrate c true s (slot / 64))
  | none, none =>
    let spent := q.params.budgetUs != 0 && q.admitted + q.params.budgetUs ≤ timeUs s
    match walkTop (viewOf q ix s) q.walk spent with
    | .inl term => endWalk c term s
    | .inr e => useFrame c mid (e.slot / 64) (requestCrates c (onQuery c (fun q => { q with next := some e.slot }) s))

/-- One step of a query in DESCENT or WALK, with the code, upper-record and bitmap codewords that it reads as `ecc` finds them (R111,
R115, R133). DESIGN CHOICE (log 115): `mid` says that the event ends while the walker holds its reference to a frame. -/
def walkStep (c : CmdRef) (mid : Bool) (ecc : EccOutcome) (p : MemPlace) (s : State) : State :=
  match getQuery c s with
  | none => s
  | some q =>
    match getIndex q.handle s with
    | none => s
    | some ix =>
      if !walkerActs q s || !(q.phase == .descent || q.phase == .walk) then s
      else match dramRead (findCmd c s) ecc p s with
        | (s, some (seq, dropped)) => failQuery c seq dropped s
        | (s, none) =>
          if q.phase == .walk then walkOn c mid q ix s
          else if ix.entry.isNone then
            let now := timeUs s
            onQuery c (fun q => { q with phase := .select, term := 0, walkEnd := now, rerankEnd := now }) s
          else
            let w := (descend (viewOf q ix s) q.params.policy q.params.seeds).1
            countWalk q.part walkEmpty w (onQuery c (fun q => { q with walk := w, phase := .walk }) s)

/-- A batch's read issues at the earliest t_join + W of its requests (R119). -/
def issueBatch (h crate : Nat) (s : State) : State :=
  match s.srch.batches.find? fun b => b.handle == h && b.crate == crate && !b.issued with
  | none => s
  | some b =>
    if b.reqs.any (fun r => r.joined + r.windowUs ≤ timeUs s) then
      let mark : Batch → Batch := fun b => { b with issued := true }
      let hit : Batch → Bool := fun b => b.handle == h && b.crate == crate
      let s := onSrch (fun x => { x with batches := updWhere hit mark x.batches }) s
      let s := match b.opener with
        | some c => onQuery c (fun q => { q with reads := q.reads + 1 }) s
        | none => s
      match getIndex h s with
      | none => s
      | some ix =>
        submitRead ix.desc.part (.crate h crate) (ix.crateBase + crate)
          (onWlk ix.desc.part (fun c => { c with crateReads := wrap64 (c.crateReads + 1) }) s)
    else s

/-- A CRATE_CHECK or FLASH_UE record for a crate's logical page (R87, R426, R480). -/
def crateRec (outcome : ReadOutcome) (part page : Nat) (s : State) : Rec :=
  let c := copyOf page s
  { mkRec (if outcome = .uncorrectable then 0x19 else 0x18) 2 4 (locFlash page c.1 c.2 0xFF) with part := part }

/-- The crate a query is about to expand (R118). -/
def neededCrate (q : Query) : Option Nat := if q.phase = .walk then q.next.map (· / 64) else none

/-- A crate noted as one whose image fails the checks: the failure persists, on flash too (R87). -/
def markFailed (h crate : Nat) (s : State) : State :=
  let mark : Index → Index := fun ix => { ix with failed := if ix.failed.contains crate then ix.failed else crate :: ix.failed }
  onMut (fun m => { m with kept := tmod mark m.kept h, published := m.published.map fun p =>
    if p.handle == h then { p with index := mark p.index } else p }) (onIndex h mark s)

/-- The read of a batch fails: the queries that need the crate end UNCORRECTABLE, the others go on, and the crate is not
cached (R87, R133). `filed` is the record of a read that was uncorrectable; a failed check files its own, and stays. -/
def crateFails (h crate : Nat) (filed : Option (Nat × Bool)) (s : State) : State :=
  match getIndex h s with
  | none => s
  | some ix =>
    let (s, seq, dropped) := match filed with
      | some r => (s, r)
      | none => fileErr (crateRec .checkFail ix.desc.part (ix.crateBase + crate) s) none false s
    let needs := s.srch.queries.filter fun q => q.handle == h && queryRuns q && neededCrate q == some crate
    let others : Query → Query := fun q => { q with requests := q.requests.erase crate }
    let s := onSrch (fun x => { x with
      batches := x.batches.filter fun b => !(b.handle == h && b.crate == crate)
      queries := updWhere (fun q : Query => q.handle == h) others x.queries }) s
    let s := onIndex h (fun ix => { ix with frames := tdel ix.frames crate }) s
    let s := if filed.isSome then s else markFailed h crate s
    needs.foldl (fun s q => failQuery q.ref seq dropped s) s

/-- The read of a crate, ended at its LUN, is delivered (R87, R90): the fill becomes VALID, an overtaken fill frees its
frame, a failure ends the queries that wait. `checksOk` says that the image passes its checks; a crate that failed them
once fails them for good (R87). -/
def crateArrives (h crate : Nat) (checksOk : Bool) (s : State) : State :=
  match takeArrived (fun w => w == .crate h crate) s with
  | none => s
  | some (a, s) =>
    match getIndex h s with
    | none => s
    | some ix =>
      match s.srch.batches.find? fun b => b.handle == h && b.crate == crate && b.issued with
      | none => onIndex h (fun ix => { ix with orphans := ix.orphans.erase crate }) s
      | some _ =>
        if a.bad.isSome then crateFails h crate a.bad s
        else if !checksOk || ix.failed.contains crate then crateFails h crate none s
        else
          let s := onSrch (fun x => { x with batches := x.batches.filter fun b => !(b.handle == h && b.crate == crate) }) s
          onIndex h (fun ix => { ix with frames := tput ix.frames crate false }) s

/-! Rerank (R122–R124). -/

/-- The stall that serves pool entry `i` of a query: the (i mod S)-th that its partition owned as RERANK began (R122). -/
def rerankStall (q : Query) (i : Nat) : Option Nat := q.stalls[i % q.stalls.length]?

/-- Staging a query holds at a stall (R123): its entries read and not yet computed, and the copy of its vector. DESIGN CHOICE (log 112):
the copy takes its place with the first of those entries and leaves with the last. -/
def stagedBytes (q : Query) (stall : Nat) (s : State) : Nat :=
  match getIndex q.handle s with
  | none => 0
  | some ix =>
    let mine := q.issued.filter fun i => rerankStall q i == some stall
    if mine.isEmpty then 0 else 2 * ix.desc.dim + mine.length * vecBytes ix.desc

/-- Staging that the steps of STALL layers take at a stall (R122, R287). -/
def layerStaged (stall : Nat) (s : State) : Nat :=
  (s.til.runs.map fun r =>
    (r.steps.map fun e => if e.2.stalls.contains stall then e.2.stage else 0).foldl (· + ·) 0).foldl (· + ·) 0

/-- Staging in use at a stall (R123). -/
def stallStaged (stall : Nat) (s : State) : Nat :=
  (s.srch.queries.map fun q => if q.phase == .rerank then stagedBytes q stall s else 0).foldl (· + ·) 0 + layerStaged stall s

/-- Whether entry `i` is the next of its stall to be read: every lower entry of the same stall has issued (R123). -/
def rerankNext (q : Query) (i : Nat) : Bool :=
  i < q.walk.pool.length && !q.issued.contains i && (tget? q.exact i).isNone &&
    (List.range i).all fun j =>
      rerankStall q j != rerankStall q i || q.issued.contains j || (tget? q.exact j).isSome

/-- A rerank read issues when staging has room for it, first come first served at the stall (R123). -/
def issueRerank (c : CmdRef) (i : Nat) (s : State) : State :=
  match getQuery c s with
  | none => s
  | some q =>
    match getIndex q.handle s, rerankStall q i with
    | some ix, some st =>
      if queryRuns q && q.phase == .rerank && rerankNext q i then
        let held := stagedBytes q st s
        let need := vecBytes ix.desc + if held = 0 then 2 * ix.desc.dim else 0
        let waiting := sget (fun _ => []) s.srch.stageq st
        let first : Bool := match waiting with
          | [] => true
          | w :: _ => w == c
        if held + need ≤ 262144 ∧ stallStaged st s + need ≤ 1048576 ∧ first then
          let s := onSrch (fun x => { x with stageq := sset (fun _ => []) x.stageq st (waiting.filter (· != c)) }) s
          let s := onQuery c (fun q => { q with issued := q.issued ++ [i] }) s
          let slot := (q.walk.pool.getD i (0#32, 0)).2
          submitRerank q.part c i (ix.vecBase + slot / vecsPerPage ix.desc)
            (onWlk q.part (fun c => { c with rerankReads := wrap64 (c.rerankReads + 1) }) s)
        else if waiting.contains c ∨ 262144 < held + need then s
        else onSrch (fun x => { x with stageq := sset (fun _ => []) x.stageq st (waiting ++ [c]) }) s
      else s
    | _, _ => s

/-- Lane sums of R124: element x to lane x mod 32, each lane accumulating in ascending x. -/
def laneSums (terms : List W32) : List W32 :=
  (List.range 32).map fun lane =>
    f32sum ((terms.zipIdx.filter fun t => t.2 % 32 == lane).map (·.1))

/-- The fixed pairwise tree over lanes (R124). -/
def treeSum : Nat → List W32 → W32
  | 0, xs => xs.getD 0 0#32
  | n + 1, xs => treeSum n ((chunks 2 (xs.length / 2) xs).map fun p => f32add (p.getD 0 0#32) (p.getD 1 0#32))

/-- Σ in lanes and tree (R124). -/
def laneSum (terms : List W32) : W32 := treeSum 5 (laneSums terms)

/-- The exact distance of a query and a stored vector (R124). -/
def exactDistance (metric : Nat) (q v : List W32) : W32 :=
  match metric with
  | 0 => laneSum (List.zipWith sqDiff q v)
  | 1 => f32neg (laneSum (List.zipWith f32mul q v))
  | _ =>
    let vv := laneSum (List.zipWith f32mul v v)
    if (f32v vv).isZero then f32one
    else f32sub f32one (f32div (laneSum (List.zipWith f32mul q v))
      (f32sqrt (f32mul (laneSum (List.zipWith f32mul q q)) vv)))

/-- RERANK ends once every pool entry has its exact distance (R106). -/
def rerankDone (now : Nat) (q : Query) : Query :=
  if q.exact.length = q.walk.pool.length then { q with phase := .select, rerankEnd := now } else q

/-- The entry that a stall computes next for a query: the lowest of its entries that has no exact distance yet (R122). -/
def nextEntry (q : Query) (n : Nat) : Option Nat :=
  (List.range q.walk.pool.length).find? fun i => rerankStall q i == some n && (tget? q.exact i).isNone

/-- Activations that the rerank of one entry takes. DESIGN CHOICE (log 113): one for each KiB of its vector in staging. -/
def entryActs (ix : Index) : Nat := (vecBytes ix.desc + 1023) / 1024

/-- Whether a stall holds a rerank job of a command. -/
def hasRerank (c : CmdRef) (x : Stall) : Bool :=
  x.jobs.any fun j => j.ref == c && !j.gone && (match j.work with
    | .rerank _ => true
    | _ => false)

/-- The rerank job of a query on a stall, made when its first vector arrives there (R122, R194). -/
def startRerank (q : Query) (ix : Index) (n : Nat) (s : State) : State :=
  if hasRerank q.ref (getStall n s) then s else addJob n (newJob q.ref q.part q.ctx 0 (.rerank (entryActs ix))) s

/-- A full-vector read, ended at its LUN, is delivered into staging, where the stall of the entry finds it; a read that a parking
overtook only gives its staging back; a read that is uncorrectable ends the query (R107, R122, R123, R133). -/
def rerankArrives (c : CmdRef) (i : Nat) (s : State) : State :=
  match getQuery c s, takeEntry c i s with
  | some q, some (a, t) =>
    if !(q.phase == .rerank && !q.chosen && q.issued.contains i) then s
    else if q.stale.contains i then
      onQuery c (fun q => { q with issued := q.issued.erase i, stale := q.stale.erase i }) t
    else
      match getIndex q.handle t, a.bad with
      | none, _ => t
      | some _, some (seq, dropped) => failQuery c seq dropped t
      | some ix, none =>
        let t := onQuery c (fun q => { q with staged := q.staged ++ [i] }) t
        match rerankStall q i with
        | none => t
        | some n => startRerank q ix n t
  | _, _ => s

/-- The exact distance of an entry computed by its stall, and its staging released (R122–R124). -/
def computeEntry (c : CmdRef) (i : Nat) (s : State) : State :=
  match getQuery c s with
  | none => s
  | some q =>
    match getIndex q.handle s with
    | none => s
    | some ix =>
      let slot := (q.walk.pool.getD i (0#32, 0)).2
      let d := exactDistance ix.desc.metric (queryElems ix.desc q.vec) (vecElems ix.desc ((tget? ix.vectors slot).getD []))
      let now := timeUs s
      onQuery c (fun q => rerankDone now { q with
        issued := q.issued.erase i, staged := q.staged.erase i, exact := tput q.exact i d }) s

/-- A query parked (R107, R120, R123): it leaves the crate cache, its rerank gives back the staging of the vectors that have arrived,
and the reads in flight will give theirs back as they end. -/
def parkQuery (q : Query) (s : State) : State :=
  match q.phase with
  | .waiting | .select => s
  | _ =>
    let park : Query → Query := fun q =>
      let flying := q.issued.filter fun i => !q.staged.contains i
      { q with parked := true, issued := flying, stale := flying, staged := [] }
    let s := onSrch (fun x => { x with stageq := (x.stageq.map fun e => (e.1, e.2.filter (· != q.ref))).filter fun e => !e.2.isEmpty }) s
    onQuery q.ref park (leaveCache q.ref s)

/-- The queries of a partition that `sel` chooses parked. -/
def parkQueries (p : Nat) (sel : Query → Bool) (s : State) : State :=
  (s.srch.queries.filter fun q => q.part == p && sel q).foldl (fun s q => parkQuery q s) s

/-- The queries of a partition that `sel` chooses go on where they stopped (R107). -/
def resumeQueries (p : Nat) (sel : Query → Bool) (s : State) : State :=
  let wake : Query → Query := fun q => { q with parked := false }
  onSrch (fun x => { x with queries := updWhere (fun q : Query => q.part == p && sel q) wake x.queries }) s

/-! Selection (R125–R128, R139). -/

/-- The selector of a search whose walker is `w` (R139, R157): 4q of its quadrant, else of the next quadrants in turn; with SHARE
set, any other. -/
def searchSelector (w : Nat) (s : State) : Option Nat :=
  let own := (List.range 4).map fun i => 4 * ((w / 16 + i) % 4)
  (own ++ if s.sel.share then List.range 16 else []).find? fun n => !outOfService .selector n s

/-- The selector that works on the selection of a search. -/
def selectorOf (c : CmdRef) (s : State) : Option Nat :=
  (s.sel.busy.find? fun e => match e.2 with
    | .search x _ => x == c
    | .row _ _ => false).map (·.1)

/-- A selector is free again. -/
def freeSel (n : Nat) (s : State) : State := onSel (fun x => { x with busy := tdel x.busy n }) s

/-- Whether a query waits for its selection (R125). -/
def awaitsSelection (q : Query) (s : State) : Bool :=
  queryRuns q && q.phase == .select && !q.chosen && (selectorOf q.ref s).isNone

/-- The selection of a query made, and its completion (R125–R128, R139). -/
def chooseResults (c : CmdRef) (q : Query) (resultOk : Bool) (s : State) : State :=
  let (st, count) := searchStatus q
  let result := searchResult s.nodeId q
  finish c resultOk st count q.snap result (if resultOk then onQuery c (fun q => { q with chosen := true }) s else dropQuery c s)

/-- The selection of a query on its selector (R137, R139): held while that is gated or has work in progress. DESIGN CHOICE (log 115):
`mid` says that the event ends with the selection in progress. -/
def selectSearch (c : CmdRef) (mid resultOk : Bool) (s : State) : State :=
  match getQuery c s with
  | none => s
  | some q =>
    if !(queryRuns q && q.phase == .select && !q.chosen) then s
    else match selectorOf c s with
    | some n => if mid then s else chooseResults c q resultOk (freeSel n s)
    | none =>
      match searchSelector q.walker s with
      | none => endQuery c stNoResource s
      | some n =>
        if !unitAwake .selector n s || (tget? s.sel.busy n).isSome then s
        else if mid then onSel (fun x => { x with busy := tput x.busy n (.search c q.part) }) s
        else chooseResults c q resultOk s

/-! Rows. -/

/-- DISTANCE_TABLE_COMPLETE (R108). -/
def execDistanceTableComplete (c : CmdRef) (s : State) : Host.Outcome State Fault Refusal := .next (completeTable c s)

/-- CRATE_BATCH_ISSUE (R119). -/
def execCrateBatchIssue (handle crate : Nat) (now : Nat) (s : State) : Host.Outcome State Fault Refusal :=
  .next (issueBatch handle crate (atTime now s))

/-- RERANK_READ_ISSUE (R123). -/
def execRerankReadIssue (c : CmdRef) (i : Nat) (s : State) : Host.Outcome State Fault Refusal := .next (issueRerank c i s)

end Sys2Proof.Machine
end

