-- ==== Sys2Proof/Machine/SearchStart.lean ====
section
/-!
DEFINITION. The start of a search: its parameters, the checks in the order of R554, and its entry into the admission list
(R104, R130–R132).
-/
namespace Sys2Proof.Machine

/-- Whether an FP32 field is finite (R131). -/
def f32fin (n : Nat) : Bool := (fdecode fp32 n).isFin

/-- The parameters of a search as its 24 bytes give them; WINDOW_US and EXPAND_WIDTH keep their defaults' codes until
admission (R131, R134). -/
def parseSearch (op : Nat) (ps : List Byte) (seeds : List Nat) : SearchParams where
  l := field ps 0 2
  k := field ps 2 2
  d := field ps 4 2
  hopLimit := if field ps 6 2 = 0 then 8 * field ps 0 2 else field ps 6 2
  policy := field ps 8 1
  seeds := seeds
  windowUs := field ps 10 1
  width := field ps 11 1
  useFilter := bit (field ps 12 1) 5
  filter := bits (field ps 12 1) 3 0
  prune := bit (field ps 12 1) 4
  stats := bit (field ps 13 1) 0
  budgetUs := field ps 14 2
  isRange := op == 3
  radius := BitVec.ofNat 32 (field ps 16 4)
  expandRadius := BitVec.ofNat 32 (field ps 20 4)

/-- The packet check of a search (R6, R51, R127, R131): RESULT_LEN and the reserved bits, which a sub-search meets here (R372), and
a parameter block of 64 bytes with the rest reserved. -/
def searchPacketBad (k : Cmd) (ps : List Byte) : Bool := blockBad k ps || paramsBad k ps

/-- The ranges of R131. -/
def searchRangeBad (op : Nat) (ps : List Byte) : Bool :=
  let l := field ps 0 2
  let k := field ps 2 2
  let d := field ps 4 2
  let policy := field ps 8 1
  let seeds := field ps 9 1
  let filter := field ps 12 1
  l < 16 || 1024 < l || k < 1 || 1024 < k || (d == 0 && l < k) || (d != 0 && (d < k || 4096 < d))
    || 2 < policy || (if policy = 2 then seeds < 1 || 16 < seeds else seeds != 0)
    || (200 < field ps 10 1 && field ps 10 1 != 0xFF) || 8 < field ps 11 1
    || (!bit filter 5 && filter != 0) || (op == 1 && filter != 0) || (op == 2 && !bit filter 5)
    || (if op = 3 then
          !f32fin (field ps 16 4) || !f32fin (field ps 20 4)
            || fltV (fdecode fp32 (field ps 20 4)) (fdecode fp32 (field ps 16 4))
        else field ps 16 8 != 0)

/-- The query vector of an input (R130). -/
def queryVec (dim : Nat) (inp : List Byte) : List W16 :=
  (List.range dim).map fun x => BitVec.ofNat 16 (field inp (2 * x) 2)

/-- The seeds of an input (R111, R130). -/
def querySeeds (dim n : Nat) (inp : List Byte) : List Nat := (List.range n).map fun i => field inp (2 * dim + 4 * i) 4

/-- The input checks of a search (R130, R131). -/
def searchInputBad (d : IndexDesc) (ps inp : List Byte) : Bool :=
  let n := field ps 9 1
  let q := (queryVec d.dim inp).map fun w => fdecode (if d.vecFormat = 1 then bf16 else fp16) w.toNat
  inp.length != 2 * d.dim + 4 * n || q.any (!·.isFin) || (d.metric == 2 && q.all (·.isZero))
    || (querySeeds d.dim n inp).any (d.slotCount ≤ ·)
    || (bit (field ps 12 1) 5 && d.filterCount ≤ bits (field ps 12 1) 3 0)

/-- The checks of a search that need no input, in the order of R554; BUSY while a walker, tally unit or stall of the partition
awaits a spare (R133, R341). -/
def searchEarly (op : Nat) (k : Cmd) (ps : List Byte) (s : State) : Verdict :=
  if searchPacketBad k ps || searchRangeBad op ps then .fail stBadParam 0
  else forIndex k s fun ix =>
    let p := ix.desc.part
    firstFail [
      (ix.mounting, stBusy),
      (awaitsSpare (if field ps 4 2 = 0 then [.walker, .tally] else [.walker, .tally, .stall]) p s, stBusy),
      ((livePairs p s).isEmpty, stRefused),
      (field ps 4 2 != 0 && (liveStalls p s).isEmpty, stRefused),
      (k.dataLen != 2 * ix.desc.dim + 4 * field ps 9 1, stBadParam)]

/-- The checks of a search on its own node, in the order of R554. -/
def searchCheck (op : Nat) (k : Cmd) (ps inp : List Byte) (s : State) : Verdict :=
  (searchEarly op k ps s).andThen (forIndex k s fun ix =>
    firstFail [
      (searchInputBad ix.desc ps inp, stBadParam),
      (ix.curGen == 0, stRefused),
      (bit (field ps 12 1) 5 && (getFilter ix (bits (field ps 12 1) 3 0)).state != .ready, stRefused)])

/-- A query in state WAITING (R104, R106). -/
def newQuery (c : CmdRef) (part ctx handle fetched : Nat) (p : SearchParams) (vec : List W16) : Query where
  ref := c
  part := part
  ctx := ctx
  handle := handle
  params := p
  vec := vec
  phase := .waiting
  parked := false
  walker := 0
  snap := 0
  gen := 0
  table := []
  walk := walkEmpty
  term := 0
  fetched := fetched
  admitted := 0
  walkEnd := 0
  rerankEnd := 0
  next := none
  frame := none
  requests := []
  hits := 0
  joins := 0
  reads := 0
  stalls := []
  issued := []
  staged := []
  stale := []
  exact := []
  chosen := false

/-- Place of a command among the fetched ones: fetch order. -/
def fetchPlace (c : CmdRef) (s : State) : Nat := (earlier c s.host.cmds).length

/-- A search enters its partition's admission list (R104). -/
def enterAdmission (op : Nat) (k : Cmd) (ps inp : List Byte) (s : State) : State :=
  match getIndex k.handle s with
  | none => s
  | some ix =>
    let p := parseSearch op ps (querySeeds ix.desc.dim (field ps 9 1) inp)
    let q := newQuery k.ref (cmdPart k) k.queue.q k.handle k.fetched p (queryVec ix.desc.dim inp)
    let before : Query → Query → Bool := fun a b => fetchPlace a.ref s < fetchPlace b.ref s
    onSrch (fun x => { x with queries := ordInsert before q x.queries }) s

end Sys2Proof.Machine
end

