-- ==== Sys2Proof/Machine/Mutation.lean ====
section
/-!
DEFINITION. Commit groups: building, publication, durability, edge repair, generations, filter bits and mount (chapter 6;
R84, R97–R101).
-/
namespace Sys2Proof.Machine

/-! Building a group (R168–R173). -/

/-- One item of an INSERT or UPSERT as its input gives it (R169). -/
structure Item where
  oldId : Nat
  slot : Nat
  attr : Nat
  code : List Byte
  vec : List Byte
deriving DecidableEq, Repr

/-- Item `i` of an input (R169). -/
def itemAt (d : IndexDesc) (inp : List Byte) (i : Nat) : Item :=
  let b := (inp.drop (i * (vecBytes d + 128))).take (vecBytes d + 128)
  { oldId := field b 0 8, slot := field b 8 4, attr := field b 16 8, code := (b.drop 24).take 64, vec := b.drop 128 }

/-- The items of an input. -/
def itemsOf (d : IndexDesc) (n : Nat) (inp : List Byte) : List Item := (List.range n).map (itemAt d inp)

/-- Whether a list names something twice. -/
def hasTwice : List Nat → Bool
  | [] => false
  | x :: xs => xs.contains x || hasTwice xs

/-- The reserved bytes of an item (R6, R169): bytes 12–15, 88–127 and the padding of the vector. -/
def itemReserved (d : IndexDesc) (inp : List Byte) (i : Nat) : Bool :=
  let b := (inp.drop (i * (vecBytes d + 128))).take (vecBytes d + 128)
  !zeroField b 12 4 || !zeroField b 88 40 || !zeroField b (128 + d.dim * elemBytes d.vecFormat) (vecBytes d)

/-- What makes an item BAD_PARAM (R71, R72, R169, R170). -/
def itemBad (d : IndexDesc) (node : Nat) (ups hostCode hostSlot : Bool) (it : Item) : Bool :=
  let v := (List.range d.dim).map fun x =>
    elemValue d.vecFormat (field it.vec (x * elemBytes d.vecFormat) (elemBytes d.vecFormat))
  v.any (!·.isFin) || (d.metric == 2 && v.all (·.isZero)) || 2 ^ d.attrCount ≤ it.attr
    || (if hostSlot then d.slotCount ≤ it.slot else it.slot != 0xFFFFFFFF)
    || !zeroField it.code (if hostCode then codeBytes d else 0) 64
    || (if ups then it.oldId / 2 ^ 48 != 0 || (it.oldId / 2 ^ 32 == node && d.slotCount ≤ it.oldId % 2 ^ 32)
        else it.oldId != 0)

/-- The checks of INSERT and UPSERT on the node (R75, R81, R168–R171): `size` is the result record of an item. -/
def insertCheck (ups : Bool) (k : Cmd) (ps inp : List Byte) (s : State) : Verdict :=
  let n := field ps 0 2
  let lb := field ps 2 2
  let fl := field ps 4 1
  let gen := field ps 8 4
  let hostCode := bit fl 1
  let hostSlot := bit fl 2
  if n < 1 || 256 < n || (lb != 0 && (lb < 16 || 1024 < lb)) || (!hostCode && gen != 0) then .fail stBadParam 0
  else forIndex k s fun ix =>
      let items := itemsOf ix.desc n inp
      let away := if ups then items.find? fun it => it.oldId / 2 ^ 32 != s.nodeId else none
      if ix.mounting then .fail stBusy 0
      else if inp.length != n * (vecBytes ix.desc + 128)
          || items.any (itemBad ix.desc s.nodeId ups hostCode hostSlot)
          || (List.range n).any (itemReserved ix.desc inp)
          || (hostSlot && hasTwice (items.map (·.slot))) || (ups && hasTwice (items.map (·.oldId))) then
        .fail stBadParam 0
      else match away with
        | some it => .fail stRedirect (it.oldId / 2 ^ 32 * 2 ^ 32)
        | none =>
          firstFail [(ix.curGen == 0, stRefused), (hostCode && gen < ix.curGen && gen != 0, stStale),
            (hostCode && (gen == 0 || ix.curGen < gen), stBadParam)]

/-- Slots reserved by groups of an index (R172). -/
def reservedSlots (h : Nat) (s : State) : List Nat :=
  (s.grp.groups.filter (·.handle == h)).flatMap fun g => g.items.map (·.slot)

/-- The slot of a new node (R172): the lowest FREE, unreserved one in the crate of the nearest LIVE neighbour, else of
the index. -/
def placeSlot (ix : Index) (reserved : List Nat) (near : Option Nat) : Option Nat :=
  let ok : Nat → Bool := fun s => slotFree ix s && !reserved.contains s
  match near.bind fun s => firstFrom ok (s / 64 * 64) 64 with
  | some s => some s
  | none => firstFrom ok 0 ix.desc.slotCount

/-- What a linking search sees: the index with the earlier items of the command in it (R173). -/
def linkView (ix : Index) (book : List W16) (l : Nat) (earlier : List Nat) (v : List W32) : View where
  ix := ix
  snap := ix.csn
  td := false
  filter := none
  prune := false
  table := distTable ix.desc book v
  l := l
  pool := l
  hopLimit := 8 * l
  range := none
  blocks := 60
  image := none
  extra := (ix.upper.filter fun e => earlier.contains e.2.slot).map (·.1)

/-- The linking search of an item: its pool, and the upper records held at each level (R173); or the crate whose image is lost that it
must expand from (R87). -/
def linkSearch (v : View) (lost : Nat → Bool) : Except Nat (List Nat × List (Nat × List Nat)) :=
  let (w, held) := descend v 1 []
  match walkAll v lost (v.hopLimit + 1) w with
  | .error c => .error c
  | .ok w => .ok (w.pool.map (·.2), held)

/-- Whether a read of a crate fails: the image is not in a VALID frame, and its checks fail for good, or `read` says so of this crate
(R87). -/
def crateLost (ix : Index) (crate : Nat) (read : ReadOutcome) (c : Nat) : Bool :=
  tget? ix.frames c != some false && (ix.failed.contains c || (c == crate && read != .ok))

/-- How a lost crate's read ended: an uncorrectable read, else failed checks. -/
def lostAs (ix : Index) (crate : Nat) (read : ReadOutcome) (c : Nat) : ReadOutcome :=
  if c = crate ∧ read = .uncorrectable ∧ !ix.failed.contains c then .uncorrectable else .checkFail

/-- Why a group could not be built: a status, or a crate that is lost. -/
inductive BuildFail where
  | status (st : Nat)
  | crate (c : Nat)
deriving DecidableEq, Repr

/-- A held record as the group keeps it. -/
def heldRec (ix : Index) (earlier : List Nat) (r : Nat) : HeldRec :=
  let slot := ((tget? ix.upper r).map (·.slot)).getD 0
  if earlier.contains slot then .item slot else .pool r slot

/-- One item built (R171–R173): the working index with the item in it, and its new node; or the status that ends the
command. ENTRY changes at step 6 of R162 only, so every item's search starts from the index's own (R166, R173). -/
def buildItem (h : Nat) (book : List W16) (l : Nat) (ups hostCode hostSlot : Bool) (reserved : List Nat) (lost : Nat → Bool)
    (acc : Except BuildFail (Index × List NewNode)) (it : Item) : Except BuildFail (Index × List NewNode) :=
  match acc with
  | .error e => .error e
  | .ok (ix, nodes) =>
    let earlier := nodes.map (·.slot)
    let v := vecElems ix.desc it.vec
    match linkSearch (linkView ix book l earlier v) lost with
    | .error c => .error (.crate c)
    | .ok (pool, held) =>
    let slot := if hostSlot then
        if slotFree ix it.slot && !reserved.contains it.slot then some it.slot else none
      else placeSlot ix reserved pool.head?
    match slot with
    | none => .error (.status (if hostSlot then stBadParam else stNoResource))
    | some slot =>
      let code := if hostCode then it.code.take (codeBytes ix.desc) else encodeVec ix.desc book v
      let node : NewNode := {
        slot := slot, attr := it.attr, code := code, vec := it.vec, level := drawLevel ix.desc slot h
        nbrs := pool.take ix.desc.maxDegree
        held := held.map fun e => (e.1, e.2.map (heldRec ix earlier))
        old := if ups then some (it.oldId % 2 ^ 32) else none
        oldId := it.oldId }
      .ok ({ addNode book ix.csn node ix with entry := ix.entry, entryLevel := ix.entryLevel }, nodes ++ [node])

/-- A built group put at the end of the list; mutation commands bind to CUR_GEN until they complete (R163, R171). -/
def addGroup (g : Group) (s : State) : State :=
  let s := onIndex g.handle bindGen s
  onMut (fun m => { m with
    groups := m.groups ++ [{ g with id := m.nextGroup }], nextGroup := m.nextGroup + 1
    bound := m.bound ++ [(g.ref, g.handle, g.gen)] }) s

/-- The group of an INSERT or UPSERT built: every item encoded, placed and linked, and handed over for publication; or a crate that
is lost ends the command UNCORRECTABLE with its record, and a failed check stays (R87). -/
def buildGroup (ups : Bool) (k : Cmd) (d : CmdIn) (ps inp : List Byte) (ix : Index) (s : State) : State :=
  let fl := field ps 4 1
  let l := if field ps 2 2 = 0 then 64 else field ps 2 2
  let items := itemsOf ix.desc (field ps 0 2) inp
  let reserved := reservedSlots k.handle s
  let lost := crateLost ix d.linkCrate d.linkRead
  match items.foldl (buildItem k.handle ix.curBook l ups (bit fl 1) (bit fl 2) reserved lost) (.ok (ix, [])) with
  | .error (.status st) => completeSt k.ref st s
  | .error (.crate c) =>
    let how := lostAs ix d.linkCrate d.linkRead c
    let s := if how = .checkFail then markFailed k.handle c s else s
    failCmd k.ref (crateRec how (cmdPart k) (ix.crateBase + c) s) s
  | .ok (_, nodes) =>
    addGroup { id := 0, ref := k.ref, part := cmdPart k, handle := k.handle, upsert := ups, durable := bit fl 0,
               items := nodes, deletes := [], gen := ix.curGen, buildEnd := timeUs s } s

/-- INSERT or UPSERT begun: a DRAM codeword that its linking searches need and that is lost ends it (R475). -/
def beginInsert (ups : Bool) (d : CmdIn) (k : Cmd) (ps inp : List Byte) (s : State) : State :=
  match getIndex k.handle s with
  | none => s
  | some ix =>
    match dramRead (some k) d.ecc d.place s with
    | (s, some (seq, dropped)) => completeRec k.ref stUncorrectable 0 seq dropped s
    | (s, none) => buildGroup ups k d ps inp ix s

/-- The checks of DELETE (R176). -/
def deleteCheck (k : Cmd) (ps inp : List Byte) (s : State) : Verdict :=
  let n := field ps 0 2
  let ids := (List.range n).map fun i => field inp (8 * i) 8
  if n < 1 || 4096 < n then .fail stBadParam 0
  else forIndex k s fun ix =>
      if ix.mounting then .fail stBusy 0
      else if inp.length != 8 * n || ids.any (fun i => i / 2 ^ 48 != 0) || hasTwice ids
          || ids.any (fun i => i / 2 ^ 32 == s.nodeId && ix.desc.slotCount ≤ i % 2 ^ 32) then .fail stBadParam 0
      else match ids.find? fun i => i / 2 ^ 32 != s.nodeId with
        | some i => .fail stRedirect (i / 2 ^ 32 * 2 ^ 32)
        | none => firstFail [(ix.curGen == 0, stRefused)]

/-- DELETE begun: a group of tombstones (R176). -/
def beginDelete (k : Cmd) (ps inp : List Byte) (s : State) : State :=
  match getIndex k.handle s with
  | none => s
  | some ix =>
    addGroup { id := 0, ref := k.ref, part := cmdPart k, handle := k.handle, upsert := false,
               durable := bit (field ps 4 1) 0, items := []
               deletes := (List.range (field ps 0 2)).map fun i => field inp (8 * i) 8
               gen := ix.curGen, buildEnd := timeUs s } s

/-! Publication (R161–R167, R173, R174). -/

/-- The oldest registered snapshot of an index: the lowest of its admitted searches, else its CSN (R165). -/
def oldestSnap (h : Nat) (ix : Index) (s : State) : Nat :=
  ((s.srch.queries.filter fun q => q.handle == h && q.admittedIn).map (·.snap)).foldl min ix.csn

/-- Whether the delta table holds no entry for a slot (R165, R180). -/
def settled (ix : Index) (oldest slot : Nat) : Bool :=
  !ix.ring.any fun e => e.2.slot == slot && oldest < e.2.csn

/-- The transitions a group makes now, in its order: (slot, KIND) (R174, R176). -/
def transitions (ix : Index) (g : Group) : List (Nat × Nat) :=
  g.items.flatMap (fun n => (n.slot, 1) :: (match n.old with
    | some o => if liveBit ix o then [(o, 2)] else []
    | none => [])) ++
  (g.deletes.map (· % 2 ^ 32)).filterMap fun s => if liveBit ix s then some (s, 2) else none

/-- Whether the ring can take `n` more entries (R167). -/
def ringRoom (ix : Index) (oldest n : Nat) : Bool := ix.csn + n ≤ oldest + 65536

/-- Ring entries written for transitions from CSN `c + 1` on (R100, R162 step 2). -/
def writeRing (c : Nat) : List (Nat × Nat) → Table RingEntry → Table RingEntry
  | [], r => r
  | t :: ts, r => writeRing (c + 1) ts (tput r ((c + 1) % 65536) { csn := c + 1, slot := t.1, kind := t.2 })

/-- The CSN a transition of a group gets, 0 if it is left out (R161, R175). -/
def csnOf (c : Nat) (ts : List (Nat × Nat)) (t : Nat × Nat) : Nat :=
  if ts.contains t then c + 1 + (ts.takeWhile (· != t)).length else 0

/-- Whether a rewrite drops an edge: to a FREE slot, or to a settled DEAD one; the edges of a new node stay, though a neighbour has
died since it was chosen (R173, R187). -/
def edgeDropped (ix : Index) (oldest : Nat) (fresh : Bool) (s : Nat) : Bool :=
  slotFree ix s || (!fresh && slotDead ix s && settled ix oldest s)

/-- A record of a crate being rewritten: its edges cleaned, REPAIR as its edges stand (R173). -/
def cleanRec (ix : Index) (oldest last : Nat) (fresh : Bool) (r : CrateRec) : CrateRec :=
  let keep := r.adj.filter fun s => !edgeDropped ix oldest fresh s
  let rep := keep.any (slotDead ix)
  if keep = r.adj ∧ rep = r.repair then r else { r with adj := keep, repair := rep, commitCsn := last }

/-- Edges a rewrite drops from a crate (R190). -/
def droppedEdges (ix : Index) (oldest : Nat) (c : Crate) : Nat :=
  (c.recs.map fun e => (e.2.adj.filter (edgeDropped ix oldest false)).length).foldl (· + ·) 0

/-- A crate's image rewritten (R85, R93, R173): its edges cleaned, but for those of the new nodes, its DEAD mask up to date, CRATE_CSN
and REWRITES. -/
def rewriteCrate (oldest last : Nat) (fresh : List Nat) (ix : Index) (c : Nat) : Index :=
  let old := crateOf ix c
  let recs := old.recs.map fun e => (e.1, cleanRec ix oldest last (fresh.contains (64 * c + e.1)) e.2)
  let dead := (recs.map fun e => 2 ^ e.1 * b2n (!liveBit ix (64 * c + e.1))).foldl (· + ·) 0
  let csn := (recs.map (·.2.commitCsn)).foldl max 0
  let new : Crate := { recs := recs, dead := dead, csn := csn, rewrites := satAdd 0xFFFFFFFF old.rewrites 1 }
  { ix with crates := sset crateEmpty ix.crates c new }

/-- Distinct elements, first occurrences. -/
def distinct : List Nat → List Nat
  | [] => []
  | x :: xs => x :: (distinct xs).filter (· != x)

/-- The crates a group rewrites: of its new slots, and of the neighbours that gain an edge (R173). -/
def groupCrates (ix : Index) (g : Group) : List Nat :=
  distinct (g.items.flatMap fun n => n.slot / 64 :: ((n.nbrs.filter fun s =>
    !slotFree ix s || g.items.any (·.slot == s)).map (· / 64)))

/-- A new node added with its bits in the READY filter slots, and its old slot's tombstone when it makes that transition (R162, R174). -/
def applyItem (book : List W16) (c : Nat) (ts : List (Nat × Nat)) (ix : Index) (n : NewNode) : Index :=
  let ix := addNode book (csnOf c ts (n.slot, 1)) n ix
  let ix := writeFilterBits (fun f => f.state == .ready) ix n.slot
  match n.old with
  | some o => if ts.contains (o, 2) then { ix with live := sset (fun _ => false) ix.live o false } else ix
  | none => ix

/-- The index after a group's publication (R162). -/
def publishIndex (oldest : Nat) (g : Group) (ix : Index) : Index :=
  let c := ix.csn
  let ts := transitions ix g
  let crates := groupCrates ix g
  let ix := { ix with ring := writeRing c ts ix.ring }
  let ix := g.items.foldl (applyItem (bookOf ix g.gen) c ts) ix
  let kill : Index → Nat → Index := fun ix s => { ix with live := sset (fun _ => false) ix.live s false }
  let ix := (g.deletes.map (· % 2 ^ 32)).foldl kill ix
  let ix := crates.foldl (rewriteCrate oldest (c + ts.length) (g.items.map (·.slot))) ix
  { ix with csn := c + ts.length }

/-- A rewritten crate's image put into a fresh frame and the directory switched to it (R90): a fill that has issued is overtaken and
keeps its frame until its read ends, one that has not is cancelled; an old image that walkers refer to is RETIRING. Where no frame is
available, which R91 excludes, the crate is not cached. -/
def freshFrame (h : Nat) (s : State) (crate : Nat) : State :=
  match getIndex h s with
  | none => s
  | some ix =>
    let issued := s.srch.batches.any fun b => b.handle == h && b.crate == crate && b.issued
    let refs := if tget? ix.frames crate = some false then frameRefs h crate ix s else []
    let s := onSrch (fun x => { x with batches := x.batches.filter fun b => !(b.handle == h && b.crate == crate) }) s
    let free : Index → Index := fun ix => if tget? ix.frames crate = some true then { ix with
      frames := tdel ix.frames crate, orphans := if issued then crate :: ix.orphans else ix.orphans } else ix
    let s := onIndex h free s
    let old : Index → Index := fun ix => { ix with
      frames := tdel ix.frames crate, retiring := if refs.isEmpty then ix.retiring else ix.retiring ++ [(crate, refs)] }
    match makeRoom h (some crate) s with
    | none => onIndex h old s
    | some s => onIndex h (fun ix => { old ix with frames := tput (old ix).frames crate false }) s

/-- A group released (R162): its reservations; the reference on its generation stays until its command completes (R171). -/
def releaseGroup (g : Group) (s : State) : State :=
  onMut (fun m => { m with groups := m.groups.filter (·.id != g.id) }) s

/-- DEAD slots of an index. -/
def deadCount (ix : Index) : Nat := (ix.crates.map fun e => e.2.recs.length).foldl (· + ·) 0 - liveCount ix

/-- A repair pass of an index started, unless it sweeps or waits already (R181). -/
def startPass (h : Nat) (s : State) : State :=
  if s.grp.passes.contains h then s
  else onMut (fun m =>
    let start := if m.passes = [] then 0 else m.sweepAt
    { m with passes := m.passes ++ [h], sweepAt := start }) s

/-- The automatic start of a pass, where the DEAD slots of an index exceed the trigger (R181). -/
def triggerPass (s : State) (h : Nat) : State :=
  match getIndex h s with
  | none => s
  | some ix =>
    if !ix.mounting && s.grp.repairTrigger != 0 && s.grp.repairTrigger * liveCount ix < 1000 * deadCount ix then startPass h s else s

/-- The trigger looked at for every index. -/
def triggerAll (s : State) : State := (s.srch.indexes.map (·.1)).foldl triggerPass s

/-- The result records of a published group (R175, R176). -/
def groupResult (node c : Nat) (ts : List (Nat × Nat)) (g : Group) : List Byte :=
  (g.items.flatMap fun n =>
    leBytes 8 (n.slot + node * 2 ^ 32) ++ leBytes 8 (csnOf c ts (n.slot, 1)) ++
      if g.upsert then leBytes 8 n.oldId ++ leBytes 8 (match n.old with
        | some o => csnOf c ts (o, 2)
        | none => 0)
      else [])
  ++ g.deletes.flatMap fun i => leBytes 8 i ++ leBytes 8 (csnOf c ts (i % 2 ^ 32, 2))

/-- A group ended with a status and nothing changed (R162, R187). -/
def failGroup (g : Group) (st : Nat) (s : State) : State := completeSt g.ref st (releaseGroup g s)

/-- A group ended UNCORRECTABLE with a record (R187). -/
def failGroupRec (g : Group) (e : Rec) (s : State) : State := failCmd g.ref e (releaseGroup g s)

/-- Edge edits between two images of a crate (R431): an edit removes an edge of a record, adds one, or both. -/
def edgeEdits (old new : Crate) : Nat :=
  (new.recs.map fun e =>
    let was := ((tget? old.recs e.1).map (·.adj)).getD []
    max (was.filter fun n => !e.2.adj.contains n).length (e.2.adj.filter fun n => !was.contains n).length).foldl (· + ·) 0

/-- Bytes of a GROUP entry: its transitions, and the edge edits of the crates not written with it (R178, R431). -/
def groupBytes (old new : Index) (lazies : List Nat) (n : Nat) : Nat :=
  let edits := (lazies.map fun c => edgeEdits (crateOf old c) (crateOf new c)).foldl (· + ·) 0
  (16 + 8 * n + 15) / 16 * 16 + 16 * edits

/-- The tag of an index page (R417). -/
def indexTag (h lpn csn : Nat) : Tag := { kind := 1, handle := h, lpn := lpn, wseq := 0, csn := csn, sb := 0 }

/-- A crate image written to flash, and counted (R190). -/
def writeCrate (h csn : Nat) (ix : Index) (s : State) (c : Nat) : State :=
  onWlk ix.desc.part (fun x => { x with writebacks := wrap64 (x.writebacks + 1) })
    (program (indexTag h (ix.crateBase + c) csn) .index s)

/-- The images of the crates that a group newly occupies or zeroes go to flash, ahead of its journal entry (R178). -/
def writeOwn (p : Published) (s : State) : State :=
  queueGroups (p.crates.foldl (writeCrate p.handle p.index.csn p.index) s)

/-- The full-vector pages of a group's new slots programmed (R162 step 1): `none` while no stripe set has a page (R437). -/
def writeVectors (h csn : Nat) (lpns : List Nat) (s : State) : Option State :=
  lpns.foldl (fun acc l => acc.bind (programNow (indexTag h l csn) .index)) (some s)

/-- A group published: the index, its frames, the journal's list, the counters, and the completion unless it waits for
durability (R162, R177, R178, R190). -/
def publishGroup (g : Group) (ix : Index) (oldest : Nat) (resultOk : Bool) (s : State) : State :=
  let c := ix.csn
  let ts := transitions ix g
  let crates := groupCrates ix g
  let new := publishIndex oldest g ix
  let dropped := (crates.map fun c => droppedEdges ix oldest (crateOf ix c)).foldl (· + ·) 0
  let own := distinct (g.items.map (·.slot / 64))
  let s := onCmd g.ref (fun k => { k with committed := true }) (releaseGroup g (onIndex g.handle (fun _ => new) s))
  let s := (g.items.map (·.slot)).foldl (writeBuilding g.handle) s
  let s := crates.foldl (freshFrame g.handle) s
  let s := onWlk g.part (fun x => { x with
    commits := wrap64 (x.commits + ts.length), groups := wrap64 (x.groups + b2n (!ts.isEmpty))
    edgesRepaired := wrap64 (x.edgesRepaired + dropped) }) s
  let result := groupResult s.nodeId c ts g
  let w : Waiter := { ref := g.ref, count := ts.length, detail := c + ts.length, result := result, resultOk := resultOk }
  let p : Published := { handle := g.handle, index := new, crates := own, queued := false,
                         bytes := groupBytes ix new (crates.filter fun c => !own.contains c) ts.length,
                         waiter := if g.durable then some w else none }
  let s := writeOwn p (onMut (fun m => { m with
    published := m.published ++ [p]
    lazy := m.lazy ++ ((crates.filter fun c => !own.contains c).map fun c => (g.handle, c)) }) s)
  let s := triggerPass s g.handle
  if g.durable then s else finish g.ref resultOk stOk ts.length (c + ts.length) result s

/-- The full-vector pages of a group's new slots (R92). -/
def vectorPages (ix : Index) (g : Group) : List Nat := distinct (g.items.map fun n => ix.vecBase + n.slot / vecsPerPage ix.desc)

/-- A full-vector write of step 1 that fails (R187): the group is released, its command ends UNCORRECTABLE with the record of the page,
and the block of the page is RETIRED (R443). It waits where no stripe set has a page (R437). -/
def vectorFails (g : Group) (ix : Index) (s : State) : State :=
  let lpn := ((vectorPages ix g).head?).getD 0
  if s.med.held then s
  else match placeProgram (indexTag g.handle lpn ix.csn) .index s with
    | none => s
    | some (ppn, _, s) =>
      retireBlock (ppnBlock ppn s)
        (failGroupRec g { mkRec 0x1A 2 4 (locFlash lpn ppn (ppnLun ppn s) 0xFF) with part := g.part } s)

/-- A crate that a group must rewrite and whose image is lost (R87, R187): the group is released, its command ends UNCORRECTABLE with
the record of the crate, and a failed check stays. -/
def groupCrateFails (g : Group) (ix : Index) (how : ReadOutcome) (c : Nat) (s : State) : State :=
  failGroupRec g (crateRec how g.part (ix.crateBase + c) s) (if how = .checkFail then markFailed g.handle c s else s)

/-- Publication of group `id` (R162, R163, R167, R187): the first of its index in the order builds ended, once the ring has room; a
failed vector write, or a crate that is lost, releases it. `read` tells how the read of `crate` comes out, the others are clean. -/
def groupPublish (id crate : Nat) (read : ReadOutcome) (vectorsOk resultOk : Bool) (s : State) : State :=
  match s.grp.groups.find? (·.id == id) with
  | none => s
  | some g =>
    match getIndex g.handle s with
    | none => failGroup g stBadParam s
    | some ix =>
      let oldest := oldestSnap g.handle ix s
      if (s.grp.groups.find? (·.handle == g.handle)).any (·.id != id) then s
      else if !vectorsOk && !g.items.isEmpty then vectorFails g ix s
      else match (groupCrates ix g).find? (crateLost ix crate read) with
        | some c => groupCrateFails g ix (lostAs ix crate read c) c s
        | none =>
          let n := (transitions ix g).length
          if !ringRoom ix oldest n then s
          else match writeVectors g.handle (ix.csn + n) (vectorPages ix g) s with
            | none => s
            | some s => publishGroup g ix oldest resultOk s

/-- A group that cannot begin step 2 within RING_WAIT_MS of the end of its build ends THROTTLED (R167). -/
def ringExpire (id : Nat) (s : State) : State :=
  match s.grp.groups.find? (·.id == id) with
  | none => s
  | some g =>
    match getIndex g.handle s with
    | none => s
    | some ix =>
      if !ringRoom ix (oldestSnap g.handle ix s) (transitions ix g).length
          && g.buildEnd + 1000 * s.grp.ringWaitMs ≤ timeUs s then
        onWlk g.part (fun x => { x with ringThrottle := wrap64 (x.ringThrottle + 1) }) (failGroup g stThrottled s)
      else s

/-- The lazy write-back of a crate rewritten by a published group (R178). -/
def crateWriteback (h crate : Nat) (s : State) : State :=
  match getIndex h s with
  | none => s
  | some ix =>
    if s.grp.lazy.contains (h, crate) then
      writeCrate h (crateOf ix crate).csn ix (onMut (fun m => { m with lazy := m.lazy.filter (· != (h, crate)) }) s) crate
    else s

/-! Edge repair (R180–R183). -/

/-- A neighbour of a reclaimed slot relinked (R182 step 1). -/
def relink (csn x : Nat) (nbrs : List Nat) (ix : Index) (n : Nat) : Index :=
  modRec (fun r =>
    let rest := r.adj.filter (· != x)
    let new := nbrs.filter fun m => m != n && !rest.contains m
    let all := rest ++ new
    { r with adj := if all.length ≤ ix.desc.maxDegree then all
                    else keepNearest ix ix.curBook ix.desc.maxDegree r.code all
             commitCsn := csn }) n ix

/-- An upper record of a reclaimed slot unlinked and returned to the pool (R182 step 2). -/
def dropUpper (ix : Index) (r : Nat) : Index :=
  match tget? ix.upper r with
  | none => ix
  | some u =>
    let ix := u.adj.foldl (fun ix m => modUpper (fun y => { y with adj := y.adj.filter (· != r) }) m ix) ix
    { ix with upper := tdel ix.upper r }

/-- One settled DEAD slot reclaimed (R182). -/
def reclaim (csn : Nat) (ix : Index) (x : Nat) : Index :=
  let nbrs := ((recOf ix x).map (·.adj)).getD []
  let lives := distinct (nbrs.filter fun n => liveBit ix n && n != x)
  let ix := lives.foldl (relink csn x lives) ix
  let recs := (ix.upper.filter fun e => e.2.slot == x).map (·.1)
  let ix := recs.foldl dropUpper ix
  { ix with
    crates := smod crateEmpty ix.crates (x / 64) fun c => { c with recs := tdel c.recs (x % 64) }
    codes := tdel ix.codes x }

/-- ENTRY after a reclamation (R183), or after a rebuild: the LIVE upper record of the highest level with the lowest
number, else the lowest LIVE slot, else none. -/
def newEntry (ix : Index) : Index :=
  let ups := ix.upper.filter fun e => liveBit ix e.2.slot
  match ups.foldl (fun (acc : Option (Nat × Upper)) e =>
      match acc with
      | none => some e
      | some a => if a.2.level < e.2.level then some e else some a) none with
  | some e => { ix with entry := some e.1, entryLevel := e.2.level }
  | none => { ix with entry := (ix.live.head?).map (·.1), entryLevel := 0 }

/-- Whether ENTRY names a slot. -/
def entryIs (ix : Index) (slots : List Nat) : Bool :=
  match ix.entry with
  | none => false
  | some e => if ix.entryLevel = 0 then slots.contains e else (tget? ix.upper e).any fun u => slots.contains u.slot

/-- The settled DEAD slots of a crate, ascending (R180, R182). -/
def settledDead (ix : Index) (oldest c : Nat) : List Nat :=
  ((List.range 64).map (64 * c + ·)).filter fun s => slotDead ix s && settled ix oldest s

/-- The crates a repair group rewrites: the swept one, those of the LIVE neighbours, and those left from earlier sweeps
of the pass (R182). -/
def repairCrates (ix : Index) (c : Nat) (xs extra : List Nat) : List Nat :=
  distinct (c :: (xs.flatMap fun x => ((((recOf ix x).map (·.adj)).getD []).filter (liveBit ix)).map (· / 64)) ++ extra)

/-- The index after a repair group (R182, R183). -/
def repairIndex (oldest : Nat) (xs crates : List Nat) (ix : Index) : Index :=
  let c := ix.csn
  let hit := entryIs ix xs
  let ix := { ix with ring := writeRing c (xs.map fun x => (x, 3)) ix.ring }
  let ix := (xs.zipIdx).foldl (fun ix e => reclaim (c + 1 + e.2) ix e.1) ix
  let ix := crates.foldl (rewriteCrate oldest (c + xs.length) []) ix
  let ix := { ix with csn := c + xs.length }
  if hit then newEntry ix else ix

/-- The pass moved on to its next crate, or to the next pass; at its end the trigger of its index is looked at again (R181). -/
def sweepNext (h : Nat) (ix : Index) (s : State) : State :=
  if ix.desc.slotCount / 64 ≤ s.grp.sweepAt + 1 then
    triggerPass (onMut (fun m => { m with passes := m.passes.drop 1, sweepAt := 0 }) s) h
  else onMut (fun m => { m with sweepAt := m.sweepAt + 1 }) s

/-- A crate that a sweep reads or a repair group must rewrite is lost: recorded, nothing changes, and the pass goes on (R87, R182). -/
def sweepFails (h : Nat) (ix : Index) (crate : Nat) (how : ReadOutcome) (s : State) : State :=
  let s := fileRec (crateRec how ix.desc.part (ix.crateBase + crate) s) s
  sweepNext h ix (if how = .checkFail then markFailed h crate s else s)

/-- A repair group published for the settled DEAD slots of the swept crate (R182). -/
def publishRepair (h : Nat) (ix : Index) (oldest : Nat) (xs crates : List Nat) (s : State) : State :=
  let new := repairIndex oldest xs crates ix
  let links := (xs.map fun x => (((recOf ix x).map (·.adj)).getD [] |>.filter fun n =>
    liveBit ix n && ((recOf ix n).any (·.adj.contains x))).length).foldl (· + ·) 0
  let dropped := (crates.map fun c => droppedEdges new oldest (crateOf ix c)).foldl (· + ·) 0
  let s := onIndex h (fun _ => new) s
  let s := crates.foldl (freshFrame h) s
  let s := onWlk ix.desc.part (fun x => { x with
    commits := wrap64 (x.commits + xs.length), groups := wrap64 (x.groups + 1)
    reclaimed := wrap64 (x.reclaimed + xs.length)
    edgesRepaired := wrap64 (x.edgesRepaired + max links dropped) }) s
  let own := distinct (xs.map (· / 64))
  let p : Published := { handle := h, index := new, crates := own, queued := false, waiter := none,
                         bytes := groupBytes ix new (crates.filter fun c => !own.contains c) xs.length }
  writeOwn p (onMut (fun m => { m with
    published := m.published ++ [p], sweepRewrite := m.sweepRewrite.filter (·.1 != h)
    lazy := m.lazy ++ ((crates.filter fun c => !own.contains c).map fun c => (h, c)) }) s)

/-- The pass in progress sweeps its next crate (R181, R182). A group waits without limit for the ring, and behind the
groups built before it (R163, R167). `read` tells how the read of `crate` comes out, the others are clean. -/
def sweepCrate (crate : Nat) (read : ReadOutcome) (s : State) : State :=
  match s.grp.passes with
  | [] => s
  | h :: _ =>
    match getIndex h s with
    | none => onMut (fun m => { m with passes := m.passes.drop 1, sweepAt := 0 }) s
    | some ix =>
      let c := s.grp.sweepAt
      let oldest := oldestSnap h ix s
      let xs := settledDead ix oldest c
      if ix.mounting then s
      else if crateLost ix crate read c then sweepFails h ix c (lostAs ix crate read c) s
      else if xs.isEmpty then
        let stale := 0 < droppedEdges ix oldest (crateOf ix c)
        sweepNext h ix (if stale then onMut (fun m => { m with sweepRewrite := m.sweepRewrite ++ [(h, c)] }) s else s)
      else
        let crates := repairCrates ix c xs ((s.grp.sweepRewrite.filter (·.1 == h)).map (·.2))
        match crates.find? (crateLost ix crate read) with
        | some bad => sweepFails h ix bad (lostAs ix crate read bad) s
        | none =>
          if s.grp.groups.any (·.handle == h) || !ringRoom ix oldest xs.length then s
          else sweepNext h ix (publishRepair h ix oldest xs crates s)

/-- A write of WLK_REPAIR (R189): HANDLE takes the value; START starts a pass, or is discarded with BAD_VALUE. -/
def writeRepair (f : Fn) (v : Nat) (s : State) : State :=
  let h := bits v 15 0
  let s := onMut (fun m => { m with repairHandle := h }) s
  if bit v 31 then
    if (getIndex h s).isSome then startPass h s else fileBadValue f 0 0x70000C 0xFF 0xFF s
  else s

/-! Generations (R184–R186). -/

/-- The codebook of an input: FP16 elements in the layout of R79. -/
def bookBytes (inp : List Byte) : List W16 := (chunks 2 (inp.length / 2) inp).map fun b => BitVec.ofNat 16 (leNat b)

/-- Whether a mutation of the same work queue on the same handle, fetched earlier, has not committed (R61, R184). -/
def earlierMutation (k : Cmd) (s : State) : Bool :=
  s.grp.groups.any fun g => g.handle == k.handle &&
    (s.host.cmds.any fun e => e.ref == g.ref && e.queue == k.queue)

/-- The checks of SWAP_GENERATION (R184): held until the earlier mutations of its queue on the handle have
committed, and while a segment is being written, after which its metadata record goes out (R432). -/
def swapCheck (k : Cmd) (ps inp : List Byte) (s : State) : Verdict :=
  if k.resultLen != 0 then .fail stBadParam 0
  else forIndex k s fun ix =>
      if ix.mounting then .fail stBusy 0
      else if inp.length != centroids ix.desc * ix.desc.dim * 2 then .fail stBadParam 0
      else if earlierMutation k s || s.med.writing.isSome then .hold
      else firstFail [(ix.oldGen != 0, stBusy), (field ps 0 4 == 0 || field ps 0 4 ≤ ix.curGen, stBadParam)]

/-- Step 3 of a swap (R185, R186). -/
def swapIndex (gen : Nat) (book : List W16) (ix : Index) : Index :=
  let ix := { ix with oldGen := ix.curGen, oldBook := ix.curBook, oldRefs := ix.curRefs, curGen := gen, curBook := book,
                      curRefs := 0 }
  dropOldGen ix

/-- What flash holds of an index changed: its metadata record (R185, R101). -/
def onKept (h : Nat) (f : Index → Index) (s : State) : State := onMut (fun m => { m with kept := tmod f m.kept h }) s

/-- Bytes of an index metadata record: descriptor, filter recipes, codebook (R430). -/
def metaBytes (d : IndexDesc) : Nat := 128 + 32 * d.filterCount + centroids d * d.dim * 2

/-- SWAP_GENERATION begun: codebook and metadata record written, the generations swapped, and the completion with
NEW_GEN and the former CUR_GEN in DETAIL (R185). -/
def beginSwap (k : Cmd) (ps inp : List Byte) (s : State) : State :=
  match getIndex k.handle s with
  | none => s
  | some ix =>
    let gen := field ps 0 4
    let book := bookBytes inp
    let s := onIndex k.handle (swapIndex gen book) s
    let s := writeMeta (metaBytes ix.desc) (onKept k.handle (fun x => { x with curGen := gen, curBook := book }) s)
    let s := onMut (fun m => { m with published := m.published.map fun p =>
      if p.handle == k.handle then { p with index := { p.index with curGen := gen, curBook := book } } else p }) s
    complete k.ref stOk 0 (gen + ix.curGen * 2 ^ 32) [] (onCmd k.ref (fun k => { k with committed := true }) s)

/-! Loss of power and mount (R84, R101, R179). -/

/-- An index as flash and journal give it back before its mount (R101, R179). -/
def indexAfterLoss (ix : Index) : Index :=
  { ix with oldGen := 0, oldBook := [], oldRefs := 0, curRefs := 0, ring := [], frames := [], retiring := [], orphans := [], upper := [],
            entry := none, entryLevel := 0, upperFull := 0, mounting := true }

/-- A node's record at a level put back by the rebuild (R84): linked to the nearest records of that level by the
code-to-code distance, and under its record of the level above. -/
def rebuildOne (level : Nat) (ix : Index) (slot : Nat) : Index :=
  match freeUpper ix with
  | none => ix
  | some r =>
    let code := codeOf ix slot
    let peers := ix.upper.filter (·.2.level == level)
    let near := (sortBy (fun a b => distLt a.1 b.1)
      (peers.map fun e => ((codeDistance ix.desc ix.curBook code (codeOf ix e.2.slot), e.2.slot), e.1))).map (·.2)
    let links := near.take ix.desc.upperDegree
    let above := upperOf ix slot (level + 1)
    let ix := { ix with upper := tput ix.upper r { slot := slot, level := level, down := none, adj := links } }
    let ix := links.foldl (gainUpper ix.curBook r) ix
    match above with
    | some a => modUpper (fun u => { u with down := some r }) a ix
    | none => ix

/-- The upper graph rebuilt from the LEVEL of every LIVE record, from the top level down, slots ascending (R84). -/
def rebuildUpper (ix : Index) : Index :=
  let levels := (List.range ix.desc.upperLevels).reverse.map (· + 1)
  let slots := ix.live.map (·.1)
  newEntry (levels.foldl (fun ix l =>
    (slots.filter fun s => (recOf ix s).any (l ≤ ·.level)).foldl (rebuildOne l) ix) ix)

/-- An index mounted: filters derived again from their recipes, upper graph rebuilt, and commands accepted (R101). -/
def mountIndex (ix : Index) : Index :=
  let again : Nat × Filter → Nat × Filter := fun e =>
    (e.1, { e.2 with refs := 0, csn := ix.csn, state := if e.2.state = .empty then .empty else .ready })
  let ix := { ix with filters := ix.filters.map again, filterRows := [] }
  let ix := ix.filters.foldl (fun ix e => if e.2.state == .ready then deriveAll e.1 e.2.terms ix else ix) ix
  { rebuildUpper ix with mounting := false }

/-- Mount of an index after the media mount (R101). -/
def indexMount (h : Nat) (s : State) : State :=
  match getIndex h s with
  | none => s
  | some ix => if ix.mounting then triggerPass (onIndex h mountIndex s) h else s

/-! Rows. -/

/-- GROUP_PUBLISH (R162). -/
def execGroupPublish (g crate : Nat) (read : ReadOutcome) (vectorsOk resultOk : Bool) (s : State) :
    Host.Outcome State Fault Refusal := .next (groupPublish g crate read vectorsOk resultOk s)

/-- RING_WAIT_EXPIRY (R167). -/
def execRingWaitExpiry (g : Nat) (now : Nat) (s : State) : Host.Outcome State Fault Refusal :=
  .next (ringExpire g (atTime now s))

/-- CRATE_WRITEBACK (R178). -/
def execCrateWriteback (handle crate : Nat) (s : State) : Host.Outcome State Fault Refusal :=
  .next (crateWriteback handle crate s)

/-- REPAIR_CRATE_SWEEP (R182). -/
def execRepairCrateSweep (crate : Nat) (read : ReadOutcome) (s : State) : Host.Outcome State Fault Refusal :=
  .next (sweepCrate crate read s)

end Sys2Proof.Machine
end

