-- ==== Sys2Proof/Machine/Lanes.lean ====
section
/-!
DEFINITION. Lane and accumulator arithmetic of a stall, by its MODE (R199, R205, R206). `none` is a value that the spec
does not state: an instruction that meets one writes a free value in that lane.
-/
namespace Sys2Proof.Machine

/-- LT of a MODE (R199): 0 FP16, 1 BF16, 2 INT16. -/
def modeLt (mode : Nat) : Nat := bits mode 3 2
/-- AT of a MODE: whether accumulators are INT32. -/
def modeInt (mode : Nat) : Bool := bit mode 1
/-- RND of a MODE: whether narrowing truncates. -/
def modeTrunc (mode : Nat) : Bool := !bit mode 0

/-- A value rounded to an integer, towards zero or to nearest with ties to even. -/
def roundInt (trunc neg : Bool) (m : Nat) (e : Int) : Int :=
  let k := (-e).toNat
  let a : Nat := if 0 ≤ e then m * 2 ^ e.toNat else if trunc then m / 2 ^ k else shiftRne m k
  if neg then -(a : Int) else a

/-- A number held between two bounds. -/
def clampInt (lo hi i : Int) : Int := max lo (min hi i)

/-- The format of a floating-point lane type. -/
def laneFmt (lt : Nat) : Fmt := if lt = 0 then fp16 else bf16

/-- The value of a lane. -/
def laneValue (lt : Nat) (x : W16) : Fv := if lt = 2 then intV (signed 16 x.toNat) else fdecode (laneFmt lt) x.toNat

/-- A value narrowed to a lane (R206): a finite result stays finite, an infinite operand stays infinite; in INT16 a NaN becomes 0 and
an infinity ±MAXF (R249, R251). -/
def laneNarrow (lt : Nat) (trunc : Bool) (v : Fv) : Option Nat :=
  if lt = 2 then
    match v with
    | .nan => some 0
    | .inf neg => some (twos 16 (if neg then -32767 else 32767))
    | .fin neg m e => some (twos 16 (clampInt (-32768) 32767 (roundInt trunc neg m e)))
  else
    match v with
    | .inf _ => some (fencode (laneFmt lt) v)
    | _ => some (fencodeWith (laneFmt lt) trunc true v)

/-- Whether a lane type lacks the NaN or the infinity that a value is: such a conversion counts (R251, R263). -/
def laneLacks (lt : Nat) (v : Fv) : Bool := lt == 2 && !v.isFin

/-- An accumulator result: its word, or none where the spec states none, and whether it saturated. -/
abbrev AccOut := Option Nat × Bool

/-- An exact integer saturated to INT32 (R206). -/
def accSat (i : Int) : AccOut :=
  (some (twos 32 (clampInt (-2147483648) 2147483647 i)), i < -2147483648 || 2147483647 < i)

/-- A value rounded to FP32. -/
def accFp (v : Fv) : AccOut := (some (fencode fp32 v), false)

/-- The sum of two accumulator values. -/
def accAdd (int : Bool) (x y : Nat) : AccOut :=
  if int then accSat (signed 32 x + signed 32 y) else accFp (faddX (fdecode fp32 x) (fdecode fp32 y))

/-- The product of two accumulator values. -/
def accMul (int : Bool) (x y : Nat) : AccOut :=
  if int then accSat (signed 32 x * signed 32 y) else accFp (fmulX (fdecode fp32 x) (fdecode fp32 y))

/-- The product of two lanes in the accumulator type (R206); a floating-point product has no stated INT32 form. -/
def laneProduct (lt : Nat) (int : Bool) (x y : W16) : AccOut :=
  if int then if lt = 2 then accSat (signed 16 x.toNat * signed 16 y.toNat) else (none, false)
  else accFp (fmulX (laneValue lt x) (laneValue lt y))

/-- The square of the difference of two lanes. -/
def laneSquare (lt : Nat) (int : Bool) (x y : W16) : AccOut :=
  if int then
    if lt = 2 then
      let d := signed 16 x.toNat - signed 16 y.toNat
      accSat (d * d)
    else (none, false)
  else
    let d := fencode fp32 (faddX (laneValue lt x) (fneg (laneValue lt y)))
    accFp (fmulX (fdecode fp32 d) (fdecode fp32 d))

/-- A result added into an accumulator lane. -/
def accInto (int : Bool) (acc : Nat) (p : AccOut) : AccOut :=
  match p.1 with
  | none => (none, p.2)
  | some v => let r := accAdd int acc v; (r.1, r.2 || p.2)

/-- A lane widened to the accumulator type (AWID); a floating-point lane has no stated INT32 form. -/
def laneWiden (lt : Nat) (int : Bool) (x : W16) : AccOut :=
  if int then if lt = 2 then accSat (signed 16 x.toNat) else (none, false) else accFp (laneValue lt x)

/-- The value of an accumulator lane. -/
def accValue (int : Bool) (x : Nat) : Fv := if int then intV (signed 32 x) else fdecode fp32 x

/-- The greater (`max`) or the lesser of two lanes, the first when equal; a NaN gives the canonical NaN (R204, R206). -/
def lanePick (lt : Nat) (max : Bool) (x y : W16) : Option Nat :=
  let a := laneValue lt x
  let b := laneValue lt y
  if a.isNan || b.isNan then laneNarrow lt false .nan
  else if (if max then fltV a b else fltV b a) then some y.toNat else some x.toNat

/-- 1 / x exactly but for a sticky bit (R206): a zero gives infinity, an infinity zero. -/
def recipX (v : Fv) : Fv := fdivX (.fin false 1 0) v

/-- 1 / √x for a positive finite x, exact but for a sticky last bit: 2^k / √m with the exponent made even. -/
def rsqrtFin (m : Nat) (e : Int) : Fv :=
  let odd := e % 2 != 0
  let m := if odd then 2 * m else m
  let e := if odd then e - 1 else e
  let k := 128 + log2 m
  let q := 2 ^ (2 * k) / m
  let r := isqrt q
  let s := if r * r = q ∧ 2 ^ (2 * k) % m = 0 then 0 else 1
  .fin false (2 * r + s) (-(k : Int) - e / 2 - 1)

/-- 1 / √x (R206): `none` for −∞, to which R206 gives two results. -/
def rsqrtX (v : Fv) : Option Fv :=
  match v with
  | .nan => some .nan
  | .inf neg => if neg then none else some (.fin false 0 0)
  | .fin neg m e => some (if m = 0 then .inf neg else if neg then .nan else rsqrtFin m e)

/-- VRCP of a lane (R206). -/
def laneRecip (lt : Nat) (x : W16) : Option Nat :=
  if lt = 2 then some 0 else laneNarrow lt false (recipX (laneValue lt x))

/-- VRSQ of a lane (R206). -/
def laneRsqrt (lt : Nat) (x : W16) : Option Nat :=
  if lt = 2 then some 0 else (rsqrtX (laneValue lt x)).bind (laneNarrow lt false)

/-- ARSQ of an accumulator lane (R204, R206): 1 / √(A + S), S taken as FP32. -/
def accRsqrt (int : Bool) (x y : Nat) : AccOut :=
  if int then (some 0, false)
  else match rsqrtX (fdecode fp32 (fencode fp32 (faddX (fdecode fp32 x) (fdecode fp32 y)))) with
    | none => (none, false)
    | some v => accFp v

/-- A 4-bit element of UNPK4 (R205): INT4, or FP4-E2M1. -/
def nibbleValue (fp : Bool) (n : Nat) : Fv := if fp then fdecode e2m1 n else intV (signed 4 n)

/-- A scale byte (R242): E8M0, or FP8-E4M3 as decoded. -/
def scaleValue (fp8 : Bool) (b : Nat) : Fv :=
  if fp8 then fdecode e4m3 b else if b = 255 then .nan else .fin false 1 ((b : Int) - 127)

/-- An 8-bit element of UNPK8 (R205). -/
def byteValue (ef b : Nat) : Fv := if ef = 0 then intV (signed 8 b) else fdecode (if ef = 1 then e4m3 else e5m2) b

/-- Byte `i` of a V register. -/
def vByte (v : List W16) (i : Nat) : Nat := (v.getD (i / 2) 0).toNat / 256 ^ (i % 2) % 256

/-- The elements of UNPK4 with their scale (R205, R206). -/
def unpack4 (v : List W16) (q : Nat) (fp fp8 : Bool) (scale : Nat) : List Fv :=
  (List.range 32).map fun i =>
    fmulX (nibbleValue fp (vByte v (16 * q + i / 2) / 16 ^ (i % 2) % 16)) (scaleValue fp8 scale)

/-- The elements of UNPK8 (R205, R206). -/
def unpack8 (v : List W16) (upper : Bool) (ef : Nat) : List Fv :=
  (List.range 32).map fun i => byteValue ef (vByte v (32 * b2n upper + i))

/-- The pairwise tree of R124 over accumulator values, in `n` levels. -/
def accTree (int : Bool) : Nat → List Nat → AccOut
  | 0, xs => (some (xs.headD 0), false)
  | n + 1, xs =>
    let l := accTree int n (xs.take (2 ^ n))
    let r := accTree int n (xs.drop (2 ^ n))
    match l.1, r.1 with
    | some x, some y => let t := accAdd int x y; (t.1, t.2 || l.2 || r.2)
    | _, _ => (none, l.2 || r.2)

/-- Lanes with their unstated values filled from draw `n`. -/
def fillLanes (n : Nat) (xs : List (Option Nat)) : List Nat :=
  xs.zipIdx.map fun e => e.1.getD ((Config.freeValue (n * 64 + e.2)).toNat)

/-- Whether any lane has no stated value. -/
def anyUnstated (xs : List (Option Nat)) : Bool := xs.any (·.isNone)

end Sys2Proof.Machine
end

