-- ==== Sys2Proof/Machine/StallJobs.lean ====
section
/-!
DEFINITION. Jobs on stalls: selection and conflicts, segments and activation boundaries, refresh and power windows, and how
STALL_RUN and ROW_OP commands end (R194–R197, R211–R223, R226–R231).
-/
namespace Sys2Proof.Machine

/-! Conflicts and choice (R195, R196). -/

/-- A range of bytes of a region that a job reads, or writes. -/
structure Touch where
  region : Nat
  lo : Nat
  len : Nat
  write : Bool
deriving DecidableEq, Repr

/-- What a job may touch (R196): its windows; all its rows, those done too; or, for a derivation, the scratch rows of the
pseudo-channel, which stand under no region handle; the records of a table that it reads or writes. A rerank reads staging alone, and
nothing writes the rows of a model. -/
def jobTouches (j : Job) : List Touch :=
  match j.work with
  | .program _ => (j.wins.filterMap id).map fun w => { region := w.region, lo := w.off, len := w.len, write := w.rw }
  | .rows ops _ => ops.flatMap fun e =>
      [{ region := e.dReg, lo := 1024 * e.dRow, len := 1024, write := true },
       { region := e.aReg, lo := 1024 * e.aRow, len := 1024, write := false }] ++
      if 2 ≤ e.op then [{ region := e.bReg, lo := 1024 * e.bRow, len := 1024, write := false }] else []
  | .derive _ _ _ _ => [{ region := 0x10000, lo := 0, len := 1024, write := true }]
  | .rerank _ | .layer _ _ => []
  | .table h write rows _ => rows.map fun p => { region := 0x20000 + h, lo := p, len := 1, write := write }

/-- Whether two ranges overlap. -/
def overlap (a b : Touch) : Bool := a.region == b.region && a.lo < b.lo + b.len && b.lo < a.lo + a.len

/-- Whether two jobs conflict (R196). -/
def jobsConflict (a b : Job) : Bool :=
  (jobTouches a).any fun x => (jobTouches b).any fun y => (x.write || y.write) && overlap x y

/-- Whether a job is a program job (R194). -/
def isProgram (j : Job) : Bool :=
  match j.work with
  | .program _ => true
  | _ => false

/-- The entry that a rerank job computes next, when its vector is in staging (R122). -/
def rerankEntry (n : Nat) (j : Job) (s : State) : Option Nat :=
  (getQuery j.ref s).bind fun q =>
    if queryRuns q && q.phase == .rerank then (nextEntry q n).bind fun i => if q.staged.contains i then some i else none else none

/-- Whether a job has work at hand: a rerank waits for its next vector. -/
def hasWork (n : Nat) (j : Job) (s : State) : Bool :=
  match j.work with
  | .rerank _ => (rerankEntry n j s).isSome
  | _ => true

/-- Whether a held job may run a segment now: its gang runs and no stop is posted, no job held before it conflicts, a
program job needs its stall in service, and a rerank its next vector (R122, R195, R196, R222, R491). -/
def jobReady (n : Nat) (before : List Job) (j : Job) (s : State) : Bool :=
  j.ended.isNone && !j.stop && !j.gone && ctxRuns j.part j.ctx s && (getPtn j.part s).stop.isNone
    && !before.any (jobsConflict j) && (!isProgram j || !outOfService .stall n s) && hasWork n j s

/-- The ready jobs among the 32 held, in arrival order. -/
def readyJobs (n : Nat) (x : Stall) (s : State) : List Job :=
  let held := x.jobs.take 32
  (held.zipIdx.filter fun e => jobReady n (held.take e.2) e.1 s).map (·.1)

/-- The next job in round-robin order of arrival (R195): of the ready ones the one that has waited longest for its turn. -/
def pickJob (n : Nat) (x : Stall) (s : State) : Option Job :=
  (readyJobs n x s).foldl (fun (a : Option Job) j =>
    match a with
    | none => some j
    | some b => if j.stamp.getD 0 < b.stamp.getD 0 then some j else some b) none

/-- Whether a stall awaits a spare: its jobs are held (R231, R341). -/
def stallHeld (n : Nat) (s : State) : Bool := s.err.outs.any fun u => u.kind == .stall && u.unit == n && !u.retired

/-! Ends of jobs and of their commands (R211, R212, R228–R231). -/

/-- The result record of a launch (R211). -/
def launchRecord (stall state fault ns : Nat) (j : Job) : List Byte :=
  leBytes 2 stall ++ leBytes 1 state ++ leBytes 1 fault ++ leBytes 2 j.lastPc ++ leBytes 1 (b2n j.sat) ++ zeros 1
    ++ leBytes 4 (min 0xFFFFFFFF j.segs) ++ leBytes 4 (min 0xFFFFFFFF j.acts)
    ++ leBytes 4 (match j.firstNs with
      | some t => min 0xFFFFFFFF ((ns - t) / 1000)
      | none => 0)
    ++ zeros 12 ++ (j.s.drop 8).flatMap fun w => leBytes 4 w.toNat

/-- A STALL_RUN in progress changed by `f`. -/
def onRun (c : CmdRef) (f : StallRun → StallRun) (s : State) : State :=
  onStk (fun x => { x with runs := updWhere (·.ref == c) f x.runs }) s

/-- A STALL_RUN whose every launch has ended completes (R212). -/
def finishRun (c : CmdRef) (s : State) : State :=
  match s.stk.runs.find? (·.ref == c) with
  | none => s
  | some r =>
    if r.records.length < r.launches then s
    else
      let s := onStk (fun x => { x with runs := x.runs.filter (·.ref != c) }) s
      let result := r.records.flatMap (·.2)
      match r.bad with
      | some (seq, dropped) =>
        if r.resultOk then completeRecData c stUncorrectable r.ended seq dropped result s
        else finish c false stUncorrectable r.ended seq result s
      | none => finish c r.resultOk (if r.faulted then stPartial else stOk) r.ended 0 result s

/-- A launch ended (R211, R212). -/
def launchEnds (n : Nat) (j : Job) (state fault ns : Nat) (s : State) : State :=
  let put : StallRun → StallRun := fun r =>
    { r with records := tput r.records j.launch (launchRecord n state fault ns j),
             ended := r.ended + b2n (state == 0), faulted := r.faulted || state == 1 }
  finishRun j.ref (onRun j.ref put s)

/-- A ROW_OP in progress taken off. -/
def dropRowCmd (c : CmdRef) (s : State) : State :=
  onStk (fun x => { x with rowCmds := x.rowCmds.filter (·.ref != c) }) s

/-- What flash holds of an index's metadata record changed, in the durable image and in those that will replace it; the
record is written again (R101, R185, R230, R432). -/
def onMeta (h : Nat) (f : Index → Index) (s : State) : State :=
  let bytes := ((getIndex h s).map fun ix => metaBytes ix.desc).getD 0
  writeMeta bytes (onMut (fun m => { m with published := m.published.map fun p =>
    if p.handle == h then { p with index := f p.index } else p }) (onKept h f s))

/-- A filter slot of an index changed by `f`. -/
def onFilter (slot : Nat) (f : Filter → Filter) (ix : Index) : Index :=
  { ix with filters := smod filterEmpty ix.filters slot f }

/-- A filter slot set to EMPTY. -/
def clearFilter (slot : Nat) (ix : Index) : Index := { ix with filters := sset filterEmpty ix.filters slot (filterEmpty slot) }

/-- The jobs of a derivation: one per pseudo-channel that holds a row of the bitmaps (R229). -/
def deriveJobs (c : RowCmd) (ctx rows : Nat) (s : State) : State :=
  (List.range (min 256 rows)).foldl (fun s n =>
    addJob n (newJob c.ref c.part ctx 0 (.derive c.handle c.slot 0 0)) s) s

/-- A ROW_OP put among those in progress. -/
def addRowCmd (c : RowCmd) (s : State) : State := onStk (fun x => { x with rowCmds := x.rowCmds ++ [c] }) s

/-- The slots that the visibility ring records as inserted with a CSN above `csn` (R98 step 4, R100). -/
def insertedSince (csn : Nat) (ix : Index) : List Nat :=
  (ix.ring.filter fun e => e.2.kind == 1 && csn < e.2.csn).map (·.2.slot)

/-- The end of step 3 of a derivation (R98): restarted once when the ring has lost an entry; else the recipe is evaluated again for the
slots inserted meanwhile, and the slot is READY. -/
def finishDerive (c : RowCmd) (s : State) : State :=
  match getIndex c.handle s with
  | none => completeSt c.ref stBadParam s
  | some ix =>
    let f := getFilter ix c.slot
    if f.csn + 65536 < ix.csn then
      if c.again then completeSt c.ref stBusy (onIndex c.handle (clearFilter c.slot) s)
      else
        let rows := bitmapRows ix
        let c := { c with again := true, left := min 256 rows, count := 0 }
        let ctx := ((findCmd c.ref s).map (·.queue.q)).getD 0
        let s := onIndex c.handle (onFilter c.slot fun f => { f with csn := ix.csn }) s
        deriveJobs c ctx rows (addRowCmd c s)
    else
      let attr : Nat → Nat := fun slot => sget (fun _ => 0) ix.attrs slot
      let again : Index → Index := fun ix =>
        (insertedSince f.csn ix).foldl (fun ix x => putFilterBit c.slot x (filterRecipe (attr x) c.terms) ix) ix
      let set : Filter → Filter := fun f => { f with state := .ready }
      let s := onIndex c.handle (fun ix => onFilter c.slot set (again ix)) s
      let keep : Filter → Filter := fun _ => { state := .ready, terms := c.terms, refs := 0, csn := f.csn }
      let s := onMeta c.handle (onFilter c.slot keep) s
      complete c.ref stOk (bitmapRows ix) f.csn [] s

/-- A service job of a ROW_OP ended (R228, R229). -/
def rowJobEnds (c : CmdRef) (s : State) : State :=
  match s.stk.rowCmds.find? (·.ref == c) with
  | none => s
  | some r =>
    if 1 < r.left then
      onStk (fun x => { x with rowCmds := updWhere (·.ref == c) (fun r => { r with left := r.left - 1 }) x.rowCmds }) s
    else
      let s := dropRowCmd c s
      if r.form = 1 then finishDerive r s else complete c stOk r.count 0 [] s

/-- A ROW_OP that met an uncorrectable word (R231): its other jobs leave, a slot being derived returns to EMPTY. -/
def rowCmdFails (c : CmdRef) (seq : Nat) (dropped : Bool) (s : State) : State :=
  match s.stk.rowCmds.find? (·.ref == c) with
  | none => s
  | some r =>
    let s := dropRowCmd c (dropJobs c s)
    let s := if r.form = 1 then onIndex r.handle (clearFilter r.slot) s else s
    completeRec c stUncorrectable r.count seq dropped s

/-- The service job of a STALL layer ended on a stall (R287). -/
def layerJobEnds (n : Nat) (c : CmdRef) (i : Nat) (s : State) : State :=
  let g : Run → Run := fun r => { r with steps := tmod (fun st => { st with stalls := st.stalls.filter (· != n) }) r.steps i }
  onTil (fun t => { t with runs := updWhere (·.ref == c) g t.runs }) s

/-- The service job of an embedding command ended on a stall (R307). -/
def tableJobEnds (n : Nat) (c : CmdRef) (s : State) : State :=
  let g : EmbCmd → EmbCmd := fun e => { e with jobs := e.jobs.filter (· != n) }
  onEmb (fun e => { e with cmds := updWhere (·.ref == c) g e.cmds }) s

/-- A MODEL_RUN or an embedding command that a job has met an uncorrectable word for (R231, R261, R318): its other jobs leave, and
`settleJobs` ends it. -/
def serviceFails (c : CmdRef) (bad : Nat × Bool) (s : State) : State :=
  let g : Run → Run := fun r => { r with bad := some (r.bad.getD bad) }
  let h : EmbCmd → EmbCmd := fun e => { e with bad := some (e.bad.getD bad), jobs := [] }
  let s := onTil (fun t => { t with runs := updWhere (·.ref == c) g t.runs }) (dropJobs c s)
  onEmb (fun e => { e with cmds := updWhere (·.ref == c) h e.cmds }) s

/-- A job that has ended leaves its stall (R211, R228); one whose command is over answers nothing (R223). -/
def jobEnds (n : Nat) (j : Job) (state fault ns : Nat) (s : State) : State :=
  let s := removeJob n j.jid s
  if j.gone then s
  else match j.work with
    | .program _ => launchEnds n j state fault ns s
    | .rows _ _ | .derive _ _ _ _ => rowJobEnds j.ref s
    | .rerank _ => s
    | .layer i _ => layerJobEnds n j.ref i s
    | .table _ _ _ _ => tableJobEnds n j.ref s

/-- The other launches of a command stop at their next segment boundary: those with no segment running at once (R212). -/
def stopLaunches (c : CmdRef) (ns : Nat) (s : State) : State :=
  (s.stk.stalls.map (·.1)).foldl (fun s n =>
    let x := getStall n s
    match x.jobs.find? fun j => j.ref == c && j.ended.isNone with
    | none => s
    | some j =>
      if x.run = some j.jid then onJob n j.jid (fun j => { j with stop := true }) s
      else jobEnds n j 3 0 ns s) s

/-! Segments and boundaries (R213–R217, R220, R221). -/

/-- The end of the running segment (R213, R215): a debt of 8 paid, the write-set accesses served, the job ended if it has to be, the
rest of the debt paid. -/
def closeSegment (n : Nat) (ns : Nat) (s : State) : State :=
  let x := getStall n s
  match runningJob x with
  | none => onStall n noSegment s
  | some j =>
    let debt := getDebt n s
    let j := { j with segs := j.segs + 1, stamp := some (x.clock + 1) }
    let s := onStack (n / 32) (fun t => { t with
      segments := wrap64 (t.segments + 1), refreshes := wrap64 (t.refreshes + debt) }) (setDebt n 0 s)
    let s := serveWriteSet n ns s
    let s := onStall n (fun x => { noSegment x with clock := x.clock + 1 }) (onJob n j.jid (fun _ => j) s)
    match j.ended with
    | some (st, f) => jobEnds n j st f ns s
    | none =>
      if j.stop || j.gone then jobEnds n j 3 0 ns s
      else if j.maxSegs != 0 && j.maxSegs ≤ j.segs then jobEnds n j 1 4 ns s
      else s

/-- The next job's segment opened (R195, R215); a stall that holds no job is gated as R463 states. -/
def openSegment (n : Nat) (ns : Nat) (s : State) : State :=
  let x := getStall n s
  match pickJob n x s with
    | none => s
    | some j =>
      let s := onJob n j.jid (fun j => { j with firstNs := some (j.firstNs.getD ns) }) s
      onStall n (fun x => { noSegment x with run := some j.jid, segStart := ns }) s

/-- The activation a running job needs next: none, a row of a program, a row of staging or of a service job's region, or a row
operation. -/
inductive Need where
  | nothing
  | row (rho : Nat)
  | staging
  | rowOp
deriving DecidableEq, Repr

/-- Access size of a memory opcode (R200). -/
def accessSize (opc : Nat) : Nat := if opc < 0x0A then 64 else if opc < 0x0C then 128 else 4

/-- The word at the PC of a program; past the last it acts as END (R202). -/
def wordAt (words : List Nat) (pc : Nat) : Nat := words.getD pc 0x04000000

/-- The first region byte of an access through a window (R200), or its FAULT (R201). -/
def accessAt (j : Job) (w sa imm size : Nat) : Except Nat (Nat × Nat) :=
  let base := (j.s.getD sa 0).toNat
  match (j.wins.getD w none) with
  | none => .error 1
  | some x =>
    if x.len < base + imm * size + size then .error 1
    else if base % size ≠ 0 then .error 2
    else .ok (x.region, x.off + base + imm * size)

/-- Whether an S register waits for load data (R202). -/
def sPending (j : Job) (r : Nat) : Bool := r != 0 && j.loads.any fun l => l.live && l.cls == .s && l.reg == r

/-- The pseudo-channel row of a region byte. -/
def rowOf (region byte : Nat) (s : State) : Nat := ((getRegion region s).map (·.row)).getD 0 + byte / 1024

/-- The rows of an access, first and last byte. -/
def accessRows (region byte size : Nat) (s : State) : List Nat :=
  let a := rowOf region byte s
  let b := rowOf region (byte + size - 1) s
  if a = b then [a] else [a, b]

/-- Whether a row is open in its bank. -/
def rowOpen (x : Stall) (rho : Nat) : Bool := tget? x.opened (rho % 32) == some rho

/-- The three operands of a ROP with the region bytes they name, D, A and, where it counts, B (R203, R225); or the FAULT. -/
def ropOperands (j : Job) (word : Nat) : Except Nat ((Nat × Nat) × (Nat × Nat) × (Nat × Nat)) :=
  let two := bits word 25 23 < 2
  match accessAt j (bits word 22 20) (bits word 19 16) 0 1024, accessAt j (bits word 15 13) (bits word 12 9) 0 1024,
      (if two then .ok (0, 0) else accessAt j (bits word 8 6) (bits word 5 2) 0 1024 : Except Nat (Nat × Nat)) with
  | .error f, _, _ => .error f
  | _, .error f, _ => .error f
  | _, _, .error f => .error f
  | .ok d, .ok a, .ok b => .ok (d, a, b)

/-- The fault BANK of a ROP (R201, R225): a row of another bank, or an operand that does not lie in one row. -/
def ropBanks (two : Bool) (d a b : Nat × Nat) (s : State) : Bool :=
  let bank : Nat × Nat → Nat := fun x => rowOf x.1 x.2 s % 32
  d.2 % 1024 == 0 && a.2 % 1024 == 0 && bank d == bank a && (two || (b.2 % 1024 == 0 && bank d == bank b))

/-- What a program needs before its next instruction can issue. -/
def programNeed (x : Stall) (j : Job) (words : List Nat) (s : State) : Need :=
  let w := wordAt words j.pc
  let opc := bits w 31 26
  if 8 ≤ opc && opc ≤ 13 then
    let size := accessSize opc
    if sPending j (bits w 19 16) then .nothing
    else match accessAt j (bits w 22 20) (bits w 19 16) (bits w 14 0) size with
      | .error _ => .nothing
      | .ok (r, b) => match (accessRows r b size s).find? fun rho => !rowOpen x rho with
        | none => .nothing
        | some rho => .row rho
  else if opc = 14 then
    let two := bits w 25 23 < 2
    if x.ropReady || sPending j (bits w 19 16) || sPending j (bits w 12 9) || (!two && sPending j (bits w 5 2)) then .nothing
    else match ropOperands j w with
      | .error _ => .nothing
      | .ok (d, a, b) => if ropBanks two d a b s then .rowOp else .nothing
  else .nothing

/-- What a job of stall `n` needs next. -/
def jobNeed (n : Nat) (x : Stall) (j : Job) (s : State) : Need :=
  if j.ended.isSome then .nothing
  else match j.work with
    | .program words => programNeed x j words s
    | .rows _ _ | .derive _ _ _ _ => .rowOp
    | .rerank _ => if (rerankEntry n j s).isSome then .staging else .nothing
    | .layer _ _ | .table _ _ _ _ => .staging

/-- Weight of an activation (R220). -/
def needWeight : Need → Nat
  | .nothing => 0
  | .row _ | .staging => 1
  | .rowOp => 3

/-- The activations of a list within the last `span` ns. -/
def within (span ns : Nat) (l : List (Nat × Nat)) : List (Nat × Nat) := l.filter fun e => ns < e.1 + span

/-- Their weight. -/
def weightOf (l : List (Nat × Nat)) : Nat := (l.map (·.2)).foldl (· + ·) 0

/-- Whether another stall of the stack waits for budget and comes before this one in round-robin order (R221). -/
def behindOthers (n : Nat) (s : State) : Bool :=
  let t := n / 32
  let turn := (getStack t s).turn
  let place : Nat → Nat := fun m => (m % 32 + 32 - turn) % 32
  (List.range 32).any fun i => let m := 32 * t + i; m != n && (getStall m s).budgetWait && place m < place n

/-- A byte-wise row operation (R224). -/
def rowByte (op : Nat) (a b : Byte) : Byte :=
  match op with
  | 0 => a
  | 1 => ~~~a
  | 2 => a &&& b
  | 3 => a ||| b
  | _ => a ^^^ b

/-- A row operation performed on region bytes (R224–R226). -/
def rowOperate (op : Nat) (d a b : Nat × Nat) (s : State) : State :=
  let get : Nat × Nat → List Byte := fun x => readBytes (((getRegion x.1 s).map (·.mem)).getD []) x.2 1024
  let va := get a
  let vb := if op < 2 then va else get b
  let out := List.zipWith (rowByte op) va vb
  onRegion d.1 (fun r => { r with mem := writeBytes r.mem d.2 out }) s

/-- One operation of a ROW_OP counted (R228). -/
def countRow (c : CmdRef) (s : State) : State :=
  onStk (fun x => { x with rowCmds := updWhere (·.ref == c) (fun r => { r with count := r.count + 1 }) x.rowCmds }) s

/-- A job's work moved on, and the job ended when that was the last of it. -/
def setJobWork (n : Nat) (j : Job) (w : Work) (last : Bool) (s : State) : State :=
  onJob n j.jid (fun j => { j with work := w, ended := if last then some (0, 0) else j.ended }) s

/-- The next row operation of a PLAIN ROW_OP's job (R228). -/
def rowsStep (n : Nat) (j : Job) (ops : List RowEntry) (next : Nat) (s : State) : State :=
  match ops[next]? with
  | none => setJobWork n j (.rows ops next) true s
  | some e =>
    let s := rowOperate e.op (e.dReg, 1024 * e.dRow) (e.aReg, 1024 * e.aRow) (e.bReg, 1024 * e.bRow) s
    let s := if j.gone then s else countRow j.ref s
    setJobWork n j (.rows ops (next + 1)) (ops.length ≤ next + 1) s

/-- The next row operation of a derivation's job (R229): row `row` of the pseudo-channel is row 256 row + n of the bitmaps, and lies in
the bank whose scratch row it uses. -/
def deriveStep (n : Nat) (j : Job) (h f row step : Nat) (s : State) : State :=
  match getIndex h s with
  | none => setJobWork n j (.derive h f row step) true s
  | some ix =>
    let steps := rowSteps (getFilter ix f).terms
    let r := 256 * row + n
    match steps[step]? with
    | none => setJobWork n j (.derive h f row step) true s
    | some st =>
      let bank := (bitmapPlace ix (ix.desc.attrCount + f) r).2 % 32
      let (ix', x) := runRowStep f r st (ix, sget rowEmpty (getStall n s).scratch bank)
      let s := onStall n (fun y => { y with scratch := sset rowEmpty y.scratch bank x }) (onIndex h (fun _ => ix') s)
      let done := steps.length ≤ step + 1
      setJobWork n j (.derive h f (if done then row + 1 else row) (if done then 0 else step + 1))
        (done && bitmapRows ix ≤ r + 256) s

/-- An activation of a rerank job in staging: the last one of an entry computes its exact distance; after the stall's last entry the
job ends (R122, R124). -/
def rerankStep (n : Nat) (j : Job) (left : Nat) (s : State) : State :=
  match getQuery j.ref s, rerankEntry n j s with
  | some q, some i =>
    if 1 < left then setJobWork n j (.rerank (left - 1)) false s
    else
      let acts := ((getIndex q.handle s).map entryActs).getD 1
      let rest := (nextEntry { q with exact := tput q.exact i 0 } n).isSome
      setJobWork n j (.rerank acts) (!rest) (computeEntry j.ref i s)
  | _, _ => s

/-- Whether a command is a close that is past its commit point with rows to update (R312). -/
def closeCommits (c : CmdRef) (s : State) : Bool := s.emb.cmds.any fun e => e.ref == c && e.kind == .close && e.phase == .commit

/-- The next row of a job that reads or writes rows of a table: `settleJobs` works on it. A row lost to a close past its commit point is
left as it is, and the others go on (R318). -/
def tableStep (n : Nat) (j : Job) (h : Nat) (w : Bool) (rows : List Nat) (left : Nat) (lost : Option (Nat × Bool)) (s : State) : State :=
  let k := rows.length - left
  let g : EmbCmd → EmbCmd := fun e =>
    match lost with
    | none => { e with due := e.due ++ [(rows.getD k 0, k)] }
    | some bad => { e with bad := some (e.bad.getD bad) }
  let s := if j.gone then s else onEmb (fun e => { e with cmds := updWhere (·.ref == j.ref) g e.cmds }) s
  setJobWork n j (.table h w rows (left - 1)) (left ≤ 1) s

/-- What an activation gives its job: an open row, leave for the ROP, the row operation of a service job, or a part of a rerank. -/
def activationEffect (n : Nat) (j : Job) (need : Need) (s : State) : State :=
  match need, j.work with
  | .nothing, _ => s
  | .row rho, _ => onStall n (fun x => { x with opened := tput x.opened (rho % 32) rho }) s
  | _, .program _ => onStall n (fun x => { x with ropReady := true }) s
  | _, .rows ops next => rowsStep n j ops next s
  | _, .derive h f row step => deriveStep n j h f row step s
  | _, .rerank left => rerankStep n j left s
  | _, .layer i left => setJobWork n j (.layer i (left - 1)) (left ≤ 1) s
  | _, .table h w rows left => tableStep n j h w rows left none s

/-- A codeword that a job needed was uncorrectable (R226, R231): the job ends UNCORRECTABLE, and with it its command or query. -/
def activationFails (n : Nat) (j : Job) (row unit ns : Nat) (s : State) : State :=
  let cmd := if j.gone then none else findCmd j.ref s
  let (s, seq, dropped) := dramLost cmd (n / 32) (n % 32) (row % 32) (row / 32) unit s
  let ended := onJob n j.jid (fun j => { j with ended := some (2, 0) }) s
  if j.gone then ended
  else match j.work with
    | .program _ => stopLaunches j.ref ns (onRun j.ref (fun r => { r with bad := some (r.bad.getD (seq, dropped)) }) ended)
    | .rows _ _ | .derive _ _ _ _ => rowCmdFails j.ref seq dropped ended
    | .rerank _ => failQuery j.ref seq dropped ended
    | .layer _ _ => serviceFails j.ref (seq, dropped) ended
    | .table h w rows left =>
      if closeCommits j.ref s then tableStep n j h w rows left (some (seq, dropped)) s else serviceFails j.ref (seq, dropped) ended

/-- The tSPW budget of a stack at a time: a write of BUDGET takes effect at the next 1 µs window (R221, R232). -/
def budgetAt (ns : Nat) (t : Stack) : Nat := if ns / 1000 < t.budgetFrom then t.budgetWas else t.budget

/-- The next activation of the running segment, once tSAW and tSPW admit it (R215, R220, R221). -/
def activate (n : Nat) (ns : Nat) (ecc : EccOutcome) (row unit : Nat) (s : State) : State :=
  let x := getStall n s
  match runningJob x with
  | none => s
  | some j =>
    let need := jobNeed n x j s
    let w := needWeight need
    let t := getStack (n / 32) s
    if w = 0 then s
    else if 4 < weightOf (within 40 ns x.recent) + w then onStall n (fun x => { x with paused := true }) s
    else if budgetAt ns t < weightOf (within 1000 ns t.window) + w || behindOthers n s then
      let s := onStack (n / 32) (fun t => { t with budgetWaits := wrap64 (t.budgetWaits + b2n (!x.budgetWait)) }) s
      onStall n (fun x => { x with paused := true, budgetWait := true }) s
    else
      let rop := b2n (w == 3)
      let s := onStack (n / 32) (fun t => { t with
        window := (ns, w) :: within 1000 ns t.window, turn := (n % 32 + 1) % 32
        acts := wrap64 (t.acts + w), rowOps := wrap64 (t.rowOps + rop), nowActs := t.nowActs + w }) s
      let s := onStall n (fun x => { x with
        recent := (ns, w) :: within 40 ns x.recent, segW := x.segW + w, paused := false, budgetWait := false }) s
      let s := onJob n j.jid (fun j => { j with acts := j.acts + w }) s
      match ecc with
      | .clean => activationEffect n j need s
      | .corrected b => activationEffect n j need (dramCorrected (n / 32) (n % 32) (row % 32) (row / 32) unit b s)
      | .uncorrectable => activationFails n j row unit ns s

/-- Whether the running segment ends at this boundary (R213, R215): also where a rerank has no vector at hand. -/
def segmentEnds (n : Nat) (x : Stall) (j : Job) (ns : Nat) (s : State) : Bool :=
  j.ended.isSome || x.endReq || 64 < x.segW + needWeight (jobNeed n x j s) || 3000 ≤ ns - x.segStart || !hasWork n j s

/-- Whether a row is in the declared write set of the segment that runs on a stall (R196, R200, R214). -/
def inWriteSet (n row : Nat) (s : State) : Bool :=
  match runningJob (getStall n s) with
  | none => false
  | some j =>
    match j.work with
    | .derive h f _ _ => (getIndex h s).any fun ix =>
        let base := (bitmapPlace ix (ix.desc.attrCount + f) n).2
        base ≤ row && row < base + bitmapSpan ix.desc
    | _ => (jobTouches j).any fun t =>
        t.write && 0 < t.len && rowOf t.region t.lo s ≤ row && row ≤ rowOf t.region (t.lo + t.len - 1) s

/-- The hub accesses that have entered a pseudo-channel's queue, as (row, ns of entry), served at a boundary; those to the write set of
the running segment wait for its end (R214, R215). -/
def serveHub (n ns : Nat) (hub : List (Nat × Nat)) (s : State) : State :=
  hub.foldl (fun s a =>
    let x : HubAccess := { row := a.1, since := a.2, write := none }
    if inWriteSet n a.1 s then holdAccess n x s else serveAccess n ns s x) s

/-- The end of a segment, the next job's segment, and the words that loading its state and image reads (R195, R215, R231). Where a
segment opens, `ecc` tells of those words too: one that is lost ends the job. -/
def nextSegment (n ns : Nat) (ecc : EccOutcome) (row unit : Nat) (s : State) : State :=
  let s := openSegment n ns s
  match runningJob (getStall n s), ecc with
  | some j, .uncorrectable => activationFails n j row unit ns s
  | _, _ => activate n ns ecc row unit s

/-- An activation boundary of a stall (R215). `hub` are the hub accesses that have come since the last one, `ecc` is what the codewords
read at it turn out to be, `row` and `unit` where. -/
def boundary (n : Nat) (ns : Nat) (hub : List (Nat × Nat)) (ecc : EccOutcome) (row unit : Nat) (s : State) : State :=
  if 256 ≤ n then s
  else
    let s := serveHub n ns hub s
    let x := getStall n s
    if x.gated || stallHeld n s then s
    else match runningJob x with
      | none => nextSegment n ns ecc row unit s
      | some j =>
        if segmentEnds n x j ns s then nextSegment n ns ecc row unit (closeSegment n ns s)
        else if getDebt n s = 8 then
          let s := onStack (n / 32) (fun t => { t with
            refPauses := wrap64 (t.refPauses + 1), refreshes := wrap64 (t.refreshes + 1) }) (setDebt n 7 s)
          activate n ns ecc row unit (onStall n (fun x => { x with paused := true }) s)
        else activate n ns ecc row unit s

/-- The refresh debt of a pseudo-channel rises; with no segment running it is paid at once (R217). -/
def debtRises (stack pc : Nat) (s : State) : State :=
  let n := 32 * stack + pc
  let d := min 8 (getDebt n s + 1)
  let s := onStack stack (fun t => { t with debtMax := max t.debtMax d }) s
  if (getStall n s).run.isNone then
    onStack stack (fun t => { t with refreshes := wrap64 (t.refreshes + d) }) (setDebt n 0 s)
  else setDebt n d s

/-- The refresh classes of a stack evaluated (R218, R219): a rise at once, a fall after 100 evaluations in a row. -/
def evalRefresh (temp : Nat) (t : Stack) : Stack :=
  let act := t.nowActs + t.recentActs.foldl (· + ·) 0
  let tc := if temp ≤ 85 then 0 else if temp ≤ 95 then 1 else 2
  let ac := if 1000 * t.act4 ≤ act then 2 else if 1000 * t.act2 ≤ act then 1 else 0
  let m := max tc (max ac t.multMin)
  let t := { t with temp := temp, tempClass := tc, actClass := ac, recentActs := (t.nowActs :: t.recentActs).take 9,
                    nowActs := 0 }
  if t.mult ≤ m then { t with mult := m, fallRun := 0, fallTo := 0 }
  else if t.fallRun + 1 < 100 then { t with fallRun := t.fallRun + 1, fallTo := max t.fallTo m }
  else { t with mult := max t.fallTo m, fallRun := 0, fallTo := 0 }

/-- REFRESH_DEBT_INCREMENT (R217). -/
def execRefreshDebtIncrement (stack pc : Nat) (s : State) : Host.Outcome State Fault Refusal :=
  .next (debtRises stack pc s)

/-- REFRESH_CLASS_EVALUATION (R219). -/
def execRefreshClassEvaluation (stack temp : Nat) (s : State) : Host.Outcome State Fault Refusal :=
  .next (onStack stack (evalRefresh temp) s)

end Sys2Proof.Machine
end

