-- ==== Sys2Proof/Machine/StallIsa.lean ====
section
/-!
DEFINITION. The stall instruction set (R198–R206): what each instruction does to the job whose segment runs, and which
instruction stands at its PC.
-/
namespace Sys2Proof.Machine

/-- An S register; S0 reads as zero (R198). -/
def readS (j : Job) (r : Nat) : W32 := if r = 0 then 0 else j.s.getD r 0

/-- A V register. -/
def readV (j : Job) (r : Nat) : List W16 := j.v.getD r []

/-- An accumulator. -/
def readA (j : Job) (r : Nat) : List Nat := (j.a.getD r []).map (·.toNat)

/-- A load overtaken by a later write of its register. -/
def overtake (cls : RegClass) (r : Nat) (loads : List Load) : List Load :=
  loads.map fun l => if l.cls == cls && l.reg == r then { l with live := false } else l

/-- An S register written; writes to S0 are discarded (R198). -/
def writeS (r : Nat) (v : W32) (j : Job) : Job :=
  if r = 0 then j else { j with s := j.s.set r v, loads := overtake .s r j.loads }

/-- A V register written. -/
def writeV (r : Nat) (v : List W16) (j : Job) : Job := { j with v := j.v.set r v, loads := overtake .v r j.loads }

/-- An accumulator written. -/
def writeA (r : Nat) (v : List W32) (j : Job) : Job := { j with a := j.a.set r v, loads := overtake .a r j.loads }

/-- The effect of an instruction: the job and the machine after it, or none while it cannot issue yet. -/
abbrev Effect := Job → State → Option (Job × State)

/-- An effect on the job alone. -/
def onRegs (f : Job → Job) : Effect := fun j s => some (f j, s)

/-- A job that ends with a FAULT (R201). -/
def faultJob (f : Nat) (j : Job) : Job := { j with ended := some (1, f) }

/-- Whether a register waits for load data (R202). -/
def regPending (j : Job) (r : RegClass × Nat) : Bool :=
  !(r.1 == .s && r.2 == 0) && j.loads.any fun l => l.live && l.cls == r.1 && l.reg == r.2

/-- The word at the PC of a program job. -/
def currentWord (j : Job) : Option Nat :=
  match j.work with
  | .program words => some (wordAt words j.pc)
  | _ => none

/-- One instruction of stall `n` issued (R202): opcode and fields have to stand in the word at the PC of the running job,
and the registers it reads have to be there. -/
def issue (n opc : Nat) (fields : List (Nat × Nat × Nat)) (reads : List (RegClass × Nat)) (act : Effect) (s : State) :
    State :=
  match runningJob (getStall n s) with
  | none => s
  | some j =>
    match currentWord j with
    | none => s
    | some w =>
      if bits w 31 26 != opc || fields.any (fun f => bits w f.1 f.2.1 != f.2.2) || j.ended.isSome
          || reads.any (regPending j) || stallHeld n s then s
      else
        let last := match j.work with
          | .program words => if j.pc < words.length then j.pc else j.lastPc
          | _ => j.lastPc
        match act { j with lastPc := last, pc := j.pc + 1 } s with
        | none => s
        | some (j, s) => onJob n j.jid (fun _ => j) s

/-- Fields of format B: D and TARGET. -/
def fieldsB (d target : Nat) : List (Nat × Nat × Nat) := [(25, 22, d), (7, 0, target)]
/-- Fields of format M. -/
def fieldsM (reg w sa : Nat) (inc : Bool) (imm : Nat) : List (Nat × Nat × Nat) :=
  [(25, 23, reg), (22, 20, w), (19, 16, sa), (15, 15, b2n inc), (14, 0, imm)]
/-- D and A of format S. -/
def fieldsS (d a : Nat) : List (Nat × Nat × Nat) := [(25, 22, d), (21, 18, a)]

/-- Lanes of a V register from results that may lack a stated value. -/
def putLanes (d : Nat) (xs : List (Option Nat)) : Effect := fun j s =>
  let j := writeV d ((fillLanes s.free xs).map (BitVec.ofNat 16 ·)) j
  some (j, if anyUnstated xs then takeFree 1 s else s)

/-- Lanes of an accumulator from results that may lack a stated value or saturate (R206). -/
def putAcc (d : Nat) (xs : List AccOut) : Effect := fun j s =>
  let vs := xs.map (·.1)
  let j := writeA d ((fillLanes s.free vs).map (BitVec.ofNat 32 ·)) { j with sat := j.sat || xs.any (·.2) }
  some (j, if anyUnstated vs then takeFree 1 s else s)

/-- Values converted into the lanes of a V register (R206, R251); those that the lane type cannot hold as they are count for the
job's partition (R263). -/
def convertLanes (d : Nat) (vs : List Fv) : Effect := fun j s =>
  let lost := (vs.filter (laneLacks (modeLt j.mode))).length
  let s := if lost = 0 then s else onTilCounts j.part (fun c => { c with nonfinite := wrap64 (c.nonfinite + lost) }) s
  putLanes d (vs.map (laneNarrow (modeLt j.mode) (modeTrunc j.mode))) j s

/-- Two V registers combined lane by lane. -/
def mapLanes (f : Nat → Bool → W16 → W16 → Option Nat) (d a b : Nat) : Effect := fun j s =>
  putLanes d (List.zipWith (f (modeLt j.mode) (modeTrunc j.mode)) (readV j a) (readV j b)) j s

/-- An accumulator and two lane lists combined lane by lane. -/
def mapAcc (f : Nat → Bool → W16 → W16 → AccOut) (d : Nat) (a b : Job → List W16) : Effect := fun j s =>
  let int := modeInt j.mode
  let ps := List.zipWith (f (modeLt j.mode) int) (a j) (b j)
  putAcc d (List.zipWith (accInto int) (readA j d) ps) j s

/-- An accumulator combined with another list of accumulator values lane by lane. -/
def zipAcc (f : Bool → Nat → Nat → AccOut) (d a : Nat) (b : Job → List Nat) : Effect := fun j s =>
  putAcc d (List.zipWith (f (modeInt j.mode)) (readA j a) (b j)) j s

/-- The low 16 bits of an S register in every lane. -/
def bcastS (j : Job) (r : Nat) : List W16 := List.replicate 32 ((readS j r).setWidth 16)

/-- A lane operation of exact value `f`, narrowed as MODE.RND selects (R206). -/
def laneExact (f : Fv → Fv → Fv) (lt : Nat) (trunc : Bool) (x y : W16) : Option Nat :=
  laneNarrow lt trunc (f (laneValue lt x) (laneValue lt y))

/-- A memory access through a window (R200–R202): faults, or waits for its rows; then `f` acts at the region byte, and INC
adds the access size to the scalar address. -/
def memAccess (n w sa imm size : Nat) (inc : Bool) (f : Nat → Nat → Effect) : Effect := fun j s =>
  match accessAt j w sa imm size with
  | .error e => some (faultJob e j, s)
  | .ok (r, b) =>
    if (accessRows r b size s).any fun rho => !rowOpen (getStall n s) rho then none
    else match f r b j s with
      | none => none
      | some (j, s) => some (if inc then writeS sa (readS j sa + BitVec.ofNat 32 size) j else j, s)

/-- A load (R202): its data are read now and reach the register when they arrive; at most 8 are outstanding. -/
def loadInto (cls : RegClass) (reg size plus : Nat) (r b : Nat) : Effect := fun j s =>
  if 8 ≤ j.loads.length then none
  else
    let data := readBytes (((getRegion r s).map (·.mem)).getD []) b size
    some ({ j with loads := overtake cls reg j.loads ++
      [{ cls := cls, reg := reg, data := data, plus := plus, live := !(cls == .s && reg == 0) }] }, s)

/-- A store of bytes (R204). -/
def storeFrom (bytes : Job → List Byte) (r b : Nat) : Effect := fun j s =>
  some (j, onRegion r (fun x => { x with mem := writeBytes x.mem b (bytes j) }) s)

/-- Whether a load into an S register is its own scalar address with INC: the size is added to what it loads. -/
def selfInc (reg sa : Nat) (inc : Bool) : Bool := inc && reg == sa && sa != 0

/-- The words of a load's data. -/
def wordsOf (size n : Nat) (bs : List Byte) : List Nat := (chunks size n bs).map leNat

/-- A load's data arriving in its register. -/
def arrive (l : Load) (j : Job) : Job :=
  if !l.live then j
  else match l.cls with
    | .v => { j with v := j.v.set l.reg ((wordsOf 2 32 l.data).map (BitVec.ofNat 16 ·)) }
    | .a => { j with a := j.a.set l.reg ((wordsOf 4 32 l.data).map (BitVec.ofNat 32 ·)) }
    | .s => { j with s := j.s.set l.reg (BitVec.ofNat 32 (leNat l.data + l.plus)) }

/-- Load `k` of the outstanding loads of a stall, counted over its jobs in arrival order, arrives (R202). -/
def arriveIn : Nat → List Job → List Job
  | _, [] => []
  | k, j :: js =>
    if k < j.loads.length then
      match j.loads[k]? with
      | some l => arrive l { j with loads := j.loads.eraseIdx k } :: js
      | none => j :: js
    else j :: arriveIn (k - j.loads.length) js

/-- STALL_NOP (R204). -/
def execStallNop (st : Nat) (s : State) : Host.Outcome State Fault Refusal := .next (issue st 0x00 [] [] (onRegs id) s)

/-- STALL_END (R204): the job ends normally at the boundary that closes its segment. -/
def execStallEnd (st : Nat) (s : State) : Host.Outcome State Fault Refusal :=
  .next (issue st 0x01 [] [] (onRegs fun j => { j with ended := some (0, 0) }) s)

/-- STALL_SEG (R204, R213): the segment ends at the next activation boundary. -/
def execStallSeg (st : Nat) (s : State) : Host.Outcome State Fault Refusal :=
  .next (issue st 0x02 [] [] (fun j s => some (j, onStall st (fun x => { x with endReq := true }) s)) s)

/-- STALL_BR (R204). -/
def execStallBr (st target : Nat) (s : State) : Host.Outcome State Fault Refusal :=
  .next (issue st 0x03 [(7, 0, target)] [] (onRegs fun j => { j with pc := target }) s)

/-- STALL_DBNZ (R204). -/
def execStallDbnz (st sd target : Nat) (s : State) : Host.Outcome State Fault Refusal :=
  .next (issue st 0x04 (fieldsB sd target) [(.s, sd)] (onRegs fun j =>
    let j := writeS sd (readS j sd - 1) j
    if readS j sd ≠ 0 then { j with pc := target } else j) s)

/-- STALL_BZ (R204). -/
def execStallBz (st sd target : Nat) (s : State) : Host.Outcome State Fault Refusal :=
  .next (issue st 0x05 (fieldsB sd target) [(.s, sd)] (onRegs fun j =>
    if readS j sd = 0 then { j with pc := target } else j) s)

/-- STALL_SETMODE (R204). -/
def execStallSetmode (st lt : Nat) (at1 rnd : Bool) (s : State) : Host.Outcome State Fault Refusal :=
  .next (issue st 0x06 [(25, 24, lt), (23, 23, b2n at1), (22, 22, b2n rnd)] []
    (onRegs fun j => { j with mode := 4 * lt + 2 * b2n at1 + b2n rnd }) s)

/-- STALL_LD (R200, R204). -/
def execStallLd (st reg w sa : Nat) (inc : Bool) (imm : Nat) (s : State) : Host.Outcome State Fault Refusal :=
  .next (issue st 0x08 (fieldsM reg w sa inc imm) [(.s, sa)] (memAccess st w sa imm 64 inc (loadInto .v reg 64 0)) s)

/-- STALL_ST (R200, R204). -/
def execStallSt (st reg w sa : Nat) (inc : Bool) (imm : Nat) (s : State) : Host.Outcome State Fault Refusal :=
  .next (issue st 0x09 (fieldsM reg w sa inc imm) [(.s, sa), (.v, reg)] (memAccess st w sa imm 64 inc
    (storeFrom fun j => (readV j reg).flatMap fun x => leBytes 2 x.toNat)) s)

/-- STALL_LDA (R200, R204). -/
def execStallLda (st reg w sa : Nat) (inc : Bool) (imm : Nat) (s : State) : Host.Outcome State Fault Refusal :=
  .next (issue st 0x0A (fieldsM reg w sa inc imm) [(.s, sa)] (memAccess st w sa imm 128 inc (loadInto .a reg 128 0)) s)

/-- STALL_STA (R200, R204). -/
def execStallSta (st reg w sa : Nat) (inc : Bool) (imm : Nat) (s : State) : Host.Outcome State Fault Refusal :=
  .next (issue st 0x0B (fieldsM reg w sa inc imm) [(.s, sa), (.a, reg)] (memAccess st w sa imm 128 inc
    (storeFrom fun j => (readA j reg).flatMap (leBytes 4))) s)

/-- STALL_LDS (R200, R204); with INC on the register it loads, the size is added to what arrives. -/
def execStallLds (st reg w sa : Nat) (inc : Bool) (imm : Nat) (s : State) : Host.Outcome State Fault Refusal :=
  let self := selfInc reg sa inc
  .next (issue st 0x0C (fieldsM reg w sa inc imm) [(.s, sa)]
    (memAccess st w sa imm 4 (inc && !self) (loadInto .s reg 4 (4 * b2n self))) s)

/-- STALL_STS (R200, R204). -/
def execStallSts (st reg w sa : Nat) (inc : Bool) (imm : Nat) (s : State) : Host.Outcome State Fault Refusal :=
  .next (issue st 0x0D (fieldsM reg w sa inc imm) [(.s, sa), (.s, reg)] (memAccess st w sa imm 4 inc
    (storeFrom fun j => leBytes 4 (readS j reg).toNat)) s)

/-- The row operation of a ROP, once its activation is granted (R215, R224–R226). -/
def ropEffect (n : Nat) : Effect := fun j s =>
  match currentWord { j with pc := j.lastPc } with
  | none => none
  | some w =>
    let op := bits w 25 23
    match ropOperands j w with
    | .error e => some (faultJob e j, s)
    | .ok (d, a, b) =>
      if !ropBanks (op < 2) d a b s then some (faultJob 3 j, s)
      else if !(getStall n s).ropReady then none
      else some (j, onStall n (fun x => { x with ropReady := false }) (rowOperate op d a b s))

/-- STALL_ROP (R224–R226). -/
def execStallRop (st op wd sd wa sa wb sb : Nat) (s : State) : Host.Outcome State Fault Refusal :=
  .next (issue st 0x0E [(25, 23, op), (22, 20, wd), (19, 16, sd), (15, 13, wa), (12, 9, sa), (8, 6, wb), (5, 2, sb)]
    ([(.s, sd), (.s, sa)] ++ if op < 2 then [] else [(.s, sb)]) (ropEffect st) s)

/-- A scalar instruction of two registers. -/
def scalar2 (st opc sd sa sb : Nat) (f : W32 → W32 → W32) (s : State) : State :=
  issue st opc (fieldsS sd sa ++ [(17, 14, sb)]) [(.s, sa), (.s, sb)] (onRegs fun j =>
    writeS sd (f (readS j sa) (readS j sb)) j) s

/-- A scalar instruction of a register and IMM14. -/
def scalarImm (st opc sd sa imm : Nat) (f : W32 → Nat → W32) (s : State) : State :=
  issue st opc (fieldsS sd sa ++ [(13, 0, imm)]) [(.s, sa)] (onRegs fun j => writeS sd (f (readS j sa) imm) j) s

/-- STALL_SADD (R204). -/
def execStallSadd (st sd sa sb : Nat) (s : State) : Host.Outcome State Fault Refusal :=
  .next (scalar2 st 0x10 sd sa sb (fun a b => a + b) s)
/-- STALL_SSUB (R204). -/
def execStallSsub (st sd sa sb : Nat) (s : State) : Host.Outcome State Fault Refusal :=
  .next (scalar2 st 0x11 sd sa sb (fun a b => a - b) s)
/-- STALL_SMUL (R204). -/
def execStallSmul (st sd sa sb : Nat) (s : State) : Host.Outcome State Fault Refusal :=
  .next (scalar2 st 0x12 sd sa sb (fun a b => a * b) s)
/-- STALL_SADDI (R204): IMM14 sign-extended. -/
def execStallSaddi (st sd sa imm : Nat) (s : State) : Host.Outcome State Fault Refusal :=
  .next (scalarImm st 0x13 sd sa imm (fun a i => a + (BitVec.ofNat 14 i).signExtend 32) s)
/-- STALL_SMULI (R204). -/
def execStallSmuli (st sd sa imm : Nat) (s : State) : Host.Outcome State Fault Refusal :=
  .next (scalarImm st 0x14 sd sa imm (fun a i => a * BitVec.ofNat 32 i) s)
/-- STALL_SSHLI (R204). -/
def execStallSshli (st sd sa imm : Nat) (s : State) : Host.Outcome State Fault Refusal :=
  .next (scalarImm st 0x15 sd sa imm (fun a i => a <<< (i % 32)) s)
/-- STALL_SSHRI (R204): a logical shift. -/
def execStallSshri (st sd sa imm : Nat) (s : State) : Host.Outcome State Fault Refusal :=
  .next (scalarImm st 0x16 sd sa imm (fun a i => a >>> (i % 32)) s)
/-- STALL_SANDI (R204). -/
def execStallSandi (st sd sa imm : Nat) (s : State) : Host.Outcome State Fault Refusal :=
  .next (scalarImm st 0x17 sd sa imm (fun a i => a &&& BitVec.ofNat 32 i) s)
/-- STALL_SORI (R204). -/
def execStallSori (st sd sa imm : Nat) (s : State) : Host.Outcome State Fault Refusal :=
  .next (scalarImm st 0x18 sd sa imm (fun a i => a ||| BitVec.ofNat 32 i) s)
/-- STALL_SLUI (R204). -/
def execStallSlui (st sd imm : Nat) (s : State) : Host.Outcome State Fault Refusal :=
  .next (issue st 0x19 [(25, 22, sd), (21, 0, imm)] [] (onRegs (writeS sd (BitVec.ofNat 32 (imm * 1024)))) s)

/-- D, A and B of format R. -/
def fieldsR3 (d a b : Nat) : List (Nat × Nat × Nat) := [(25, 23, d), (22, 20, a), (19, 17, b)]

/-- STALL_VMAC (R204, R206). -/
def execStallVmac (st ad va vb : Nat) (s : State) : Host.Outcome State Fault Refusal :=
  .next (issue st 0x20 (fieldsR3 ad va vb) [(.a, ad), (.v, va), (.v, vb)]
    (mapAcc laneProduct ad (readV · va) (readV · vb)) s)
/-- STALL_VMACS (R204, R206). -/
def execStallVmacs (st ad va ss : Nat) (s : State) : Host.Outcome State Fault Refusal :=
  .next (issue st 0x21 [(25, 23, ad), (22, 20, va), (16, 13, ss)] [(.a, ad), (.v, va), (.s, ss)]
    (mapAcc laneProduct ad (readV · va) (bcastS · ss)) s)
/-- STALL_VSQD (R204, R206). -/
def execStallVsqd (st ad va vb : Nat) (s : State) : Host.Outcome State Fault Refusal :=
  .next (issue st 0x22 (fieldsR3 ad va vb) [(.a, ad), (.v, va), (.v, vb)]
    (mapAcc laneSquare ad (readV · va) (readV · vb)) s)
/-- STALL_VADD (R204, R206). -/
def execStallVadd (st vd va vb : Nat) (s : State) : Host.Outcome State Fault Refusal :=
  .next (issue st 0x23 (fieldsR3 vd va vb) [(.v, va), (.v, vb)] (mapLanes (laneExact faddX) vd va vb) s)
/-- STALL_VSUB (R204, R206). -/
def execStallVsub (st vd va vb : Nat) (s : State) : Host.Outcome State Fault Refusal :=
  .next (issue st 0x24 (fieldsR3 vd va vb) [(.v, va), (.v, vb)]
    (mapLanes (laneExact fun x y => faddX x (fneg y)) vd va vb) s)
/-- STALL_VMUL (R204, R206). -/
def execStallVmul (st vd va vb : Nat) (s : State) : Host.Outcome State Fault Refusal :=
  .next (issue st 0x25 (fieldsR3 vd va vb) [(.v, va), (.v, vb)] (mapLanes (laneExact fmulX) vd va vb) s)
/-- STALL_VMAX (R204). -/
def execStallVmax (st vd va vb : Nat) (s : State) : Host.Outcome State Fault Refusal :=
  .next (issue st 0x26 (fieldsR3 vd va vb) [(.v, va), (.v, vb)] (mapLanes (fun lt _ => lanePick lt true) vd va vb) s)
/-- STALL_VMIN (R204). -/
def execStallVmin (st vd va vb : Nat) (s : State) : Host.Outcome State Fault Refusal :=
  .next (issue st 0x27 (fieldsR3 vd va vb) [(.v, va), (.v, vb)] (mapLanes (fun lt _ => lanePick lt false) vd va vb) s)
/-- STALL_VBCAST (R204). -/
def execStallVbcast (st vd ss : Nat) (s : State) : Host.Outcome State Fault Refusal :=
  .next (issue st 0x28 [(25, 23, vd), (16, 13, ss)] [(.s, ss)] (onRegs fun j => writeV vd (bcastS j ss) j) s)
/-- STALL_VMOV (R204). -/
def execStallVmov (st vd va : Nat) (s : State) : Host.Outcome State Fault Refusal :=
  .next (issue st 0x29 [(25, 23, vd), (22, 20, va)] [(.v, va)] (onRegs fun j => writeV vd (readV j va) j) s)

/-- STALL_UNPK4 (R205, R206). -/
def execStallUnpk4 (st vd va ss quarter : Nat) (fp4 fp8Scale : Bool) (s : State) : Host.Outcome State Fault Refusal :=
  .next (issue st 0x2A
    [(25, 23, vd), (22, 20, va), (16, 13, ss), (12, 11, quarter), (10, 10, b2n fp4), (9, 9, b2n fp8Scale)]
    [(.v, va), (.s, ss)] (fun j s =>
      convertLanes vd (unpack4 (readV j va) quarter fp4 fp8Scale ((readS j ss).toNat % 256)) j s) s)

/-- STALL_UNPK8 (R205, R206). -/
def execStallUnpk8 (st vd va : Nat) (upper : Bool) (ef : Nat) (s : State) : Host.Outcome State Fault Refusal :=
  .next (issue st 0x2B [(25, 23, vd), (22, 20, va), (12, 12, b2n upper), (11, 10, ef)] [(.v, va)] (fun j s =>
    convertLanes vd (unpack8 (readV j va) upper ef) j s) s)

/-- STALL_VRSQ (R206). -/
def execStallVrsq (st vd va : Nat) (s : State) : Host.Outcome State Fault Refusal :=
  .next (issue st 0x2C [(25, 23, vd), (22, 20, va)] [(.v, va)] (fun j s =>
    putLanes vd ((readV j va).map (laneRsqrt (modeLt j.mode))) j s) s)
/-- STALL_VRCP (R206). -/
def execStallVrcp (st vd va : Nat) (s : State) : Host.Outcome State Fault Refusal :=
  .next (issue st 0x2D [(25, 23, vd), (22, 20, va)] [(.v, va)] (fun j s =>
    putLanes vd ((readV j va).map (laneRecip (modeLt j.mode))) j s) s)

/-- STALL_ACLR (R204). -/
def execStallAclr (st ad : Nat) (s : State) : Host.Outcome State Fault Refusal :=
  .next (issue st 0x30 [(25, 23, ad)] [] (onRegs (writeA ad (List.replicate 32 0))) s)
/-- STALL_AADD (R204). -/
def execStallAadd (st ad aa : Nat) (s : State) : Host.Outcome State Fault Refusal :=
  .next (issue st 0x31 [(25, 23, ad), (22, 20, aa)] [(.a, ad), (.a, aa)] (zipAcc accAdd ad ad (readA · aa)) s)
/-- STALL_AMUL (R204). -/
def execStallAmul (st ad aa : Nat) (s : State) : Host.Outcome State Fault Refusal :=
  .next (issue st 0x32 [(25, 23, ad), (22, 20, aa)] [(.a, ad), (.a, aa)] (zipAcc accMul ad ad (readA · aa)) s)
/-- STALL_AMULS (R204). -/
def execStallAmuls (st ad ss : Nat) (s : State) : Host.Outcome State Fault Refusal :=
  .next (issue st 0x33 [(25, 23, ad), (16, 13, ss)] [(.a, ad), (.s, ss)]
    (zipAcc accMul ad ad fun j => List.replicate 32 (readS j ss).toNat) s)
/-- STALL_AWID (R204). -/
def execStallAwid (st ad va : Nat) (s : State) : Host.Outcome State Fault Refusal :=
  .next (issue st 0x34 [(25, 23, ad), (22, 20, va)] [(.v, va)] (fun j s =>
    putAcc ad ((readV j va).map (laneWiden (modeLt j.mode) (modeInt j.mode))) j s) s)
/-- STALL_CVT (R204, R206). -/
def execStallCvt (st vd aa : Nat) (s : State) : Host.Outcome State Fault Refusal :=
  .next (issue st 0x35 [(25, 23, vd), (22, 20, aa)] [(.a, aa)] (fun j s =>
    convertLanes vd ((readA j aa).map (accValue (modeInt j.mode))) j s) s)
/-- STALL_ARED (R124, R204). -/
def execStallAred (st ss aa : Nat) (s : State) : Host.Outcome State Fault Refusal :=
  .next (issue st 0x36 [(16, 13, ss), (22, 20, aa)] [(.a, aa)] (onRegs fun j =>
    let t := accTree (modeInt j.mode) 5 (readA j aa)
    writeS ss (BitVec.ofNat 32 (t.1.getD 0)) { j with sat := j.sat || t.2 }) s)
/-- STALL_ARSQ (R206). -/
def execStallArsq (st ad aa ss : Nat) (s : State) : Host.Outcome State Fault Refusal :=
  .next (issue st 0x37 [(25, 23, ad), (22, 20, aa), (16, 13, ss)] [(.a, aa), (.s, ss)]
    (zipAcc accRsqrt ad aa fun j => List.replicate 32 (readS j ss).toNat) s)

/-- LOAD_DATA_ARRIVAL (R202). -/
def execLoadDataArrival (st n : Nat) (s : State) : Host.Outcome State Fault Refusal :=
  .next (onStall st (fun x => { x with jobs := arriveIn n x.jobs }) s)

end Sys2Proof.Machine
end

