-- ==== Sys2Proof/Machine/StallRun.lean ====
section
/-!
DEFINITION. STALL_RUN and ROW_OP: their checks and their start (R207–R212, R227–R230).
-/
namespace Sys2Proof.Machine

/-! Program images (R203, R207, R208). -/

/-- The format of an opcode (R203, R204): C, SETMODE apart, B, M, P, S, U, R. -/
inductive Format where
  | c
  | setmode
  | b
  | m
  | p
  | s
  | u
  | r
deriving DecidableEq, Repr

/-- The format of an opcode; none for an undefined one (R204). -/
def formatOf (opc : Nat) : Option Format :=
  if opc ≤ 0x02 then some .c
  else if opc ≤ 0x05 then some .b
  else if opc = 0x06 then some .setmode
  else if 0x08 ≤ opc ∧ opc ≤ 0x0D then some .m
  else if opc = 0x0E then some .p
  else if 0x10 ≤ opc ∧ opc ≤ 0x18 then some .s
  else if opc = 0x19 then some .u
  else if (0x20 ≤ opc ∧ opc ≤ 0x2D) ∨ (0x30 ≤ opc ∧ opc ≤ 0x37) then some .r
  else none

/-- The fields of format R that name an accumulator: D, and A (R204). -/
def accFields (opc : Nat) : Bool × Bool :=
  (opc ∈ [0x20, 0x21, 0x22, 0x30, 0x31, 0x32, 0x33, 0x34, 0x37], opc ∈ [0x31, 0x32, 0x35, 0x36, 0x37])

/-- The SUB field of an instruction of format R is valid (R205). -/
def subOk (opc w : Nat) : Bool :=
  if opc = 0x2A then bits w 8 0 == 0
  else if opc = 0x2B then bits w 9 0 == 0 && bits w 11 10 != 3
  else bits w 12 0 == 0

/-- Windows an instruction reads, and writes, as bit masks (R207, R208). -/
def windowUse (opc w : Nat) : Nat × Nat :=
  if opc ∈ [0x08, 0x0A, 0x0C] then (2 ^ bits w 22 20, 0)
  else if opc ∈ [0x09, 0x0B, 0x0D] then (0, 2 ^ bits w 22 20)
  else if opc = 0x0E then
    (Nat.lor (2 ^ bits w 15 13) (if bits w 25 23 < 2 then 0 else 2 ^ bits w 8 6), 2 ^ bits w 22 20)
  else (0, 0)

/-- Whether a mask holds another. -/
def maskHas (m sub : Nat) : Bool := Nat.land m sub == sub

/-- Whether a word may stand in a program of `count` words with the window masks given (R208). -/
def wordOk (count winRead winWrite w : Nat) : Bool :=
  let opc := bits w 31 26
  let use := windowUse opc w
  maskHas winRead use.1 && maskHas winWrite use.2 &&
  match formatOf opc with
  | none => false
  | some .c => bits w 25 0 == 0
  | some .setmode => bits w 21 0 == 0 && bits w 25 24 != 3
  | some .b => bits w 21 8 == 0 && bits w 7 0 < count
  | some .m => !(opc == 0x0A || opc == 0x0B) || bits w 25 23 < 4
  | some .p => bits w 1 0 == 0 && bits w 25 23 ≤ 4
  | some .s => true
  | some .u => true
  | some .r => subOk opc w && (!(accFields opc).1 || bits w 25 23 < 4) && (!(accFields opc).2 || bits w 22 20 < 4)

/-- The words of an image. -/
def imageWords (img : List Byte) : List Nat := (List.range (field img 6 2)).map fun i => field img (64 + 4 * i) 4

/-- Whether an image is what R207 and R208 ask of it. -/
def imageOk (img : List Byte) : Bool :=
  let n := field img 6 2
  field img 0 4 == 0x4C4C5453 && field img 4 2 == 1 && 1 ≤ n && n ≤ 256 && img.length == 64 + 4 * n
    && field img 10 1 < 12 && zeroField img 11 1 && zeroField img 16 48 && checkOk 12 img
    && (imageWords img).all (wordOk n (field img 8 1) (field img 9 1))

/-! Launches (R209, R210). -/

/-- Launch entry `i` of a parameter block. -/
def launchBytes (ps : List Byte) (i : Nat) : List Byte := (ps.drop (64 + 128 * i)).take 128

/-- A window of a launch entry; none when it is undefined. -/
def launchWindow (l : List Byte) (n : Nat) : Option Window :=
  let o := 32 + 12 * n
  if field l o 2 = 0 then none
  else some { region := field l o 2, rw := field l (o + 2) 1 == 1, off := field l (o + 4) 4, len := field l (o + 8) 4 }

/-- Whether a window entry is BAD_PARAM for a partition and a stall (R6, R208, R210). -/
def windowBad (img l : List Byte) (p stall : Nat) (s : State) (n : Nat) : Bool :=
  let o := 32 + 12 * n
  let read := bit (field img 8 1) n
  let write := bit (field img 9 1) n
  match launchWindow l n with
  | none => read || write || !zeroField l o 12
  | some w =>
    1 < field l (o + 2) 1 || !zeroField l (o + 3) 1 || (write && !w.rw) || w.off % 64 != 0 || w.len % 64 != 0 ||
    match getRegion w.region s with
    | none => true
    | some r => r.part != p || !r.pinned || r.stall != stall || r.bytes < w.off + w.len

/-- Whether a launch entry is BAD_PARAM (R210). -/
def launchBad (img ps : List Byte) (p : Nat) (s : State) (i : Nat) : Bool :=
  let l := launchBytes ps i
  255 < field l 0 2 || !zeroField l 2 2 || (List.range 8).any (windowBad img l p (field l 0 2) s)

/-- The checks of STALL_RUN (R207–R211, R231, R491). -/
def stallRunCheck (k : Cmd) (ps inp : List Byte) (s : State) : Verdict :=
  let n := field ps 0 2
  let p := cmdPart k
  let stalls := (List.range n).map fun i => field (launchBytes ps i) 0 2
  firstFail [
    (!k.pptr || n < 1 || 256 < n || ps.length != 64 + 128 * n || !zeroField ps 2 2 || !zeroField ps 8 56
      || k.resultLen < 64 * n, stBadParam),
    (stalls.any fun st => st < 256 && unitOwner .stall st s != some p, stRefused),
    (stalls.any fun st => s.err.outs.any fun u => u.kind == .stall && u.unit == st && u.retired, stRefused),
    (awaitsSpare [.stall] p s, stBusy),
    (hasTwice stalls || !imageOk inp || (List.range n).any (launchBad inp ps p s), stBadParam)]

/-- STALL_RUN begun: one program job per launch (R194, R198, R212). -/
def beginStallRun (resultOk : Bool) (k : Cmd) (ps inp : List Byte) (s : State) : State :=
  let n := field ps 0 2
  let p := cmdPart k
  let words := imageWords inp
  let run : StallRun := { ref := k.ref, part := p, launches := n, records := [], ended := 0, faulted := false,
                          bad := none, resultOk := resultOk }
  let s := onStk (fun x => { x with runs := x.runs ++ [run] }) s
  (List.range n).foldl (fun s i =>
    let l := launchBytes ps i
    let init := (List.range 7).map fun r => BitVec.ofNat 32 (field l (4 + 4 * r) 4)
    let j := newJob k.ref p k.queue.q i (.program words)
    addJob (field l 0 2) { j with
      wins := (List.range 8).map (launchWindow l), s := [0] ++ init ++ List.replicate 8 0
      mode := field inp 10 1, maxSegs := field ps 4 4 } s) s

/-! ROW_OP (R227–R230). -/

/-- Entry `i` of a PLAIN input (R228). -/
def rowEntry (inp : List Byte) (i : Nat) : RowEntry :=
  let e := (inp.drop (24 * i)).take 24
  { op := field e 0 1, dReg := field e 2 2, aReg := field e 4 2, bReg := field e 6 2, dRow := field e 8 4,
    aRow := field e 12 4, bRow := field e 16 4 }

/-- A row of a region: its pseudo-channel and bank, when the partition owns the region and it has the row. -/
def rowPlace (p region row : Nat) (s : State) : Option (Nat × Nat) :=
  match getRegion region s with
  | none => none
  | some r => if r.part = p ∧ r.pinned ∧ 1024 * row + 1024 ≤ r.bytes then some (r.stall, row % 32) else none

/-- Whether an entry is BAD_PARAM (R6, R224, R225, R228). -/
def rowEntryBad (p : Nat) (inp : List Byte) (s : State) (i : Nat) : Bool :=
  let b := (inp.drop (24 * i)).take 24
  let e := rowEntry inp i
  let d := rowPlace p e.dReg e.dRow s
  let a := rowPlace p e.aReg e.aRow s
  4 < e.op || !zeroField b 1 1 || !zeroField b 20 4 || d.isNone || a != d
    || (if e.op < 2 then e.bReg != 0 || e.bRow != 0 else rowPlace p e.bReg e.bRow s != d)

/-- The recipe terms of a DERIVE (R227). -/
def recipeTerms (ps : List Byte) : List Nat := (List.range (field ps 2 1)).map fun i => field ps (4 + 2 * i) 2

/-- The packet check common to the forms of ROW_OP (R227). -/
def rowOpPacketBad (k : Cmd) : Bool := k.resultLen != 0

/-- The checks of ROW_OP PLAIN (R227, R228). -/
def rowPlainCheck (k : Cmd) (ps inp : List Byte) (s : State) : Verdict :=
  let n := field ps 20 4
  firstFail [
    (rowOpPacketBad k || k.handle != 0 || !zeroField ps 1 2 || !zeroField ps 4 16 || n < 1 || 1048576 < n
      || k.dataLen != 24 * n, stBadParam),
    (awaitsSpare [.stall] (cmdPart k) s, stBusy),
    ((List.range n).any (rowEntryBad (cmdPart k) inp s), stBadParam)]

/-- A ROW_OP with no job done. -/
def newRowCmd (k : Cmd) (form slot left : Nat) (terms : List Nat) : RowCmd where
  ref := k.ref
  part := cmdPart k
  form := form
  handle := k.handle
  slot := slot
  terms := terms
  left := left
  count := 0
  again := false
  bad := none

/-- ROW_OP PLAIN begun: one service job per pseudo-channel, its entries in input order (R228). -/
def beginRowPlain (k : Cmd) (ps inp : List Byte) (s : State) : State :=
  let es := (List.range (field ps 20 4)).map (rowEntry inp)
  let stallOf : RowEntry → Nat := fun e => ((getRegion e.dReg s).map (·.stall)).getD 0
  let stalls := distinct (es.map stallOf)
  let s := addRowCmd (newRowCmd k 0 0 stalls.length []) s
  stalls.foldl (fun s n =>
    addJob n (newJob k.ref (cmdPart k) k.queue.q 0 (.rows (es.filter fun e => stallOf e == n) 0)) s) s

/-- Whether a recipe is BAD_PARAM for an index (R6, R96, R97). -/
def recipeBad (d : IndexDesc) (terms : List Nat) : Bool :=
  terms.any (fun t => bits t 12 6 != 0 || d.attrCount ≤ bits t 5 0) || bits (terms.headD 0) 15 14 != 0

/-- What forms 1 and 2 ask of the index and the slot (R75, R227). -/
def filterFormCheck (k : Cmd) (ps : List Byte) (s : State) (more : Index → Verdict) : Verdict :=
  forIndex k s fun ix =>
    if ix.desc.filterCount ≤ field ps 1 1 then .fail stBadParam 0
    else if ix.mounting then .fail stBusy 0
    else more ix

/-- The checks of ROW_OP DERIVE (R98, R227). -/
def rowDeriveCheck (k : Cmd) (ps _inp : List Byte) (s : State) : Verdict :=
  let n := field ps 2 1
  if rowOpPacketBad k || 15 < field ps 1 1 || n < 1 || 8 < n || k.dataLen != 0 || !zeroField ps 20 4
      || !zeroField ps (4 + 2 * n) (16 - 2 * n) then .fail stBadParam 0
  else filterFormCheck k ps s fun ix =>
    firstFail [
      (recipeBad ix.desc (recipeTerms ps), stBadParam),
      (awaitsSpare [.stall] (cmdPart k) s, stBusy),
      ((getFilter ix (field ps 1 1)).state != .empty, stBusy)]

/-- ROW_OP DERIVE begun: the slot BUILDING with FILTER_CSN, and a service job per pseudo-channel (R98, R229). -/
def beginRowDerive (k : Cmd) (ps _inp : List Byte) (s : State) : State :=
  match getIndex k.handle s with
  | none => s
  | some ix =>
    let terms := recipeTerms ps
    let slot := field ps 1 1
    let rows := bitmapRows ix
    let c := newRowCmd k 1 slot (min 256 rows) terms
    let build : Filter → Filter := fun _ => { state := .building, terms := terms, refs := 0, csn := ix.csn }
    let s := onIndex k.handle (onFilter slot build) s
    deriveJobs c k.queue.q rows (addRowCmd c s)

/-- The checks of ROW_OP CLEAR (R227, R230). -/
def rowClearCheck (k : Cmd) (ps _inp : List Byte) (s : State) : Verdict :=
  if rowOpPacketBad k || 15 < field ps 1 1 || !zeroField ps 2 22 || k.dataLen != 0 then .fail stBadParam 0
  else filterFormCheck k ps s fun ix =>
    let f := getFilter ix (field ps 1 1)
    firstFail [(f.state == .building || f.refs != 0, stBusy)]

/-- ROW_OP CLEAR (R230): the slot EMPTY, its recipe gone from the metadata record. -/
def beginRowClear (k : Cmd) (ps _inp : List Byte) (s : State) : State :=
  let slot := field ps 1 1
  completeSt k.ref stOk (onMeta k.handle (clearFilter slot) (onIndex k.handle (clearFilter slot) s))

/-- STALL_RUN (R209–R212). -/
def execStallRun (c : CmdRef) (d : CmdIn) (s : State) : Host.Outcome State Fault Refusal :=
  .next (begin 0x28 (fun _ => true) c d stallRunCheck (beginStallRun d.resultOk) s)

/-- ROW_OP_PLAIN (R228); a FORM beyond 2 is refused here (R15). -/
def execRowOpPlain (c : CmdRef) (d : CmdIn) (s : State) : Host.Outcome State Fault Refusal :=
  .next (begin 0x29 (fun ps => field ps 0 1 == 0 || 2 < field ps 0 1) c d
    (fun k ps inp s => if 2 < field ps 0 1 then .fail stBadParam 0 else rowPlainCheck k ps inp s) beginRowPlain s)

/-- ROW_OP_DERIVE (R98, R229). -/
def execRowOpDerive (c : CmdRef) (d : CmdIn) (s : State) : Host.Outcome State Fault Refusal :=
  .next (begin 0x29 (fun ps => field ps 0 1 == 1) c d rowDeriveCheck beginRowDerive s)

/-- ROW_OP_CLEAR (R230). -/
def execRowOpClear (c : CmdRef) (d : CmdIn) (s : State) : Host.Outcome State Fault Refusal :=
  .next (begin 0x29 (fun ps => field ps 0 1 == 2) c d rowClearCheck beginRowClear s)

end Sys2Proof.Machine
end

