-- ==== Sys2Proof/Machine/ModelImage.lean ====
section
/-!
DEFINITION. Reading a model image: layers, quantisation descriptors, arrays, tile programs, and every check at commit
(R242–R247, R252–R254, R266, R267, R273, R276–R278, R286).
-/
namespace Sys2Proof.Machine

/-- A quantisation descriptor (R252). -/
structure QDesc where
  wFmt : Nat
  wScale : Nat
  aFmt : Nat
  aScale : Nat
  oFmt : Nat
  oScale : Nat
  monitor : Nat
  accInt : Bool
  k : Nat
  cOut : Nat
  wTscale : Nat
  priv : List Nat
deriving DecidableEq, Repr

/-- A layer entry (R277). -/
structure Layer where
  kind : Nat
  shelf : Bool
  input : Nat
  tiles : Nat
  selK : Nat
  qdesc : Nat
  prog : Nat
  progAlt : Nat
  weights : Nat
  gscales : Nat
  codebooks : Nat
  aux : Nat
  srec : Nat
deriving DecidableEq, Repr

/-- A little-endian field of a model image. -/
def imgField (m : Model) (off len : Nat) : Nat := readLe m.image off len

/-- Where layer entry `i` stands. -/
def layerOff (i : Nat) : Nat := 64 + 128 * i

/-- Layer entry `i` of a model. -/
def layerAt (m : Model) (i : Nat) : Layer :=
  let o := layerOff i
  { kind := imgField m o 1, shelf := bit (imgField m (o + 1) 1) 0, input := imgField m (o + 2) 2,
    tiles := imgField m (o + 4) 2, selK := imgField m (o + 6) 2, qdesc := imgField m (o + 16) 8,
    prog := imgField m (o + 24) 8, progAlt := imgField m (o + 32) 8, weights := imgField m (o + 40) 8,
    gscales := imgField m (o + 48) 8, codebooks := imgField m (o + 56) 8, aux := imgField m (o + 64) 8,
    srec := imgField m (o + 72) 8 }

/-- The quantisation descriptor of layer `i`. -/
def qdescAt (m : Model) (i : Nat) : QDesc :=
  let o := (layerAt m i).qdesc
  { wFmt := imgField m o 1, wScale := imgField m (o + 1) 1, aFmt := imgField m (o + 2) 1,
    aScale := imgField m (o + 3) 1, oFmt := imgField m (o + 4) 1, oScale := imgField m (o + 5) 1,
    monitor := imgField m (o + 6) 1, accInt := imgField m (o + 7) 1 == 1, k := imgField m (o + 12) 4,
    cOut := imgField m (o + 16) 4, wTscale := imgField m (o + 20) 4,
    priv := (List.range (min 64 (imgField m (o + 8) 1))).map fun j => imgField m (o + 64 + 4 * j) 4 }

/-- Output groups of a layer (R254). -/
def outGroups (q : QDesc) : Nat := if groupSize q.oScale = 0 then 0 else q.cOut / groupSize q.oScale

/-- Bytes of the arrays of a layer (R244, R254). -/
def weightBytes (q : QDesc) : Nat := q.cOut * rowBytes q.k (fmtWidth q.wFmt)
/-- Bytes of the group scales. -/
def gscaleBytes (q : QDesc) : Nat := if groupSize q.wScale = 0 then 0 else q.cOut * (q.k / groupSize q.wScale)
/-- Bytes of the codebooks. -/
def codebookBytes (q : QDesc) : Nat := if q.wFmt = 14 then gscaleBytes q * 16 else 0
/-- Bytes of a scale record, padded to 64. -/
def srecBytes (q : QDesc) : Nat := (64 + outGroups q + 63) / 64 * 64

/-- Words of a tile program (R266). -/
def progCount (m : Model) (off : Nat) : Nat := imgField m (off + 8) 2

/-- Word `i` of a tile program. -/
def progWord (m : Model) (off i : Nat) : Nat := imgField m (off + 64 + 8 * i) 8

/-- The initial scale record of layer `i` (R254, R277). -/
def initialRec (m : Model) (i : Nat) : ScaleRec :=
  let o := (layerAt m i).srec
  let q := qdescAt m i
  let fl := imgField m (o + 40) 1
  { steps := imgField m (o + 16) 8, misfitSteps := imgField m (o + 24) 4, reruns := imgField m (o + 28) 4,
    lastMisfit := imgField m (o + 32) 4, lastClipped := imgField m (o + 36) 4, scaleSat := bit fl 0,
    nonfinite := bit fl 1, lastRerun := bit fl 2,
    scales := (List.range (outGroups q)).map fun g => imgField m (o + 64 + g) 1 }

/-- The output tensor scale of layer `i`, fixed from the image (R254). -/
def outTscale (m : Model) (i : Nat) : Nat := imgField m ((layerAt m i).srec + 12) 4

/-- The bytes of a scale record (R254). -/
def recBytes (m : Model) (i : Nat) (r : ScaleRec) : List Byte :=
  let q := qdescAt m i
  fit (srecBytes q) (leBytes 4 0x52435351 ++ leBytes 2 1 ++ leBytes 1 q.oFmt ++ leBytes 1 q.oScale
    ++ leBytes 4 (outGroups q) ++ leBytes 4 (outTscale m i) ++ leBytes 8 r.steps ++ leBytes 4 r.misfitSteps
    ++ leBytes 4 r.reruns ++ leBytes 4 r.lastMisfit ++ leBytes 4 r.lastClipped
    ++ leBytes 1 (b2n r.scaleSat + 2 * b2n r.nonfinite + 4 * b2n r.lastRerun) ++ zeros 23
    ++ r.scales.flatMap (leBytes 1))

/-- The layers of a model that have a scale record: every one but SELECT (R254, R277). -/
def recLayers (m : Model) : List Nat := (List.range m.layers).filter fun i => (layerAt m i).kind != 2

/-- The records of a new context of a model (R254). -/
def newRecs (m : Model) : Table ScaleRec := (recLayers m).map fun i => (i, initialRec m i)

/-- DRAM that the records of one context take. -/
def ctxRecBytes (m : Model) : Nat := ((recLayers m).map fun i => srecBytes (qdescAt m i)).foldl (· + ·) 0

/-- Bytes of a row of a layer's output (R278, R283): a record of R147 of a SELECT layer, else an activation row. -/
def outRowBytes (m : Model) (i : Nat) : Nat :=
  let l := layerAt m i
  let q := qdescAt m i
  if l.kind = 2 then selOutStride l.selK else rowBytes q.cOut (fmtWidth q.oFmt)

/-- DRAM that the activation buffers of a model take (R279, R283): MAX_ROWS rows of each layer's output. -/
def actBytes (m : Model) : Nat := ((List.range m.layers).map fun i => m.maxRows * outRowBytes m i).foldl (· + ·) 0

/-! Checks (R253, R273, R278). -/

/-- Integer formats of R247. -/
def int32Fmt (f : Nat) : Bool := 8 ≤ f && f ≤ 12

/-- Formats of 8 bits or fewer that a compatibility re-run can widen (R253). -/
def compatOperand (f : Nat) : Bool := f ∈ [3, 5, 6, 7, 10, 11, 12, 14]

/-- Whether a list rises strictly. -/
def risesStrictly : List Nat → Bool
  | [] => true
  | [_] => true
  | a :: b :: l => a < b && risesStrictly (b :: l)

/-- Whether a reduction length fits a SCALE byte (R243). -/
def lengthOk (n sc : Nat) : Bool := n != 0 && n % 32 == 0 && (groupSize sc == 0 || n % groupSize sc == 0)

/-- Whether the descriptor of layer `i` obeys R237, R243, R246, R247, R252 and R253, consumers apart. -/
def qdescOk (m : Model) (i : Nat) : Bool :=
  let o := (layerAt m i).qdesc
  let q := qdescAt m i
  let pc := imgField m (o + 8) 1
  let tail := (List.range (64 - min 64 pc)).all fun j => imgField m (o + 64 + 4 * (pc + j)) 4 == 0xFFFFFFFF
  q.wFmt < 15 && q.aFmt < 15 && q.oFmt < 15 && q.wFmt != 13 && q.aFmt != 13 && q.oFmt != 13 && q.aFmt != 14
    && q.oFmt != 14 && q.wFmt != 0 && q.aFmt != 0
    && scaleByteOk q.wScale && scaleByteOk q.aScale && scaleByteOk q.oScale && tensorScaleOk q.wTscale
    && (q.wFmt != 14 || groupSize q.wScale != 0)
    && lengthOk q.k q.wScale && lengthOk q.k q.aScale && lengthOk q.cOut q.oScale
    && (groupSize q.wScale == 0 || groupSize q.aScale == 0 || groupSize q.wScale == groupSize q.aScale)
    && imgField m (o + 7) 1 ≤ 1
    && (!q.accInt || (int32Fmt q.wFmt && int32Fmt q.aFmt && groupSize q.wScale == 0 && groupSize q.aScale == 0))
    && pc ≤ 64 && risesStrictly q.priv && q.priv.all (· < q.cOut) && tail
    && q.monitor ≤ 3 && (q.monitor == 0 || (q.oFmt != 0 && groupSize q.oScale != 0))
    && (q.monitor != 3 || (q.oFmt ∈ [5, 6, 7, 10, 11, 12] && compatOperand q.wFmt && compatOperand q.aFmt))
    && imgField m (o + 9) 3 == 0 && (readBytes m.image (o + 24) 40).all (· == 0)

/-- Whether the weights, scales and codebooks of layer `i` carry only valid codes (R240, R242, R244). -/
def arraysOk (m : Model) (i : Nat) : Bool :=
  let l := layerAt m i
  let q := qdescAt m i
  let rb := rowBytes q.k (fmtWidth q.wFmt)
  (q.wFmt != 12 || (List.range q.cOut).all fun r =>
    let row := readBytes m.image (l.weights + r * rb) rb
    (List.range q.k).all fun x => elemAt row 2 x != 2)
  && (List.range (gscaleBytes q)).all (fun g => scaleCodeOk q.wScale (imgField m (l.gscales + g) 1))
  && (List.range (codebookBytes q)).all fun g => imgField m (l.codebooks + g) 1 % 128 != 127

/-- Whether the initial scale record of layer `i` is valid (R242, R254). -/
def srecOk (m : Model) (i : Nat) : Bool :=
  let o := (layerAt m i).srec
  let q := qdescAt m i
  imgField m o 4 == 0x52435351 && imgField m (o + 4) 2 == 1 && imgField m (o + 6) 1 == q.oFmt
    && imgField m (o + 7) 1 == q.oScale && imgField m (o + 8) 4 == outGroups q && tensorScaleOk (outTscale m i)
    && imgField m (o + 40) 1 < 8 && (initialRec m i).scales.all (scaleCodeOk q.oScale)

/-- ROWS of a tile instruction; 0 means 512 (R267). -/
def rowsOf (r : Nat) : Nat := if r = 0 then 512 else r
/-- KB of MMA; 0 means 64. -/
def blocksOf (k : Nat) : Nat := if k = 0 then 64 else k
/-- LEN of a DMA; 0 means 16,384. -/
def lenOf (l : Nat) : Nat := if l = 0 then 16384 else l

/-- Bytes of a weight block; of an activation row block (R265). -/
def wBlockBytes (w : Nat) : Nat := 1024 * w
/-- Bytes of one row of one activation block. -/
def aBlockBytes (w : Nat) : Nat := 16 * w

/-- Whether a tile program word may stand in a layer's program (R267, R268, R273): opcode, reserved fields, targets,
accumulator rows, immediate SRAM ranges, FN and ARR. -/
def tileWordOk (q : QDesc) (aFmt count w : Nat) : Bool :=
  let opc := bits w 63 56
  if opc ≤ 2 then bits w 55 0 == 0
  else if opc = 3 ∨ opc = 4 then bits w 51 12 == 0 && bits w 11 0 < count
  else if opc = 8 ∨ opc = 9 then
    bits w 15 0 == 0 && bits w 29 16 + lenOf (bits w 43 30) ≤ 16384
      && (if opc = 8 then bits w 55 52 ≤ 5 else bits w 55 52 == 6)
  else if opc = 10 then bits w 55 16 == 0
  else if opc = 16 then
    let rows := rowsOf (bits w 27 19)
    let kb := blocksOf (bits w 9 4)
    bits w 2 0 == 0 && bits w 18 10 + rows ≤ 512
      && 64 * bits w 55 42 + kb * wBlockBytes (fmtWidth q.wFmt) ≤ 1048576
      && 64 * bits w 41 28 + kb * rows * aBlockBytes (fmtWidth aFmt) ≤ 1048576
  else if opc = 17 then
    let rows := rowsOf (bits w 41 33)
    let wide := if bit w 4 then 256 else 8 * fmtWidth q.oFmt
    bits w 3 0 == 0 && bits w 32 24 + rows ≤ 512 && bits w 23 20 ≤ 5
      && 64 * bits w 55 42 + rows * wide ≤ 1048576
      && (!bit w 19 || 64 * bits w 18 5 + 256 ≤ 1048576)
  else if opc = 18 then bits w 9 0 == 0 && bits w 13 10 ≤ 6
  else if 24 ≤ opc ∧ opc ≤ 27 then bits w 43 32 == 0
  else false

/-- Whether a tile program at an image offset obeys R266 and R273. -/
def progOk (m : Model) (q : QDesc) (aFmt off : Nat) : Bool :=
  let n := progCount m off
  let img := readBytes m.image off (64 + 8 * n)
  imgField m off 4 == 0x47534C47 && imgField m (off + 4) 2 == 1 && imgField m (off + 6) 2 == 1 && 1 ≤ n && n ≤ 4096
    && imgField m (off + 10) 2 == 0 && (readBytes m.image (off + 16) 48).all (· == 0) && checkOk 12 img
    && (List.range n).all fun i => tileWordOk q aFmt n (progWord m off i)

/-- An array at an image offset: present, aligned, within the image. -/
def placed (m : Model) (off len : Nat) : Bool := off % 64 == 0 && layerOff m.layers ≤ off && off + len ≤ m.total

/-- Whether the arrays of layer `i` are where R277 wants them. -/
def placesOk (m : Model) (i : Nat) : Bool :=
  let l := layerAt m i
  let q := qdescAt m i
  let tile := l.kind == 0
  let opt : Nat → Nat → Bool → Bool := fun off len must => if off = 0 then !must else placed m off len
  if l.kind = 2 then l.qdesc == 0
  else placed m l.qdesc 320 && placed m l.weights (weightBytes q) && opt l.gscales (gscaleBytes q) (gscaleBytes q != 0)
    && opt l.codebooks (codebookBytes q) (codebookBytes q != 0) && opt l.aux (4 * q.cOut) false
    && placed m l.srec (srecBytes q)
    && (if tile then placed m l.prog (64 + 8 * progCount m l.prog) else l.prog == 0)
    && opt l.progAlt (64 + 8 * progCount m l.progAlt) false && (tile || l.progAlt == 0)

/-- Whether a layer's input is a MONITOR 3 layer. -/
def fedByCompat (m : Model) (l : Layer) : Bool := l.input != 0xFFFF && (qdescAt m l.input).monitor == 3

/-- What R286 asks of a STALL layer. -/
def stallLayerOk (q : QDesc) : Bool :=
  q.wFmt ∈ [10, 7, 9, 3, 4] && groupSize q.wScale != 0 && (q.aFmt == 1 || q.aFmt == 2) && groupSize q.aScale == 0
    && q.k * 32 ≤ 1048576

/-- Whether layer entry `i` is well formed by itself (R277, R286). -/
def layerOk (m : Model) (i : Nat) : Bool :=
  let o := layerOff i
  let l := layerAt m i
  let q := qdescAt m i
  l.kind ≤ 2 && imgField m (o + 1) 1 < 2 && imgField m (o + 8) 8 == 0 && (readBytes m.image (o + 80) 48).all (· == 0)
    && (l.input == 0xFFFF || l.input < i)
    && (if l.kind = 0 then 1 ≤ l.tiles && l.tiles ≤ 128 else l.tiles == 0)
    && (if l.kind = 2 then 1 ≤ l.selK && l.selK ≤ 4096 else l.selK == 0)
    && placesOk m i
    && (l.kind == 2 || (qdescOk m i && arraysOk m i && srecOk m i))
    && (l.kind != 0 || (progOk m q q.aFmt l.prog && (l.progAlt == 0 || progOk m q 3 l.progAlt)))
    && (l.kind != 1 || stallLayerOk q)
    && (!fedByCompat m l || (l.kind == 0 && l.progAlt != 0))

/-- Whether layer `i` agrees with its producer (R252, R253, R278). -/
def linkOk (m : Model) (i : Nat) : Bool :=
  let l := layerAt m i
  let q := qdescAt m i
  if l.kind = 2 then
    i + 1 == m.layers && l.input != 0xFFFF && (qdescAt m l.input).oFmt ≤ 2 && (layerAt m l.input).kind != 2
  else if l.input = 0xFFFF then true
  else
    let p := qdescAt m l.input
    (layerAt m l.input).kind != 2 && q.k == p.cOut && q.aScale == p.oScale && q.aFmt == p.oFmt

/-- Whether every layer but the last has a consumer; all roots agree (R278). -/
def graphOk (m : Model) : Bool :=
  let ls := List.range m.layers
  let roots := ls.filter fun i => (layerAt m i).input == 0xFFFF && (layerAt m i).kind != 2
  (ls.all fun i => i + 1 == m.layers || ls.any fun j => (layerAt m j).input == i)
    && (match roots with
      | [] => false
      | r :: rs => rs.all fun i =>
          let a := qdescAt m r
          let b := qdescAt m i
          a.aFmt == b.aFmt && a.aScale == b.aScale && a.k == b.k)

/-- Everything COMMIT checks of a written image (R253, R273, R278). -/
def imageGood (m : Model) : Bool :=
  let ls := List.range m.layers
  ls.all (layerOk m) && ls.all (linkOk m) && graphOk m

/-- A written range added to those of an image, ranges kept apart and in order. -/
def addRange (r : Nat × Nat) (rs : List (Nat × Nat)) : List (Nat × Nat) :=
  let touch : Nat × Nat → Bool := fun x => x.1 ≤ r.2 && r.1 ≤ x.2
  let hit := rs.filter touch
  let new := (hit.foldl (fun a x => min a x.1) r.1, hit.foldl (fun a x => max a x.2) r.2)
  sortBy (fun a b => a.1 < b.1) (new :: rs.filter fun x => !touch x)

/-- Whether every byte after the table is written (R279). -/
def fullyWritten (m : Model) : Bool :=
  layerOff m.layers == m.total || m.written.any fun r => r.1 ≤ layerOff m.layers && m.total ≤ r.2

/-! Activation blocks (R281). -/

/-- Bytes of the scales of an activation block. -/
def actScaleBytes (scale width : Nat) : Nat :=
  if groupSize scale = 0 then 0 else (width / groupSize scale + 63) / 64 * 64

/-- Bytes of an activation block. -/
def actBlockBytes (fmt scale rows width : Nat) : Nat :=
  64 + actScaleBytes scale width + rows * rowBytes width (fmtWidth fmt)

/-- The header, scales and rows of an activation block. -/
def actBlock (a : Act) (seq : Nat) : List Byte :=
  leBytes 4 0x4B4C4241 ++ leBytes 1 a.fmt ++ leBytes 1 a.scale ++ zeros 2 ++ leBytes 4 a.rows ++ leBytes 4 a.width
    ++ leBytes 4 a.tscale ++ leBytes 4 seq ++ zeros 40
    ++ fit (actScaleBytes a.scale a.width) (a.scales.flatMap (leBytes 1))
    ++ readBytes a.data 0 (a.rows * rowBytes a.width (fmtWidth a.fmt))

/-- An activation block read from bytes; none when it is not one (R242, R243, R281). -/
def parseAct (bs : List Byte) (seq : Nat) : Option Act :=
  let fmt := field bs 4 1
  let sc := field bs 5 1
  let rows := field bs 8 4
  let width := field bs 12 4
  let sb := actScaleBytes sc width
  let ng := if groupSize sc = 0 then 0 else width / groupSize sc
  let scales := (List.range ng).map fun g => field bs (64 + g) 1
  if field bs 0 4 = 0x4B4C4241 ∧ fmt < 15 ∧ scaleByteOk sc ∧ zeroField bs 6 2 ∧ zeroField bs 24 40
      ∧ tensorScaleOk (field bs 16 4) ∧ field bs 20 4 = seq ∧ scales.all (scaleCodeOk sc)
      ∧ zeroField bs (64 + ng) (sb - ng) ∧ bs.length = actBlockBytes fmt sc rows width then
    some { fmt := fmt, scale := sc, rows := rows, width := width, tscale := field bs 16 4, scales := scales,
           data := writeBytes [] 0 (bs.drop (64 + sb)) }
  else none

/-- A row of an activation as bytes. -/
def actRow (a : Act) (r : Nat) : List Byte :=
  let rb := rowBytes a.width (fmtWidth a.fmt)
  readBytes a.data (r * rb) rb

/-- The exact value of an element of an activation, without its tensor scale. -/
def actValue (a : Act) (row : List Byte) (i : Nat) : Fv := fmtValue a.fmt (elemAt row (fmtWidth a.fmt) i)

end Sys2Proof.Machine
end

