-- ==== Sys2Proof/Machine/Alloc.lean ====
section
/-!
DEFINITION. DRAM accounting: what each region, index, table and model takes of its partition and of the pseudo-channels (R20,
R21, R77, R279, R297, R302, R311, R327).
-/
namespace Sys2Proof.Machine

/-- Bytes of DRAM a thing takes: its partition, interleaved bytes, and bytes in pseudo-channel `n`. -/
structure Holding where
  part : Nat
  inter : Nat
  pin : Nat → Nat

/-- Sum of a list. -/
def sumNat (xs : List Nat) : Nat := xs.foldl (· + ·) 0

/-- What a region takes (R20, R327). -/
def regionHolds (r : Region) : Holding :=
  { part := r.part, inter := if r.pinned then 0 else r.bytes, pin := fun n => if r.pinned && r.stall == n then r.bytes else 0 }

/-- Interleaved bytes of an index (R77). -/
def indexInter (d : IndexDesc) : Nat :=
  let k := if d.code4 then 16 else 256
  let cb := if d.code4 then d.m / 2 else d.m
  d.slotCount * cb + 2 * k * d.dim * 2 + d.upperRecords * 128 + d.cacheFrames * (16384 + 16) + 1048576
    + d.slotCount / 8

/-- Bytes of an index in each pseudo-channel (R77). -/
def indexPin (d : IndexDesc) : Nat := (d.attrCount + d.filterCount) * ((d.slotCount + 2097151) / 2097152) * 1024

/-- What an index takes (R77). -/
def indexHolds (ix : Index) : Holding :=
  { part := ix.desc.part, inter := indexInter ix.desc, pin := fun _ => indexPin ix.desc }

/-- Bytes of state beside a row's elements: S of R302. -/
def optBytes (d : TabDesc) : Nat := if d.opt = 2 then 4 else if d.opt = 3 then 4 * d.dim else if d.opt = 4 then 8 * d.dim else 0

/-- Bytes of a record: elements and state (R302). -/
def recBytesOf (d : TabDesc) : Nat := 2 * d.dim + optBytes d

/-- Stride of a record, of a copy, of a ledger entry (R302, R311). -/
def recStride (d : TabDesc) : Nat := (recBytesOf d + 63) / 64 * 64
/-- Stride of a copy. -/
def copyStride (d : TabDesc) : Nat := (2 * d.dim + 63) / 64 * 64
/-- Stride of a ledger entry. -/
def ledgerStride (d : TabDesc) : Nat := (16 + 4 * d.dim + 63) / 64 * 64

/-- LOCAL_ROWS: physical rows of the shard (R300). -/
def localRows (d : TabDesc) : Nat := (d.rows + d.rRows - d.shard + d.shards - 1) / d.shards

/-- Bytes of a table in pseudo-channel `n` (R301, R302). -/
def tabPin (d : TabDesc) (n : Nat) : Nat :=
  (localRows d - n + 255) / 256 * recStride d + (d.copySlots / 256 + d.fetchRows / 256) * copyStride d

/-- What a table takes (R302, R311). -/
def tabHolds (t : Tab) : Holding :=
  { part := t.desc.part, inter := t.desc.ledgerRows * ledgerStride t.desc, pin := tabPin t.desc }

/-- DRAM_BYTES of a table (R297). -/
def tabDram (t : Tab) : Nat := (tabHolds t).inter + sumNat ((List.range 256).map (tabHolds t).pin)

/-- DRAM_BYTES of an index (R73). -/
def indexDram (ix : Index) : Nat := indexInter ix.desc + 256 * indexPin ix.desc

/-- Output rows of a layer on the stall at place `i` of the stalls of its model (R286). -/
def stallRows (m : Model) (cOut i : Nat) : Nat := (cOut + m.stalls.length - 1 - i) / m.stalls.length

/-- The stall that holds output row `c` of a STALL layer (R286). -/
def rowStall (m : Model) (c : Nat) : Option Nat := m.stalls[c % m.stalls.length]?

/-- The STALL layers of a model. -/
def stallLayers (m : Model) : List Nat := (List.range m.layers).filter fun i => (layerAt m i).kind == 1

/-- Bytes of a row of a STALL layer with its group scales (R244, R286). -/
def stallRowBytes (q : QDesc) : Nat := rowBytes q.k (fmtWidth q.wFmt) + gscaleBytes q / q.cOut

/-- Bytes of the pinned region that holds the rows of a READY model in pseudo-channel `n` (R280, R286). -/
def stallBytes (m : Model) (n : Nat) : Nat :=
  match m.stalls.findIdx? (· == n) with
  | none => 0
  | some p => if m.ready then
      sumNat ((stallLayers m).map fun i => let q := qdescAt m i; stallRows m q.cOut p * stallRowBytes q) else 0

/-- Bytes of the image that the STALL layers' arrays take: they lie in pinned regions, not in interleaved ones (R280). -/
def stallImage (m : Model) : Nat := sumNat ((stallLayers m).map fun i => let q := qdescAt m i; weightBytes q + gscaleBytes q)

/-- What a model takes: its arrays, its activation buffers once its descriptors are known, and its scale records. -/
def modelHolds (m : Model) : Holding :=
  { part := m.part, inter := m.dram + m.recs.length * (if m.ready then ctxRecBytes m else 0), pin := stallBytes m }

/-- What the receive buffer of a composition takes (R366, R367). -/
def compHolds (c : Comp) : Holding := { part := c.part, inter := c.rxbufMib * 2 ^ 20, pin := fun _ => 0 }

/-- The flash map, allocated before any partition allocates (R428); it belongs to no partition. -/
def mapHolds (s : State) : Holding :=
  { part := 0xFF, inter := if mediaUp s then 4 * logicalPages s else 0, pin := fun _ => 0 }

/-- Everything allocated. -/
def holdings (s : State) : List Holding :=
  [mapHolds s] ++
  s.fab.comps.map (fun e => compHolds e.2) ++
  s.ptn.regions.map (fun e => regionHolds e.2) ++ s.srch.indexes.map (fun e => indexHolds e.2)
    ++ s.emb.tables.map (fun e => tabHolds e.2) ++ s.til.models.map fun e => modelHolds e.2

/-- Total bytes of a holding. -/
def Holding.total (h : Holding) : Nat := h.inter + sumNat ((List.range 256).map h.pin)

/-- DRAM a partition holds. -/
def partDram (p : Nat) (s : State) : Nat := sumNat (((holdings s).filter fun h => h.part == p).map (·.total))

/-- Bytes of a pseudo-channel that partitions may take: 1.125 GiB less 16 MiB (R21). -/
def pcBytes : Nat := 1191182336

/-- Where byte `off` of an interleaved region lies (R20): its stack, its pseudo-channel there and the byte in that channel's share;
1 KiB units go over the pseudo-channels of a stack, then over the stacks. DESIGN CHOICE (log 108): a region begins at pseudo-channel
0 of stack 0. -/
def stripePlace (off : Nat) : Nat × Nat × Nat :=
  let unit := off / 1024
  (unit / 32 % 8, unit % 32, unit / 256 * 1024 + off % 1024)

/-- Bytes of an interleaved region of `n` bytes in pseudo-channel `c` of the node, 32 per stack, in whole 1 KiB units (R20). -/
def stripeBytes (n c : Nat) : Nat := ((n + 1023) / 1024 + 255 - c) / 256 * 1024

/-- Whether no pseudo-channel is overfull (R20, R21). -/
def nodeDramOk (s : State) : Bool :=
  let hs := holdings s
  (List.range 256).all fun n => sumNat (hs.map fun h => h.pin n + stripeBytes h.inter n) ≤ pcBytes

/-- Whether partition `p` keeps to its share and the node to its DRAM, in a state to be reached (R21, R325). -/
def dramOk (p : Nat) (s : State) : Bool :=
  partDram p s ≤ (getPtn p s).shares.dramMib * 2 ^ 20 && nodeDramOk s

/-! Rows of the pseudo-channels (R192, R193, R327). -/

/-- Rows of a pseudo-channel that partitions may take (R21). -/
def pcRows : Nat := pcBytes / 1024

/-- Rows that the bitmaps of an index take in each pseudo-channel (R193). -/
def bitmapsRows (d : IndexDesc) : Nat := (d.attrCount + d.filterCount) * bitmapSpan d

/-- The rows taken in pseudo-channel `n`, as (first row, number): pinned regions, and those of indexes, tables and models. -/
def pinnedRows (n : Nat) (s : State) : List (Nat × Nat) :=
  ((s.ptn.regions.filter fun e => e.2.pinned && e.2.stall == n).map fun e => (e.2.row, e.2.bytes / 1024))
    ++ s.srch.indexes.map (fun e => (e.2.pins.getD n 0, bitmapsRows e.2.desc))
    ++ s.emb.tables.map (fun e => (e.2.pins.getD n 0, (tabPin e.2.desc n + 1023) / 1024))
    ++ s.til.models.map fun e => (e.2.rows.getD n 0, (stallBytes e.2 n + 1023) / 1024)

/-- The lowest row, a multiple of 32, from which `rows` rows overlap none of those taken (R192). DESIGN CHOICE (log 110): the module
places a pinned region there. -/
def lowestRows (taken : List (Nat × Nat)) (rows : Nat) : Nat :=
  let clear : Nat → Bool := fun r => taken.all fun m => r + rows ≤ m.1 || m.1 + m.2 ≤ r
  let starts := 0 :: taken.map fun m => (m.1 + m.2 + 31) / 32 * 32
  ((starts.filter clear).foldl (fun a b => match a with
    | none => some b
    | some x => some (min x b)) none).getD 0

/-- Where `rows n` rows go in each pseudo-channel `n`. -/
def pinPlaces (rows : Nat → Nat) (s : State) : List Nat :=
  (List.range 256).map fun n => lowestRows ((pinnedRows n s).filter fun m => m.2 != 0) (rows n)

/-- Whether rows placed so stay within the pseudo-channels. -/
def pinsFit (rows : Nat → Nat) (pins : List Nat) : Bool :=
  (List.range 256).all fun n => rows n == 0 || pins.getD n 0 + rows n ≤ pcRows

/-- Rows of a table in pseudo-channel `n`, from a row on (R301). -/
def tabRows (d : TabDesc) (n : Nat) : Nat := (tabPin d n + 1023) / 1024

end Sys2Proof.Machine
end

