-- ==== Sys2Proof/Machine/ModelLoad.lean ====
section
/-!
DEFINITION. MODEL_LOAD and MODEL_PIN, and the shelf: eligibility, eviction, fills (R276–R280, R286, R288–R291).
-/
namespace Sys2Proof.Machine

/-- A model. -/
def getModel (h : Nat) (s : State) : Option Model := tget? s.til.models h

/-- A model changed by `f`. -/
def onModel (h : Nat) (f : Model → Model) (s : State) : State := onTil (fun t => { t with models := tmod f t.models h }) s

/-- Counters of the shelf of a partition changed (R296). -/
def onShf (p : Nat) (f : ShfCounts → ShfCounts) (s : State) : State :=
  onTil (fun t => { t with shfCounts := smod shfCountsReset t.shfCounts p f }) s

/-! The shelf (R288–R290). -/

/-- Bytes of a layer image (R288). -/
def imageBytes (m : Model) (i : Nat) : Nat :=
  let l := layerAt m i
  let q := qdescAt m i
  weightBytes q + gscaleBytes q + codebookBytes q + (if l.aux = 0 then 0 else 4 * q.cOut)
    + (64 + 8 * progCount m l.prog) + if l.progAlt = 0 then 0 else 64 + 8 * progCount m l.progAlt

/-- Shelf quota of a partition in bytes. -/
def shelfQuota (p : Nat) (s : State) : Nat := (getPtn p s).shares.shelfMib * 2 ^ 20

/-- Whether a layer is eligible for the shelf (R288). -/
def eligible (m : Model) (i : Nat) (s : State) : Bool :=
  let l := layerAt m i
  l.kind == 0 && l.shelf && imageBytes m i ≤ 67108864 && imageBytes m i ≤ shelfQuota m.part s

/-- The layers of a model that are eligible. -/
def eligibleLayers (m : Model) (s : State) : List Nat := (List.range m.layers).filter fun i => eligible m i s

/-- The shelf's image of a layer, resident or being filled. -/
def shelfImage (h i : Nat) (s : State) : Option ShelfImg := s.til.shelf.find? fun x => x.handle == h && x.layer == i

/-- Whether a layer is resident. -/
def resident (h i : Nat) (s : State) : Bool := (shelfImage h i s).any fun x => !x.filling

/-- Shelf bytes of a partition. -/
def shelfUsed (p : Nat) (s : State) : Nat := sumNat ((s.til.shelf.filter fun x => x.part == p).map (·.bytes))

/-- Pinned bytes of a partition (R291, R295). -/
def shelfPinned (p : Nat) (s : State) : Nat :=
  sumNat ((s.til.models.filter fun e => e.2.pinned && e.2.part == p).map fun e =>
    sumNat ((eligibleLayers e.2 s).map (imageBytes e.2)))

/-- Whether a running step references an image (R290). -/
def referenced (h i : Nat) (s : State) : Bool :=
  s.til.runs.any fun r => r.handle == h && r.steps.any fun e => e.1 == i && e.2.use == .shelf

/-- Eviction order (R290): the least recently used model, the lower handle among equals, its last layer first. -/
def evictsBefore (a b : Nat × ShelfImg) : Bool :=
  a.1 < b.1 || (a.1 == b.1 && (a.2.handle < b.2.handle || (a.2.handle == b.2.handle && b.2.layer < a.2.layer)))

/-- The images of a partition that may be evicted, in order. -/
def shelfVictims (p : Nat) (s : State) : List ShelfImg :=
  let cand := s.til.shelf.filterMap fun x =>
    match getModel x.handle s with
    | none => none
    | some m => if x.part = p ∧ !x.filling ∧ !m.pinned ∧ !referenced x.handle x.layer s then some (m.lastUse, x) else none
  (sortBy evictsBefore cand).map (·.2)

/-- Images evicted until `bytes` fit into the quota of a partition, or none is left (R290). -/
def evictFor (p bytes : Nat) : List ShelfImg → State → State
  | [], s => s
  | x :: xs, s =>
    if shelfUsed p s + bytes ≤ shelfQuota p s then s
    else
      let s := onTil (fun t => { t with shelf := t.shelf.filter (· != x) }) s
      evictFor p bytes xs (onShf p (fun c => { c with evictions := wrap64 (c.evictions + 1) }) s)

/-- A fill started, when eviction makes room for it (R289, R290). -/
def startFill (h i : Nat) (m : Model) (s : State) : State × Bool :=
  let bytes := imageBytes m i
  let s := evictFor m.part bytes (shelfVictims m.part s) s
  if shelfUsed m.part s + bytes ≤ shelfQuota m.part s then
    let img : ShelfImg := { handle := h, layer := i, part := m.part, bytes := bytes, filling := true }
    let s := onShf m.part (fun c => { c with misses := wrap64 (c.misses + 1) }) s
    (onTil (fun t => { t with shelf := t.shelf ++ [img] }) s, true)
  else (s, false)

/-! MODEL_LOAD (R279). -/

/-- What a command gets that names a handle of no model, or of another partition's (R75, R279). -/
def modelStatus (k : Cmd) (s : State) : Option Nat :=
  match getModel k.handle s with
  | none => some stBadParam
  | some m => if m.part ≠ cmdPart k then some stRefused else none

/-- Fields of MODEL_LOAD that every operation checks (R6, R15, R279). -/
def loadParamsBad (k : Cmd) (ps : List Byte) : Bool :=
  let op := field ps 0 1
  5 < op || k.handle == 0
    || (if op < 4 then field ps 1 1 != 0 else 15 < field ps 1 1) || (1 < op && k.dataLen != 0)

/-- Whether a header and layer table are what R276 and R279 ask. -/
def headerOk (inp : List Byte) : Bool :=
  let n := field inp 6 2
  64 ≤ inp.length && field inp 0 4 == 0x4C444D51 && field inp 4 2 == 1 && 1 ≤ n && n ≤ 4096
    && inp.length == layerOff n && layerOff n ≤ field inp 8 8 && zeroField inp 20 44 && checkOk 16 inp

/-- Whether a layer table names a STALL layer. -/
def namesStall (inp : List Byte) : Bool := (List.range (field inp 6 2)).any fun i => field inp (layerOff i) 1 == 1

/-- The model that BEGIN enters as LOADING (R279, R280, R286). -/
def newModel (p maxRows : Nat) (inp : List Byte) (s : State) : Model where
  part := p
  ready := false
  layers := field inp 6 2
  total := field inp 8 8
  maxRows := maxRows
  image := writeBytes [] 0 inp
  written := []
  pinned := false
  stalls := if namesStall inp then (List.range 256).filter fun n => bit (getPtn p s).units.stalls n else []
  rows := []
  dram := field inp 8 8 - layerOff (field inp 6 2)
  lastUse := 0
  recs := []

/-- A model entered. -/
def addModel (h : Nat) (m : Model) (s : State) : State := onTil (fun t => { t with models := tput t.models h m }) s

/-- A model freed, with what the shelf holds of it. -/
def freeModel (h : Nat) (s : State) : State :=
  onTil (fun t => { t with models := tdel t.models h, shelf := t.shelf.filter (·.handle != h) }) s

/-- The checks of BEGIN (R279, R286). -/
def loadBeginCheck (k : Cmd) (ps inp : List Byte) (s : State) : Verdict :=
  let p := cmdPart k
  let rows := field ps 16 4
  firstFail [
    (loadParamsBad k ps || (getModel k.handle s).isSome || rows < 1 || 65536 < rows || !headerOk inp, stBadParam),
    (namesStall inp && (getPtn p s).units.stalls == 0, stRefused),
    (1024 ≤ s.til.models.length || !dramOk p (addModel k.handle (newModel p rows inp s) s), stNoResource)]

/-- The checks of CHUNK (R279). -/
def loadChunkCheck (k : Cmd) (ps inp : List Byte) (s : State) : Verdict :=
  if loadParamsBad k ps then .fail stBadParam 0
  else match modelStatus k s, getModel k.handle s with
    | none, some m =>
      let off := field ps 8 8
      firstFail [
        (m.ready || off % 64 != 0 || off < layerOff m.layers || m.total < off + inp.length
          || (inp.length % 64 != 0 && off + inp.length != m.total) || field ps 4 4 != crc32c inp, stBadParam)]
    | st, _ => .fail (st.getD stBadParam) 0

/-- Checks of an operation on a named model (R279). -/
def loadNamedCheck (more : Model → List (Bool × Nat)) (k : Cmd) (ps : List Byte) (s : State) : Verdict :=
  if loadParamsBad k ps then .fail stBadParam 0
  else match modelStatus k s, getModel k.handle s with
    | none, some m => firstFail (more m)
    | st, _ => .fail (st.getD stBadParam) 0

/-- Contexts of a partition, by number. -/
def ctxNumbers (p : Nat) (s : State) : List Nat := (getPtn p s).ctxs.map (·.1)

/-- A loading model with all that COMMIT gives it (R279): its scale records, its activation buffers, and the regions of its STALL
layers' rows, which leave the interleaved ones (R280, R286). -/
def readyModel (m : Model) (s : State) : Model :=
  let m := { m with ready := true, recs := (ctxNumbers m.part s).map fun n => (n, newRecs m)
                    dram := m.dram - stallImage m + actBytes m }
  { m with rows := pinPlaces (fun n => (stallBytes m n + 1023) / 1024) s }

/-- COMMIT of a loading model (R279): READY with its scale records, or freed. DESIGN CHOICE (log 49): the sizes of the activation
buffers and of the pinned rows stand in the descriptors, which CHUNK brings, so it is COMMIT that finds no room for them. -/
def commitModel (k : Cmd) (s : State) : State :=
  match getModel k.handle s with
  | none => s
  | some m =>
    if !(fullyWritten m && imageGood m) then completeSt k.ref stBadParam (freeModel k.handle s)
    else
      let m := readyModel m s
      let t := onModel k.handle (fun _ => m) s
      if dramOk m.part t && pinsFit (fun n => (stallBytes m n + 1023) / 1024) m.rows then completeSt k.ref stOk t
      else completeSt k.ref stNoResource (freeModel k.handle s)

/-- Whether a step of a model runs (R279, R293). -/
def modelRuns (h : Nat) (s : State) : Bool := s.til.runs.any fun r => r.handle == h && !r.steps.isEmpty

/-- Whether a step of a model runs in a context (R255, R261). -/
def stepsRun (h ctx : Nat) (s : State) : Bool := s.til.runs.any fun r => r.handle == h && r.ctx == ctx && !r.steps.isEmpty

/-- The scale records of a context written anew from the image (R254, R279). -/
def resetScales (h ctx : Nat) (s : State) : State :=
  onModel h (fun m => { m with recs := tput m.recs ctx (newRecs m) }) s

/-- The RESET_SCALES commands that no step keeps waiting any more (R261). -/
def settleResets (s : State) : State :=
  let due := s.til.resets.filter fun r => !stepsRun r.2.1 r.2.2 s
  let s := onTil (fun t => { t with resets := t.resets.filter fun r => !due.contains r }) s
  due.foldl (fun s r => completeSt r.1 stOk (resetScales r.2.1 r.2.2 s)) s

/-- The records of a context as READ_SCALES gives them (R254, R279). -/
def scaleBytes (m : Model) (ctx : Nat) : List Byte :=
  ((tget? m.recs ctx).getD []).flatMap fun e => recBytes m e.1 e.2

/-- Whether the parameters name an operation by their first byte. -/
def opIs (op : Nat) (ps : List Byte) : Bool := field ps 0 1 == op

/-- MODEL_LOAD BEGIN (R279). -/
def execModelLoadBegin (c : CmdRef) (d : CmdIn) (s : State) : Host.Outcome State Fault Refusal :=
  .next (begin 0x20 (fun ps => opIs 0 ps || 5 < field ps 0 1) c d loadBeginCheck
    (fun k ps inp s => completeSt k.ref stOk
      (addModel k.handle (newModel (cmdPart k) (field ps 16 4) inp s) s)) s)

/-- MODEL_LOAD CHUNK (R279). -/
def execModelLoadChunk (c : CmdRef) (d : CmdIn) (s : State) : Host.Outcome State Fault Refusal :=
  .next (begin 0x20 (opIs 1) c d loadChunkCheck
    (fun k ps inp s =>
      let off := field ps 8 8
      let set : Model → Model := fun m => { m with
        image := writeBytes m.image off inp, written := addRange (off, off + inp.length) m.written }
      completeSt k.ref stOk (onModel k.handle set s)) s)

/-- MODEL_LOAD COMMIT (R279). -/
def execModelLoadCommit (c : CmdRef) (d : CmdIn) (s : State) : Host.Outcome State Fault Refusal :=
  .next (begin 0x20 (opIs 2) c d (fun k ps _ s => loadNamedCheck (fun m => [(m.ready, stBadParam)]) k ps s)
    (fun k _ _ s => commitModel k s) s)

/-- The runs and pins of a model that goes end with BAD_PARAM: their handle names no model any more. DESIGN CHOICE (log 118). A run
whose output is on its way needs it no longer. -/
def endModelUsers (h : Nat) (s : State) : State :=
  let runs := (s.til.runs.filter fun r => r.handle == h && !r.sending).map (·.ref)
  let pins := (s.til.pins.filter (·.handle == h)).map (·.ref)
  let s := onTil (fun t => { t with
    runs := t.runs.filter (fun r => !runs.contains r.ref), pins := t.pins.filter (·.handle != h) }) s
  (runs ++ pins).foldl (fun s c => completeSt c stBadParam s) s

/-- MODEL_LOAD UNLOAD (R279). -/
def execModelLoadUnload (c : CmdRef) (d : CmdIn) (s : State) : Host.Outcome State Fault Refusal :=
  .next (begin 0x20 (opIs 3) c d
    (fun k ps _ s => loadNamedCheck (fun m => [(m.pinned || modelRuns k.handle s, stBusy)]) k ps s)
    (fun k _ _ s => completeSt k.ref stOk (freeModel k.handle (endModelUsers k.handle s))) s)

/-- MODEL_LOAD RESET_SCALES (R261, R279). -/
def execModelLoadResetScales (c : CmdRef) (d : CmdIn) (s : State) : Host.Outcome State Fault Refusal :=
  .next (begin 0x20 (opIs 4) c d
    (fun k ps _ s => loadNamedCheck (fun m =>
      [(!m.ready, stBusy), ((tget? m.recs (field ps 1 1)).isNone, stBadParam)]) k ps s)
    (fun k ps _ s => settleResets (onTil (fun t => { t with
      resets := t.resets ++ [(k.ref, k.handle, field ps 1 1)] }) s)) s)

/-- MODEL_LOAD READ_SCALES (R279). -/
def execModelLoadReadScales (c : CmdRef) (d : CmdIn) (s : State) : Host.Outcome State Fault Refusal :=
  .next (begin 0x20 (opIs 5) c d
    (fun k ps _ s => loadNamedCheck (fun m =>
      [(!m.ready, stBusy),
       ((tget? m.recs (field ps 1 1)).isNone || k.resultLen < (scaleBytes m (field ps 1 1)).length, stBadParam)]) k ps s)
    (fun k ps _ s =>
      match getModel k.handle s with
      | none => s
      | some m => finish k.ref d.resultOk stOk 0 0 (scaleBytes m (field ps 1 1)) s) s)

/-! MODEL_PIN and fills (R289–R291). -/

/-- Bytes that the PIN commands in progress of a partition's models will pin (R291). -/
def pinsWanted (p : Nat) (s : State) : Nat :=
  let h := (s.til.pins.map (·.handle)).eraseDups
  sumNat ((s.til.models.filter fun e => h.contains e.1 && !e.2.pinned && e.2.part == p).map fun e =>
    sumNat ((eligibleLayers e.2 s).map (imageBytes e.2)))

/-- The checks of MODEL_PIN (R291, R293). -/
def pinCheck (pin : Bool) (k : Cmd) (ps _inp : List Byte) (s : State) : Verdict :=
  if 1 < field ps 0 1 || k.dataLen != 0 then .fail stBadParam 0
  else match modelStatus k s, getModel k.handle s with
    | none, some m =>
      let mine := m.pinned || s.til.pins.any (·.handle == k.handle)
      let more := if mine then 0 else sumNat ((eligibleLayers m s).map (imageBytes m))
      firstFail [(!m.ready, stBusy),
        (pin && shelfQuota m.part s < shelfPinned m.part s + pinsWanted m.part s + more, stNoResource)]
    | st, _ => .fail (st.getD stBadParam) 0

/-- The PIN commands whose layers are all resident complete (R291). -/
def settlePins (s : State) : State :=
  let done : PinCmd → Bool := fun c =>
    match getModel c.handle s with
    | none => true
    | some m => (eligibleLayers m s).all fun i => resident c.handle i s
  let due := s.til.pins.filter done
  let s := onTil (fun t => { t with pins := t.pins.filter fun c => !done c }) s
  due.foldl (fun s c =>
    let n := match getModel c.handle s with
      | none => 0
      | some m => (eligibleLayers m s).length
    complete c.ref stOk n 0 [] (onModel c.handle (fun m => { m with pinned := true }) s)) s

/-- MODEL_PIN with OP PIN (R291). -/
def execModelPin (c : CmdRef) (d : CmdIn) (s : State) : Host.Outcome State Fault Refusal :=
  .next (begin 0x22 (fun ps => !opIs 1 ps) c d (pinCheck true)
    (fun k _ _ s => settlePins (onTil (fun t => { t with
      pins := t.pins ++ [{ ref := k.ref, handle := k.handle }] }) s)) s)

/-- MODEL_PIN with OP UNPIN (R291). -/
def execModelUnpin (c : CmdRef) (d : CmdIn) (s : State) : Host.Outcome State Fault Refusal :=
  .next (begin 0x22 (opIs 1) c d (pinCheck false)
    (fun k _ _ s => completeSt k.ref stOk (onModel k.handle (fun m => { m with pinned := false }) s)) s)

/-- A run's step changed by `f`. -/
def onStep (c : CmdRef) (i : Nat) (f : Step → Step) (s : State) : State :=
  let g : Run → Run := fun r => { r with steps := tmod f r.steps i }
  onTil (fun t => { t with runs := updWhere (·.ref == c) g t.runs }) s

/-- A MODEL_RUN in progress. -/
def getModelRun (c : CmdRef) (s : State) : Option Run := s.til.runs.find? (·.ref == c)

/-- The step of a run on a layer. -/
def getStep (c : CmdRef) (i : Nat) (s : State) : Option Step := (getModelRun c s).bind fun r => tget? r.steps i

/-- The fill that a step waits for: joined, started, or given up for streaming (R289, R290). -/
def stepFill (c : CmdRef) (i : Nat) (s : State) : State :=
  match getModelRun c s, getStep c i s with
  | some r, some st =>
    match getModel r.handle s with
    | none => s
    | some m =>
      if st.use != .pending then s
      else if (shelfImage r.handle i s).isSome then onStep c i (fun x => { x with use := .shelf }) s
      else
        let (s, ok) := startFill r.handle i m s
        if ok then onStep c i (fun x => { x with use := .shelf }) s
        else onStep c i (fun x => { x with use := .stream }) (onShf m.part (fun k => { k with
          streamed := wrap64 (k.streamed + 1) }) s)
  | _, _ => s

/-- The fill of a layer that a PIN needs (R291). -/
def pinFill (c : CmdRef) (i : Nat) (s : State) : State :=
  match s.til.pins.find? (·.ref == c) with
  | none => s
  | some k =>
    match getModel k.handle s with
    | none => s
    | some m => if eligible m i s && i < m.layers && (shelfImage k.handle i s).isNone then (startFill k.handle i m s).1 else s

/-- A fill ended: the image is resident (R289, R291). -/
def endFill (h i : Nat) (s : State) : State :=
  match shelfImage h i s with
  | none => s
  | some x =>
    if !x.filling then s
    else
      let set : ShelfImg → ShelfImg := fun y => { y with filling := false }
      let s := onTil (fun t => { t with shelf := updWhere (· == x) set t.shelf }) s
      settlePins (onShf x.part (fun c => { c with fillBytes := wrap64 (c.fillBytes + x.bytes) }) s)

/-- SHELF_FILL (R289–R291). -/
def execShelfFill (c : CmdRef) (layer : Nat) (s : State) : Host.Outcome State Fault Refusal :=
  .next (pinFill c layer (stepFill c layer s))

end Sys2Proof.Machine
end

