-- ==== Sys2Proof/Machine/EmbRows.lean ====
section
/-!
DEFINITION. Rows of embedding tables: mapping, records, pooling, gradients, the ledger and the row update (R300–R302, R304,
R307, R310, R311, R313).
-/
namespace Sys2Proof.Machine

/-- A table. -/
def getTab (h : Nat) (s : State) : Option Tab := tget? s.emb.tables h

/-- A table changed by `f`. -/
def onTab (h : Nat) (f : Tab → Tab) (s : State) : State := onEmb (fun e => { e with tables := tmod f e.tables h }) s

/-- Counters of a partition changed (R320). -/
def onEmbCounts (p : Nat) (f : EmbCounts → EmbCounts) (s : State) : State :=
  onEmb (fun e => { e with counts := smod embCountsReset e.counts p f }) s

/-! Mapping (R300, R301). -/

/-- mix64 of R300. -/
def tabMix (x seed : Nat) : Nat :=
  let z := (x + seed * 0x9E3779B97F4A7C15) % 2 ^ 64
  let z := Nat.xor z (z / 2 ^ 30) * 0xBF58476D1CE4E5B9 % 2 ^ 64
  let z := Nat.xor z (z / 2 ^ 27) * 0x94D049BB133111EB % 2 ^ 64
  Nat.xor z (z / 2 ^ 31)

/-- The physical rows of an index (R300). -/
def rowsOf64 (d : TabDesc) (i : Nat) : List Nat :=
  if d.addr = 0 then [i]
  else if d.addr = 1 then [tabMix i d.seed % d.rows]
  else [i / d.rRows % d.rows, d.rows + i % d.rRows]

/-- Whether this node owns a physical row (R300). -/
def ownsRow (d : TabDesc) (p : Nat) : Bool := p % d.shards == d.shard

/-- The pseudo-channel of a physical row (R301). -/
def rowChannel (d : TabDesc) (p : Nat) : Nat := p / d.shards % 256

/-- The record of an owned physical row (R302). -/
def rowRec (t : Tab) (p : Nat) : List Byte := sget (fun _ => zeros (recBytesOf t.desc)) t.recs (p / t.desc.shards)

/-- The record of an owned physical row written. -/
def putRec (p : Nat) (bs : List Byte) (t : Tab) : Tab :=
  { t with recs := sset (fun _ => zeros (recBytesOf t.desc)) t.recs (p / t.desc.shards) (fit (recBytesOf t.desc) bs) }

/-- Elements of a row of 16-bit elements, widened exactly (R298). -/
def elemWords (elem n : Nat) (bs : List Byte) : List W32 :=
  (List.range n).map fun j => f32r (fdecode (if elem = 0 then fp16 else bf16) (field bs (2 * j) 2))

/-- An FP32 value narrowed to ELEM or to a moment, to nearest and saturating (R249, R313). -/
def narrow16 (elem : Nat) (x : W32) : Nat := (narrow (if elem = 0 then 1 else 2) false (f32v x) fvOne).code

/-- FP32 values narrowed to 16-bit elements. -/
def elemsOut (elem : Nat) (xs : List W32) : List Byte := xs.flatMap fun x => leBytes 2 (narrow16 elem x)

/-! Inputs (R304, R308). -/

/-- Bag offset `b` of an input. -/
def bagOff (inp : List Byte) (b : Nat) : Nat := field inp (4 * b) 4

/-- Where IDX, WGT and the end of the last array stand. -/
def idxAt (bags : Nat) : Nat := (bags + 1 + 1) / 2 * 8
/-- The end of the arrays of R304. -/
def lookupEnd (bags indices : Nat) (weighted : Bool) : Nat := idxAt bags + 8 * indices + if weighted then 4 * indices else 0

/-- Index `i` of an input. -/
def idxOf (bags : Nat) (inp : List Byte) (i : Nat) : Nat := field inp (idxAt bags + 8 * i) 8

/-- Weight `i` of an input: 1.0 without WEIGHTED. -/
def weightOf32 (bags indices : Nat) (weighted : Bool) (inp : List Byte) (i : Nat) : W32 :=
  if weighted then BitVec.ofNat 32 (field inp (idxAt bags + 8 * indices + 4 * i) 4) else f32one

/-- Whether the offsets and weights of an input break R304. -/
def lookupBad (bags indices : Nat) (weighted : Bool) (inp : List Byte) : Bool :=
  bagOff inp 0 != 0 || bagOff inp bags != indices
    || (List.range bags).any (fun b => bagOff inp (b + 1) < bagOff inp b || 4096 < bagOff inp (b + 1) - bagOff inp b)
    || (weighted && (List.range indices).any fun i => !(f32v (weightOf32 bags indices true inp i)).isFin)

/-- Up to the next 64-byte boundary. -/
def align64 (n : Nat) : Nat := (n + 63) / 64 * 64

/-- The indices of a command. -/
def cmdIndices (c : EmbCmd) : Nat := bagOff c.input c.bags

/-- Every physical row a command's indices name, in position order. -/
def namedRows (d : TabDesc) (bags indices : Nat) (inp : List Byte) : List Nat :=
  (List.range indices).flatMap fun i => rowsOf64 d (idxOf bags inp i)

/-! Sources (R305). -/

/-- The elements of a physical row from the first source that holds it, if one does (R305). -/
def rowSource (t : Tab) (step : Nat) (own : Table (List Byte)) (p : Nat) : Option (List Byte) :=
  if ownsRow t.desc p then some ((rowRec t p).take (2 * t.desc.dim))
  else match tget? t.copies p with
    | some bs => some bs
    | none => if step = 0 then tget? own p else tget? t.fetched p

/-- The elements of a physical row as FP32, as the stalls of a command have read it: they have read each row that it names. -/
def rowWords (d : TabDesc) (seen : Table (List Byte)) (p : Nat) : List W32 := elemWords d.elem d.dim ((tget? seen p).getD [])

/-- Rows each once, ascending. -/
def distinctRows (rows : List Nat) : List Nat := (rows.foldl (fun (m : Table Bool) p => tput m p true) []).map (·.1)

/-- The distinct rows a command must fetch, ascending (R305). -/
def rowsToFetch (t : Tab) (step : Nat) (rows : List Nat) : List Nat :=
  distinctRows (rows.filter fun p => (rowSource t step [] p).isNone)

/-- Whether a command keeps what it fetches in the fetch slots of its table: a lookup or an update (R305, R310). -/
def EmbCmd.fetches (e : EmbCmd) : Bool := e.kind == .pool || e.kind == .update || e.kind == .close

/-- The rows of the step whose fetch slots are taken, by copies and by fetches on their way. -/
def stepSlots (t : Tab) (cmds : List EmbCmd) : List Nat :=
  distinctRows (t.fetched.map (·.1) ++ (cmds.filter fun e => e.fetches && e.step != 0).flatMap (·.asked))

/-- The rows whose fetch slots the lookups with STEP 0 take. -/
def freeSlots (cmds : List EmbCmd) : List Nat :=
  (cmds.filter fun e => e.fetches && e.step == 0).flatMap fun e => e.copies.map (·.1) ++ e.asked

/-- Whether the fetch slots hold more rows in each pseudo-channel (R301, R305). -/
def fetchFits (t : Tab) (cmds : List EmbCmd) (step : Nat) (rows : List Nat) : Bool :=
  let kept := stepSlots t cmds
  let used := (if step = 0 then kept ++ rows else distinctRows (kept ++ rows)) ++ freeSlots cmds
  rows.all fun p => (used.filter fun q => rowChannel t.desc q == rowChannel t.desc p).length ≤ t.desc.fetchRows / 256

/-! Pooling (R307). -/

/-- v of an index: its row, or the sum or product of its two rows (R307). -/
def indexValue (d : TabDesc) (rows : List (List W32)) : List W32 :=
  match rows with
  | [v] => v
  | q :: r :: _ => List.zipWith (if d.addr = 2 then f32add else f32mul) q r
  | [] => []

/-- The pooled value of one bag (R307): per pseudo-channel in ascending position, then over the pseudo-channels. -/
def poolBag (d : TabDesc) (c : EmbCmd) (b : Nat) : List W32 :=
  let n := cmdIndices c
  let lo := bagOff c.input b
  let terms := (List.range (bagOff c.input (b + 1) - lo)).map fun j =>
    let i := lo + j
    let ps := rowsOf64 d (idxOf c.bags c.input i)
    let v := indexValue d (ps.map (rowWords d c.seen))
    let w := weightOf32 c.bags n c.weighted c.input i
    (rowChannel d (ps.headD 0), v.map fun x => f32mul w x)
  let zero : List W32 := List.replicate d.dim 0#32
  (List.range 256).foldl (fun acc ch =>
    let mine := terms.filter fun e => e.1 == ch
    List.zipWith f32add acc (mine.foldl (fun p e => List.zipWith f32add p e.2) zero)) zero

/-- The result of a pooled lookup (R281, R307). -/
def poolResult (d : TabDesc) (c : EmbCmd) : List Byte :=
  let w := fmtWidth c.fmt
  let rows := (List.range c.bags).map fun b =>
    let codes := (poolBag d c b).map fun x => if c.fmt = 0 then x.toNat else (narrow c.fmt false (f32v x) fvOne).code
    packElems w (rowBytes d.dim w) codes
  let data := rows.zipIdx.foldl (fun m r => writeBytes m (r.2 * rowBytes d.dim w) r.1) []
  actBlock { fmt := c.fmt, scale := 0, rows := c.bags, width := d.dim, tscale := 0x3F800000, scales := [], data := data } 0

/-! Gradients (R310, R311). -/

/-- Where the gradient rows of an update stand, and their stride (R308). -/
def gradAt (c : EmbCmd) (dim b : Nat) : Nat :=
  align64 (lookupEnd c.bags (cmdIndices c) c.weighted) + b * rowBytes dim (fmtWidth c.fmt)

/-- A gradient row widened exactly. -/
def gradRow (c : EmbCmd) (dim b : Nat) : List W32 :=
  let bs := (c.input.drop (gradAt c dim b)).take (rowBytes dim (fmtWidth c.fmt))
  (List.range dim).map fun j => f32r (fmtValue c.fmt (elemAt bs (fmtWidth c.fmt) j))

/-- The contributions of an update in order: physical row and gradient (R310, R311). -/
def contributions (d : TabDesc) (c : EmbCmd) : List (Nat × List W32) :=
  let n := cmdIndices c
  (List.range c.bags).flatMap fun b =>
    let lo := bagOff c.input b
    let g := gradRow c d.dim b
    (List.range (bagOff c.input (b + 1) - lo)).flatMap fun j =>
      let i := lo + j
      let wg := g.map fun x => f32mul (weightOf32 c.bags n c.weighted c.input i) x
      match rowsOf64 d (idxOf c.bags c.input i) with
      | [p] => [(p, wg)]
      | p :: r :: _ =>
        if d.addr = 2 then [(p, wg), (r, wg)]
        else [(p, List.zipWith f32mul wg (rowWords d c.seen r)),
              (r, List.zipWith f32mul wg (rowWords d c.seen p))]
      | [] => []

/-- A contribution added to the ledger (R311). -/
def ledgerAdd (dim : Nat) (l : Table (List W32)) (e : Nat × List W32) : Table (List W32) :=
  tput l e.1 (List.zipWith f32add ((tget? l e.1).getD (List.replicate dim 0#32)) e.2)

/-- The ledger of what the updates of a step have added, in order. -/
def ledgerOf (dim : Nat) (adds : List (CmdRef × List (Nat × List W32))) : Table (List W32) :=
  (adds.flatMap (·.2)).foldl (ledgerAdd dim) []

/-- A ledger with contributions added, if its entries do not run short (R311). -/
def ledgerWith (t : Tab) (es : List (Nat × List W32)) : Option (Table (List W32)) :=
  let l := es.foldl (ledgerAdd t.desc.dim) t.ledger
  if l.length ≤ t.desc.ledgerRows then some l else none

/-! The update of a row (R313). -/

/-- b^t exactly. -/
def fpowX (b : Fv) (t : Nat) : Fv :=
  match b with
  | .fin n m e => .fin (n && t % 2 == 1) (m ^ t) (e * t)
  | v => v

/-- A value rounded to binary64. -/
def round64 (v : Fv) : Fv := fdecode fp64 (fencode fp64 v)

/-- fp32(1.0 − pow(b, t)) of R313. DEDUCED (log 58): `computed in binary64` is read as each of the two operations rounded once, to
nearest, to binary64. -/
def biasFix (b : W32) (t : Nat) : W32 := f32r (round64 (faddX fvOne (fneg (round64 (fpowX (f32v b) t)))))

/-- Adam's step on one element: its weight, and its moments before they are narrowed (R313). -/
def adamElem (h : Hyper) (c1 c2 w m v g : W32) : W32 × W32 × W32 :=
  let m := f32add (f32mul h.beta1 m) (f32mul (f32sub f32one h.beta1) g)
  let v := f32add (f32mul h.beta2 v) (f32mul (f32mul (f32sub f32one h.beta2) g) g)
  let ratio := f32div (f32div m c1) (f32add (f32sqrt (f32div v c2)) h.eps)
  (f32sub w (f32mul h.lr (f32add ratio (f32mul h.wd w))), m, v)

/-- FP32 words of bytes. -/
def f32Words (n : Nat) (bs : List Byte) : List W32 := (List.range n).map fun j => BitVec.ofNat 32 (field bs (4 * j) 4)

/-- A record updated from its summed gradient (R313). -/
def updateRec (d : TabDesc) (h : Hyper) (t : Nat) (bs : List Byte) (g : List W32) : List Byte :=
  let n := d.dim
  let w := elemWords d.elem n bs
  let st := bs.drop (2 * n)
  match d.opt with
  | 1 => elemsOut d.elem (List.zipWith (fun w g => f32sub w (f32mul h.lr (f32add g (f32mul h.wd w)))) w g)
  | 2 =>
    let sum := g.foldl (fun a x => f32add a (f32mul x x)) 0#32
    let acc := f32add (BitVec.ofNat 32 (field st 0 4)) (f32div sum (f32r (intV n)))
    let den := f32add (f32sqrt acc) h.eps
    elemsOut d.elem (List.zipWith (fun w g => f32sub w (f32div (f32mul h.lr g) den)) w g) ++ leBytes 4 acc.toNat
  | _ =>
    let c1 := biasFix h.beta1 t
    let c2 := biasFix h.beta2 t
    let small := d.opt == 3
    let ms := if small then elemWords 0 n st else f32Words n st
    let vs := if small then elemWords 0 n (st.drop (2 * n)) else f32Words n (st.drop (4 * n))
    let out := (List.zipWith (fun (w : W32 × W32) (mv : W32 × W32) => adamElem h c1 c2 w.1 mv.1 mv.2 w.2)
      (w.zip g) (ms.zip vs))
    let put : List W32 → List Byte := fun xs => if small then elemsOut 0 xs else xs.flatMap fun x => leBytes 4 x.toNat
    elemsOut d.elem (out.map (·.1)) ++ put (out.map fun e => e.2.1) ++ put (out.map fun e => e.2.2)

end Sys2Proof.Machine
end

