-- ==== Sys2Proof/Machine/Embedding.lean ====
section
/-!
DEFINITION. The commands on embedding tables and the messages they exchange: lookups, updates, step closes, replicas
(R299, R303–R318).
-/
namespace Sys2Proof.Machine

/-! Parameters and checks. -/

/-- What a command gets that names a handle of no table, or of another partition's (R297). -/
def tabStatus (k : Cmd) (s : State) : Option Nat :=
  match getTab k.handle s with
  | none => some (if k.epoch = 0 then stBadParam else stNotOwner)
  | some t => if t.desc.part ≠ cmdPart k then some stRefused else none

/-- The rule of R309 for step `st`. -/
def stepRule (t : Tab) (st : Nat) : Verdict :=
  if st = t.step + 1 then if t.closing then .fail stStale 0 else .go
  else if st = t.step + 2 then .hold
  else if st ≤ t.step then .fail stStale 0
  else .fail stBadParam 0

/-- Commands of a table in progress. -/
def tabCmds (h : Nat) (s : State) : List EmbCmd := s.emb.cmds.filter (·.handle == h)

/-- The shards that own some rows. -/
def shardsOf (d : TabDesc) (rows : List Nat) : List Nat :=
  (rows.foldl (fun (m : Table Bool) p => tput m (p % d.shards) true) []).map (·.1)

/-- The composition rule of a table command that must fetch `rows` (R299, R305). -/
def tabGate (d : TabDesc) (update : Bool) (rows : List Nat) (k : Cmd) (s : State) : Verdict :=
  match cmdGate 1 (shardsOf d rows) k s with
  | .stop v => v
  | .alone => if (update && d.shards != 1) || !rows.isEmpty then .fail stNotOwner 0 else .go
  | .composed _ _ => .go

/-- Whether a stall that a command on rows of a table needs awaits its spare (R318, R491). -/
def rowsHeld (d : TabDesc) (rows : List Nat) (s : State) : Bool :=
  awaitsSpare [.stall] d.part s || rows.any fun p => stallHeld (rowChannel d p) s

/-- Fields of EMB_LOOKUP_POOL and EMB_UPDATE. -/
def embBags (ps : List Byte) : Nat := field ps 0 2
/-- FLAGS. -/
def embFlags (ps : List Byte) : Nat := field ps 3 1
/-- STEP. -/
def embStep (ps : List Byte) : Nat := field ps 4 4
/-- INDICES. -/
def embIndices (ps : List Byte) : Nat := field ps 8 4

/-- Whether an index of a DIRECT table is past its rows (R300). -/
def directBad (d : TabDesc) (bags n : Nat) (inp : List Byte) : Bool :=
  d.addr == 0 && (List.range n).any fun i => d.rows ≤ idxOf bags inp i

/-- The checks of a pooled lookup (R299, R303–R309, R318). -/
def poolCheck (k : Cmd) (ps inp : List Byte) (s : State) : Verdict :=
  let bags := embBags ps
  let n := embIndices ps
  let fl := embFlags ps
  let st := embStep ps
  let wtd := bit fl 0
  if blockBad k ps || bags < 1 || 2 < field ps 2 1 || n < 1 || 16777216 < n then
    .fail stBadParam 0
  else match tabStatus k s, getTab k.handle s with
    | none, some t =>
      let d := t.desc
      let w := fmtWidth (field ps 2 1)
      let bad := inp.length != lookupEnd bags n wtd || lookupBad bags n wtd inp || directBad d bags n inp
        || k.resultLen < 64 + bags * rowBytes d.dim w
      if bad then .fail stBadParam 0
      else
        let named := namedRows d bags n inp
        let fetch := rowsToFetch t st named
        let busy : Verdict := if rowsHeld d named s then .fail stBusy 0 else .go
        let step : Verdict := if st = 0 then .go else stepRule t st
        let room : Verdict := if fetchFits t (tabCmds k.handle s) st fetch then .go else .fail stNoResource 0
        let gang : Verdict := if ctxRuns d.part k.queue.q s then .go else .hold
        busy.andThen ((tabGate d false fetch k s).andThen (step.andThen (room.andThen gang)))
    | st, _ => .fail (st.getD stBadParam) 0

/-- The checks of a DUMP (R299, R306, R318). -/
def dumpCheck (k : Cmd) (ps inp : List Byte) (s : State) : Verdict :=
  let n := embIndices ps
  if blockBad k ps || embBags ps != 1 || field ps 2 1 != 0 || embFlags ps != 2 || embStep ps != 0 || n < 1
      || inp.length != lookupEnd 1 n false || lookupBad 1 n false inp then .fail stBadParam 0
  else match tabStatus k s, getTab k.handle s with
    | none, some t =>
      let d := t.desc
      let rows := (List.range n).map (idxOf 1 inp)
      (firstFail [
        (rows.any (d.rows + d.rRows ≤ ·) || k.resultLen < n * recStride d, stBadParam),
        (rowsHeld d rows s, stBusy),
        (rows.any fun p => !ownsRow d p, stNotOwner)]).andThen (tabGate d false [] k s)
    | st, _ => .fail (st.getD stBadParam) 0

/-- A finite FP32 field that is not negative; with `pos`, above zero. -/
def realOk (pos : Bool) (c : Nat) : Bool :=
  let v := fdecode fp32 c
  v.isFin && !fltV v (.fin false 0 0) && (!pos || !v.isZero)

/-- Hyperparameters of a block (R308). -/
def hyperOf (ps : List Byte) : Hyper :=
  let w : Nat → W32 := fun o => BitVec.ofNat 32 (field ps o 4)
  { lr := w 24, beta1 := w 28, beta2 := w 32, eps := w 36, wd := w 40 }

/-- Whether hyperparameters are out of range (R308). -/
def hyperBad (ps : List Byte) : Bool :=
  let below1 : Nat → Bool := fun o => realOk false (field ps o 4) && fltV (fdecode fp32 (field ps o 4)) fvOne
  !realOk false (field ps 24 4) || !below1 28 || !below1 32 || !realOk true (field ps 36 4) || !realOk false (field ps 40 4)
    || !zeroField ps 44 20

/-- A table command as it starts. -/
def newEmb (kind : EmbKind) (k : Cmd) (ps inp : List Byte) (resultOk : Bool) : EmbCmd where
  ref := k.ref
  part := cmdPart k
  ctx := k.queue.q
  handle := k.handle
  kind := kind
  bags := embBags ps
  fmt := field ps 2 1
  weighted := bit (embFlags ps) 0
  step := embStep ps
  input := inp
  hyper := hyperOf ps
  phase := .waiting
  awaits := []
  asked := []
  named := []
  copies := []
  seen := []
  picked := []
  done := 0
  started := false
  jobs := []
  due := []
  shardLost := false
  bad := none
  resultOk := resultOk

/-- Whether an input of bags and gradients breaks R304 or R308. -/
def updateInputBad (d : TabDesc) (ps inp : List Byte) : Bool :=
  let bags := embBags ps
  let n := embIndices ps
  let wtd := bit (embFlags ps) 0
  let fmt := field ps 2 1
  let grads := align64 (lookupEnd bags n wtd)
  let rb := rowBytes d.dim (fmtWidth fmt)
  let finite : Nat → Bool := fun b =>
    let bs := (inp.drop (grads + b * rb)).take rb
    (List.range d.dim).all fun j => (fmtValue fmt (elemAt bs (fmtWidth fmt) j)).isFin
  if bags = 0 then n != 0 || !(inp.length ∈ [0, 8, 64])
  else n < 1 || 16777216 < n || inp.length != grads + bags * rb || lookupBad bags n wtd inp || directBad d bags n inp
    || (List.range bags).any fun b => !finite b

/-- The rows an update must fetch: those COMPOSED_MUL multiplies by (R310). -/
def updateFetch (t : Tab) (ps inp : List Byte) : List Nat :=
  if t.desc.addr = 3 then rowsToFetch t (embStep ps) (namedRows t.desc (embBags ps) (embIndices ps) inp) else []

/-- The checks of EMB_UPDATE, with and without CLOSE (R299, R308, R309, R318). -/
def updateCheck (close : Bool) (k : Cmd) (ps inp : List Byte) (s : State) : Verdict :=
  let fl := embFlags ps
  let shape := if close then !k.pptr || ps.length != 64 || hyperBad ps else blockBad k ps || embBags ps == 0
  if shape || bit fl 2 || 2 < field ps 2 1 || k.resultLen != 0 then .fail stBadParam 0
  else match tabStatus k s, getTab k.handle s with
    | none, some t =>
      let d := t.desc
      let fetch := updateFetch t ps inp
      let opt : Verdict := if d.opt = 0 then .fail stRefused 0 else .go
      let input : Verdict := if updateInputBad d ps inp then .fail stBadParam 0 else .go
      let busy : Verdict :=
        if rowsHeld d (namedRows d (embBags ps) (embIndices ps) inp) s then .fail stBusy 0 else .go
      let room : Verdict := if fetchFits t (tabCmds k.handle s) (embStep ps) fetch then .go else .fail stNoResource 0
      let gang : Verdict := if ctxRuns d.part k.queue.q s then .go else .hold
      opt.andThen (input.andThen (busy.andThen ((tabGate d true fetch k s).andThen
        ((stepRule t (embStep ps)).andThen (room.andThen gang)))))
    | st, _ => .fail (st.getD stBadParam) 0

/-- The checks of EMB_UPDATE with LOAD (R299, R306, R308, R318). -/
def loadCheck (k : Cmd) (ps inp : List Byte) (s : State) : Verdict :=
  let n := embIndices ps
  if blockBad k ps || embBags ps != 1 || 2 < field ps 2 1 || embFlags ps != 4 || embStep ps != 0 || n < 1
      || k.resultLen != 0 then .fail stBadParam 0
  else match tabStatus k s, getTab k.handle s with
    | none, some t =>
      let d := t.desc
      let rows := (List.range n).map (idxOf 1 inp)
      (firstFail [
        (lookupBad 1 n false inp || inp.length != align64 (lookupEnd 1 n false) + n * recStride d
          || rows.any (d.rows + d.rRows ≤ ·), stBadParam),
        (rowsHeld d rows s, stBusy),
        (rows.any fun p => !ownsRow d p, stNotOwner)]).andThen ((tabGate d true [] k s).andThen
        (if t.closing || !t.ledger.isEmpty then .fail stBusy 0 else .go))
    | st, _ => .fail (st.getD stBadParam) 0

/-! Commands in progress. -/

/-- A table command of a name. -/
def getEmb (c : CmdRef) (s : State) : Option EmbCmd := s.emb.cmds.find? (·.ref == c)

/-- A table command changed by `f`. -/
def onEmbCmd (c : CmdRef) (f : EmbCmd → EmbCmd) (s : State) : State :=
  onEmb (fun e => { e with cmds := updWhere (·.ref == c) f e.cmds }) s

/-- A table command taken off. -/
def dropEmb (c : CmdRef) (s : State) : State := onEmb (fun e => { e with cmds := e.cmds.filter (·.ref != c) }) s

/-- A close that ends before its commit point: STATE is OPEN again, nothing else changes (R314). -/
def reopen (c : EmbCmd) (s : State) : State :=
  if c.kind = .close ∧ c.phase = .sets then
    let s := onEmbCounts c.part (fun x => { x with closeFails := wrap64 (x.closeFails + 1) }) s
    onTab c.handle (fun t => { t with closing := false }) s
  else s

/-- The last addition to a ledger under a name taken out. -/
def withoutAdd (c : CmdRef) (adds : List (CmdRef × List (Nat × List W32))) : List (CmdRef × List (Nat × List W32)) :=
  let r := adds.reverse
  (r.take (r.findIdx (·.1 == c)) ++ r.drop (r.findIdx (·.1 == c) + 1)).reverse

/-- An update that is stopped with its contributions in the ledger and its entry not yet written: they are removed (R318). -/
def removeAdds (c : CmdRef) (s : State) : State :=
  match findCmd c s with
  | none => s
  | some k =>
    if k.opcode != 0x19 || k.phase != .finishing then s
    else onTab k.handle (fun t =>
      let adds := withoutAdd c t.adds
      { t with adds := adds, ledger := ledgerOf t.desc.dim adds }) s

/-- A table command ended without its effect: its jobs and requests are cancelled, a close reopens its table, an update leaves the
ledger (R314, R318, R365). -/
def endEmb (c : CmdRef) (s : State) : State :=
  match getEmb c s with
  | none => removeAdds c s
  | some e => dropEmb c (cancelReqs c (reopen e (dropJobs c s)))

/-- A table command that fails with a status (R314). -/
def failEmb (c : CmdRef) (st detail : Nat) (s : State) : State := complete c st 0 detail [] (endEmb c s)

/-- The member of a shard as (node, partition). -/
def shardMember (h k : Nat) (s : State) : Option (Nat × Comp × Nat × Nat) :=
  (compFor 1 h s).bind fun e => (e.2.members[k]?).map fun m => (e.1, e.2, m.1, m.2)

/-- A request of a table command to a shard. -/
def askShard (kind : Nat) (e : EmbCmd) (k : Nat) (bodies : List (List Byte)) (s : State) : State :=
  match shardMember e.handle k s, bodies with
  | some (id, c, node, part), b :: rest =>
    let m := mkMsg node part kind id c.epoch k e.step b
    onEmbCmd e.ref (fun x => { x with awaits := x.awaits ++ [k] }) (sendReq e.part m (.command e.ref) rest s)
  | _, _ => s

/-- Rows that one fetch answer can carry: its body is at most 1 MiB (R358). -/
def rowsPerMsg (d : TabDesc) : Nat := 1048576 / (8 + 2 * d.dim)

/-- The fetches of a command: requests per owner, rows ascending (R305). -/
def sendFetches (e : EmbCmd) (d : TabDesc) (rows : List Nat) (s : State) : State :=
  (shardsOf d rows).foldl (fun s k =>
    let mine := rows.filter fun p => p % d.shards == k
    (chunks (rowsPerMsg d) (mine.length / rowsPerMsg d + 1) mine).foldl (fun s part =>
      if part.isEmpty then s else askShard 0x08 e k [part.flatMap (leBytes 8)] s) s) s

/-- Service jobs that read or write rows of a table made on the stalls of their pseudo-channels, in the order given on each (R194,
R301). DESIGN CHOICE (log 113): one activation for each row. -/
def startJobs (e : EmbCmd) (d : TabDesc) (write : Bool) (rows : List Nat) (s : State) : State :=
  let stalls := distinctRows (rows.map (rowChannel d))
  let s := stalls.foldl (fun s n =>
    let mine := rows.filter fun p => rowChannel d p == n
    addJob n (newJob e.ref e.part e.ctx 0 (.table e.handle write mine mine.length)) s) s
  onEmbCmd e.ref (fun x => { x with started := true, jobs := stalls }) s

/-- The rows that the service jobs of a command read, or write. -/
def jobRows (d : TabDesc) (e : EmbCmd) : Bool × List Nat :=
  let named := distinctRows (namedRows d e.bags (cmdIndices e) e.input)
  let given := (List.range (cmdIndices e)).map (idxOf 1 e.input)
  match e.kind with
  | .pool => (false, named)
  | .update | .close => (false, if d.addr = 3 then named else [])
  | .dump => (false, distinctRows given)
  | .load => (true, given)
  | .install | .refresh => (true, e.copies.map (·.1))
  | .drop => (false, [])

/-- A row read by a stall for a command: what its start has taken from a replica copy stays. -/
def seeRow (c : CmdRef) (p : Nat) (bs : List Byte) (s : State) : State :=
  onEmbCmd c (fun e => if (tget? e.seen p).isSome then e else { e with seen := tput e.seen p bs }) s

/-- The record that LOAD brings for the `k`-th row of a pseudo-channel's job, which is row `p` (R306, R308). -/
def loadRec (d : TabDesc) (e : EmbCmd) (p k : Nat) : List Byte :=
  let n := cmdIndices e
  let mine := (List.range n).filter fun i => rowChannel d (idxOf 1 e.input i) == rowChannel d p
  (e.input.drop (align64 (lookupEnd 1 n false) + mine.getD k 0 * recStride d)).take (recBytesOf d)

/-- An owned row updated by a close past its commit point (R312 step 4, R313). -/
def updateRow (e : EmbCmd) (t : Tab) (p : Nat) (s : State) : State :=
  match tget? t.ledger p with
  | none => s
  | some g =>
    let s := onTab e.handle (fun t => putRec p (updateRec t.desc e.hyper e.step (rowRec t p) g) t) s
    let s := onEmbCounts e.part (fun x => { x with updated := wrap64 (x.updated + 1) }) s
    onEmbCmd e.ref (fun x => { x with picked := x.picked ++ [p] }) s

/-- A row that an activation of a command's job has reached: read, or written (R305–R308, R312, R317). -/
def workRow (e : EmbCmd) (s : State) (x : Nat × Nat) : State :=
  match getTab e.handle s with
  | none => s
  | some t =>
    let copy : Tab → Tab := fun t =>
      match tget? e.copies x.1 with
      | none => t
      | some bs => { t with copies := tput t.copies x.1 bs }
    match e.kind with
    | .pool | .update => seeRow e.ref x.1 ((rowSource t e.step e.copies x.1).getD []) s
    | .close => if e.phase = .commit then updateRow e t x.1 s else seeRow e.ref x.1 ((rowSource t e.step e.copies x.1).getD []) s
    | .dump => seeRow e.ref x.1 (rowRec t x.1) s
    | .load => onTab e.handle (putRec x.1 (loadRec t.desc e x.1 x.2)) s
    | .install =>
      onEmbCmd e.ref (fun y => { y with done := y.done + 1, asked := y.asked.erase x.1 }) (onTab e.handle copy s)
    | .refresh =>
      if (tget? t.copies x.1).isNone then s
      else onEmbCmd e.ref (fun y => { y with done := y.done + 1 }) (onTab e.handle copy s)
    | .drop => s

/-- The rows that activations have reached are worked on. -/
def workRows (s : State) : State :=
  s.emb.cmds.foldl (fun s e => e.due.foldl (workRow e) (onEmbCmd e.ref (fun x => { x with due := [] }) s)) s

/-! The end of a close (R312 steps 5 and 6, R316). -/

/-- Key of a shard's set of a step. -/
def setKey (step k : Nat) : Nat := 65536 * step + k

/-- The other shards of a table. -/
def otherShards (d : TabDesc) : List Nat := (List.range d.shards).filter (· != d.shard)

/-- Entries of a set as message bodies: the last is never full, which ends the set. -/
def setBodies (d : TabDesc) (es : List (List Byte)) : List (List Byte) :=
  let n := rowsPerMsg d
  (chunks n (es.length / n + 1) es).map (·.flatten)

/-- Sets sent to every other shard (R312 step 2, R316). -/
def sendSets (kind : Nat) (e : EmbCmd) (d : TabDesc) (entries : Nat → List (List Byte)) (s : State) : State :=
  (otherShards d).foldl (fun s k =>
    let es := entries k
    let s := askShard kind e k (setBodies d es) s
    onEmbCounts e.part (fun x => { x with sentBytes := wrap64 (x.sentBytes + (es.map (·.length)).foldl (· + ·) 0) }) s) s

/-- A close that is done (R312 step 6): copies and ledger released, STEP and STATE set, the command completed. -/
def finishClose (e : EmbCmd) (s : State) : State :=
  let fin : Tab → Tab := fun t => { t with
    step := e.step, closing := false, fetched := [], ledger := [], adds := []
    sets := t.sets.filter fun x => 65536 * (e.step + 1) ≤ x.1
    setsDone := t.setsDone.filter fun x => 65536 * (e.step + 1) ≤ x
    refreshed := t.refreshed.filter fun x => 65536 * (e.step + 1) ≤ x }
  let s := dropEmb e.ref (onTab e.handle fin s)
  match e.bad with
  | some (seq, dropped) => completeRec e.ref stUncorrectable e.done seq dropped s
  | none => complete e.ref (if e.shardLost then stNotOwner else stOk) e.done e.step [] s

/-- A close whose refresh sets have all come is done (R316). -/
def settleRefresh (c : CmdRef) (s : State) : State :=
  match getEmb c s with
  | none => s
  | some e =>
    match getTab e.handle s with
    | none => s
    | some t =>
      if e.kind == .close && e.phase == .refresh && (otherShards t.desc).all fun k => t.refreshed.contains (setKey e.step k) then
        finishClose e s
      else s

/-- The copies of a shard's rows dropped from the directory (R316). -/
def dropCopies (h k : Nat) (s : State) : State :=
  onTab h (fun t => { t with copies := t.copies.filter fun e => e.1 % t.desc.shards != k }) s

/-- A close past its commit point without the refresh set of a shard: its copies leave the directory (R316). -/
def loseShard (e : EmbCmd) (k : Nat) (s : State) : State :=
  let key := setKey e.step k
  let s := dropCopies e.handle k s
  let s := onTab e.handle (fun t => { t with refreshed := if t.refreshed.contains key then t.refreshed else t.refreshed ++ [key] }) s
  onEmbCmd e.ref (fun e => { e with shardLost := true }) s

/-- The shards of a table that its composition no longer names. -/
def missingShards (e : EmbCmd) (d : TabDesc) (s : State) : List Nat :=
  (otherShards d).filter fun k => (shardMember e.handle k s).isNone

/-- A close that has updated its rows: the refresh sets are sent (R312 step 5, R316). -/
def endCommit (e : EmbCmd) (t : Tab) (s : State) : State :=
  let d := t.desc
  let s := onEmbCmd e.ref (fun x => { x with phase := .refresh, done := e.picked.length }) s
  let entries : Nat → List (List Byte) := fun k =>
    (e.picked.filter fun p => ((tget? t.holders p).getD []).contains k).map fun p => leBytes 8 p ++ (rowRec t p).take (2 * d.dim)
  let s := (missingShards e d s).foldl (fun s k => loseShard e k s) (sendSets 0x0B e d entries s)
  settleRefresh e.ref s

/-! Commands that go on. -/

/-- A pooled lookup completes (R307). -/
def endPool (e : EmbCmd) (t : Tab) (s : State) : State :=
  let hits := ((namedRows t.desc e.bags (cmdIndices e) e.input).filter e.picked.contains).length
  let s := onEmbCounts e.part (fun x => { x with
    pooled := wrap64 (x.pooled + cmdIndices e), copyHits := wrap64 (x.copyHits + hits) }) s
  finish e.ref e.resultOk stOk e.bags e.step (poolResult t.desc e) (dropEmb e.ref s)

/-- A DUMP completes (R306). -/
def endDump (e : EmbCmd) (t : Tab) (s : State) : State :=
  let out := (List.range (cmdIndices e)).flatMap fun i =>
    fit (recStride t.desc) ((tget? e.seen (idxOf 1 e.input i)).getD [])
  finish e.ref e.resultOk stOk 1 0 out (dropEmb e.ref s)

/-- Contributions added to the ledger of a table, counted (R311). -/
def addToLedger (e : EmbCmd) (cs : List (Nat × List W32)) (l : Table (List W32)) (s : State) : State :=
  let s := onEmbCounts e.part (fun x => { x with ledgerAdds := wrap64 (x.ledgerAdds + cs.length) }) s
  onTab e.handle (fun t => { t with ledger := l, adds := t.adds ++ [(e.ref, cs)] }) s

/-- An update adds its contributions to the ledger and completes, in fetch order (R311). -/
def endUpdate (e : EmbCmd) (t : Tab) (s : State) : State :=
  let cs := contributions t.desc e
  match ledgerWith t cs with
  | none => completeSt e.ref stNoResource (dropEmb e.ref s)
  | some l => completeSt e.ref stOk (dropEmb e.ref (addToLedger e cs l s))

/-- A replica command whose owners have all answered completes (R317). -/
def endReplica (e : EmbCmd) (s : State) : State :=
  complete e.ref (if e.done < e.named.length then stPartial else stOk) e.done 0 [] (dropEmb e.ref s)

/-- Whether a command's jobs are to be made: it awaits no row. -/
def jobsWait (e : EmbCmd) : Bool := e.awaits.isEmpty && !e.started

/-- Whether a command goes on: its jobs have ended; an update after the earlier ones of its table, a close once it commits. -/
def mayGo (before : List EmbCmd) (e : EmbCmd) : Bool :=
  e.awaits.isEmpty && e.started && e.jobs.isEmpty && (match e.kind with
    | .update => !before.any fun b => b.handle == e.handle && b.kind == .update
    | .close => e.phase == .commit
    | _ => true)

/-- The next thing a command of a table does: its jobs, or its end (R307, R311, R312, R317). -/
def settleOne (e : EmbCmd) (s : State) : State :=
  match getTab e.handle s with
  | none => s
  | some t =>
    if jobsWait e then
      let (write, rows) := jobRows t.desc e
      startJobs e t.desc write rows s
    else match e.kind with
    | .pool => endPool e t s
    | .dump => endDump e t s
    | .update => endUpdate e t s
    | .load => completeSt e.ref stOk (dropEmb e.ref s)
    | .close => endCommit e t s
    | .install | .drop | .refresh => endReplica e s

/-- The commands that may go on, one after another, in at most `n` rounds. -/
def settleEmb : Nat → State → State
  | 0, s => s
  | n + 1, s =>
    match s.emb.cmds.zipIdx.find? fun e => jobsWait e.1 || mayGo (s.emb.cmds.take e.2) e.1 with
    | none => s
    | some (e, _) => settleEmb n (settleOne e s)

/-- All of them. -/
def settleAllEmb (s : State) : State := settleEmb (2 * s.emb.cmds.length) s

/-- The replica copies that a lookup names, taken at its start (R305). -/
def takeCopies (e : EmbCmd) (t : Tab) : EmbCmd :=
  let rows := (jobRows t.desc e).2.filter fun p => !ownsRow t.desc p
  if e.fetches then
    rows.foldl (fun e p => match tget? t.copies p with
      | none => e
      | some bs => { e with seen := tput e.seen p bs, picked := e.picked ++ [p] }) e
  else e

/-- A lookup or update begun: its fetches sent, its jobs started (R305, R311). A codeword that is lost ends it (R318). -/
def beginEmb (e : EmbCmd) (d : CmdIn) (rows : List Nat) (s : State) : State :=
  match d.ecc, findCmd e.ref s with
  | .uncorrectable, some k =>
    let (s, seq, dropped) := dramLost (some k) d.place.stack d.place.pc d.place.bank d.place.row d.place.unit s
    completeRec e.ref stUncorrectable 0 seq dropped s
  | ecc, _ =>
    let s := match ecc with
      | .corrected n => dramCorrected d.place.stack d.place.pc d.place.bank d.place.row d.place.unit n s
      | _ => s
    match getTab e.handle s with
    | none => s
    | some t =>
      let e := { takeCopies e t with asked := rows }
      let s := onEmb (fun x => { x with cmds := x.cmds ++ [e] }) s
      settleAllEmb (sendFetches e t.desc rows s)

/-- The rows a lookup must fetch. -/
def poolFetch (k : Cmd) (ps inp : List Byte) (s : State) : List Nat :=
  match getTab k.handle s with
  | none => []
  | some t => rowsToFetch t (embStep ps) (namedRows t.desc (embBags ps) (embIndices ps) inp)

/-- EMB_LOOKUP_POOL (R303–R307). -/
def execEmbLookupPool (c : CmdRef) (d : CmdIn) (s : State) : Host.Outcome State Fault Refusal :=
  .next (begin 0x18 (fun ps => !bit (embFlags ps) 1) c d poolCheck
    (fun k ps inp s => beginEmb (newEmb .pool k ps inp d.resultOk) d (poolFetch k ps inp s) s) s)

/-- EMB_LOOKUP_POOL with DUMP (R306). -/
def execEmbLookupDump (c : CmdRef) (d : CmdIn) (s : State) : Host.Outcome State Fault Refusal :=
  .next (begin 0x18 (fun ps => bit (embFlags ps) 1) c d dumpCheck
    (fun k ps inp s => beginEmb (newEmb .dump k ps inp d.resultOk) d [] s) s)

/-- EMB_UPDATE (R308, R310, R311). -/
def execEmbUpdate (c : CmdRef) (d : CmdIn) (s : State) : Host.Outcome State Fault Refusal :=
  .next (begin 0x19 (fun ps => bits (embFlags ps) 2 1 == 0) c d (updateCheck false)
    (fun k ps inp s =>
      let rows := match getTab k.handle s with
        | none => []
        | some t => updateFetch t ps inp
      beginEmb (newEmb .update k ps inp true) d rows s) s)

/-- EMB_UPDATE with LOAD (R306, R308). -/
def execEmbUpdateLoad (c : CmdRef) (d : CmdIn) (s : State) : Host.Outcome State Fault Refusal :=
  .next (begin 0x19 (fun ps => bit (embFlags ps) 2) c d loadCheck
    (fun k ps inp s => beginEmb (newEmb .load k ps inp true) d [] s) s)

/-- EMB_UPDATE with CLOSE (R308, R309, R312): it waits for STEP_CLOSE_START. -/
def execEmbUpdateClose (c : CmdRef) (d : CmdIn) (s : State) : Host.Outcome State Fault Refusal :=
  .next (begin 0x19 (fun ps => bits (embFlags ps) 2 1 == 1) c d (updateCheck true)
    (fun k ps inp s =>
      let rows := match getTab k.handle s with
        | none => []
        | some t => updateFetch t ps inp
      let inp := if embBags ps = 0 then zeros 8 else inp
      beginEmb (newEmb .close k ps inp true) d rows s) s)

/-! The start and commit of a close (R309, R312). -/

/-- The rows whose ledger entry is lost at the commit: one error record each; the first is the command's (R318). -/
def reportLost (c : CmdRef) (lost : List (Nat × MemPlace)) (s : State) : State :=
  lost.foldl (fun s x =>
    let (s, seq, dropped) := dramLost (findCmd c s) x.2.stack x.2.pc x.2.bank x.2.row x.2.unit s
    onEmbCmd c (fun e => { e with bad := some (e.bad.getD (seq, dropped)) }) s) s

/-- The ledger of a close with the sets of the other shards added, in ascending shard order (R312 step 3). -/
def fullLedger (e : EmbCmd) (t : Tab) : Option (Table (List W32)) :=
  let d := t.desc
  ledgerWith t ((otherShards d).flatMap fun k =>
    ((tget? t.sets (setKey e.step k)).getD []).map fun x => (x.1, elemWords d.elem d.dim x.2))

/-- The commit point of a close (R312 steps 3 and 4): from here a service job on each stall updates the owned rows with an entry.
`lost` are the rows whose entry is lost: they are not updated (R318). -/
def commitClose (e : EmbCmd) (t : Tab) (lost : List (Nat × MemPlace)) (s : State) : State :=
  match fullLedger e t with
  | none => failEmb e.ref stNoResource 0 s
  | some l =>
    let d := t.desc
    let owned := (l.filter fun x => ownsRow d x.1).map (·.1)
    let s := reportLost e.ref (lost.filter fun y => owned.contains y.1) s
    let s := onTab e.handle (fun t => { t with ledger := l }) s
    let s := onEmbCounts e.part (fun x => { x with closes := wrap64 (x.closes + 1) }) s
    let s := onCmd e.ref (fun k => { k with committed := true }) (onEmbCmd e.ref (fun x => { x with
      phase := .commit, picked := [] }) s)
    settleAllEmb (startJobs e d true (owned.filter fun p => !lost.any fun y => y.1 == p) s)

/-- A close that holds every other shard's set commits (R312 step 3). -/
def settleSets (c : CmdRef) (lost : List (Nat × MemPlace)) (s : State) : State :=
  match getEmb c s with
  | none => s
  | some e =>
    match getTab e.handle s with
    | none => s
    | some t =>
      if e.kind == .close && e.phase == .sets
          && (otherShards t.desc).all fun k => t.setsDone.contains (setKey e.step k) then commitClose e t lost s
      else s

/-- Whether an earlier command of a close's step is still to complete (R309): one in progress, or one fetched before it. -/
def stepBusy (e : EmbCmd) (s : State) : Bool :=
  (s.emb.cmds.any fun x => x.handle == e.handle && x.step == e.step && x.ref != e.ref && x.kind != .close)
    || (earlier e.ref s.host.cmds).any fun k =>
      k.handle == e.handle && k.queue.scope == e.ref.scope && (k.opcode == 0x18 || k.opcode == 0x19)
        && (k.pptr || field k.packet 44 4 == e.step)

/-- The start of a close (R309, R312): its bags added, STATE set to CLOSING, its gradient sets sent. -/
def startClose (c : CmdRef) (lost : List (Nat × MemPlace)) (s : State) : State :=
  match getEmb c s with
  | none => s
  | some e =>
    match getTab e.handle s with
    | none => s
    | some t =>
      if e.kind != .close || e.phase != .waiting || !e.awaits.isEmpty || !e.started || !e.jobs.isEmpty || stepBusy e s then s
      else match stepRule t e.step with
        | .hold => s
        | .fail st detail => failEmb c st detail s
        | .go =>
          let cs := contributions t.desc e
          match ledgerWith t cs with
          | none => failEmb c stNoResource 0 s
          | some l =>
            let s := onTab e.handle (fun t => { t with closing := true }) (addToLedger e cs l s)
            let s := onEmbCmd c (fun x => { x with phase := .sets }) s
            let d := t.desc
            let entries : Nat → List (List Byte) := fun k =>
              (l.filter fun x => x.1 % d.shards == k).map fun x => leBytes 8 x.1 ++ elemsOut d.elem x.2
            settleSets c lost (sendSets 0x0A { e with phase := .sets } d entries s)

/-- STEP_CLOSE_START (R309). -/
def execStepCloseStart (c : CmdRef) (lost : List (Nat × MemPlace)) (s : State) : Host.Outcome State Fault Refusal :=
  .next (startClose c lost s)

/-! Replicas (R315–R317). -/

/-- Entries of the replica directory in use: copies, and rows with holders (R315, R319). -/
def dirCopies (s : State) : Nat := sumNat (s.emb.tables.map fun t => t.2.copies.length)
/-- COPY entries that INSTALL commands in progress will take. -/
def dirWanted (s : State) : Nat := sumNat ((s.emb.cmds.filter (·.kind == .install)).map (·.asked.length))
/-- HOLDERS entries. -/
def dirHolders (s : State) : Nat := sumNat (s.emb.tables.map fun t => t.2.holders.length)

/-- The rows named that other shards own, each once, ascending (R317). -/
def replicaRows (d : TabDesc) (n : Nat) (inp : List Byte) : List Nat :=
  let rows := (List.range n).flatMap fun i => rowsOf64 d (field inp (8 * i) 8)
  ((rows.filter fun p => !ownsRow d p).foldl (fun (m : Table Bool) p => tput m p true) []).map (·.1)

/-- The rows of an INSTALL that have a copy slot and a directory entry here (R301, R315), beside those that other INSTALLs, `taken`,
will have. -/
def installable (t : Tab) (taken : List Nat) (free : Nat) (rows : List Nat) : List Nat :=
  (rows.foldl (fun (acc : List Nat × Table Nat × Nat) p =>
    let (ok, used, left) := acc
    if (tget? t.copies p).isSome then (ok ++ [p], used, left)
    else
      let c := rowChannel t.desc p
      let n := ((t.copies.map (·.1) ++ taken).filter fun q => rowChannel t.desc q == c).length + sget (fun _ => 0) used c
      if n < t.desc.copySlots / 256 ∧ 0 < left then (ok ++ [p], smod (fun _ => 0) used c (· + 1), left - 1)
      else acc) ([], [], free)).1

/-- The checks of EMB_REPLICA_REFRESH (R317). -/
def replicaCheck (k : Cmd) (ps inp : List Byte) (s : State) : Verdict :=
  let n := field ps 4 4
  if 2 < field ps 0 1 || n < 1 || 65536 < n || k.resultLen != 0
      || inp.length != 8 * n then .fail stBadParam 0
  else match tabStatus k s, getTab k.handle s with
    | none, some t =>
      let d := t.desc
      let bad := d.addr == 0 && (List.range n).any fun i => d.rows ≤ field inp (8 * i) 8
      if bad then .fail stBadParam 0
      else
        let later : Verdict := if t.closing then .hold else .go
        let busy : Verdict := if rowsHeld d (replicaRows d n inp) s then .fail stBusy 0 else .go
        busy.andThen ((tabGate d false (replicaRows d n inp) k s).andThen later)
    | st, _ => .fail (st.getD stBadParam) 0

/-- A replica command begun: one request per owner (R317); the rows go in parts that one answer can carry. -/
def beginReplica (kind : EmbKind) (op : Nat) (k : Cmd) (ps inp : List Byte) (s : State) : State :=
  match getTab k.handle s with
  | none => s
  | some t =>
    let d := t.desc
    let rows := replicaRows d (field ps 4 4) inp
    let free := 1048576 - (dirCopies s + dirWanted s + dirHolders s)
    let taken := ((tabCmds k.handle s).filter (·.kind == .install)).flatMap (·.asked)
    let ask := if op = 0 then installable t taken free rows else rows.filter fun p => (tget? t.copies p).isSome
    let e := { newEmb kind k ps inp true with named := rows, step := t.step, asked := if op = 0 then ask else [] }
    let s := onEmb (fun x => { x with cmds := x.cmds ++ [e] }) s
    let s := if op = 1 then onTab k.handle (fun t => { t with copies := t.copies.filter fun x => !ask.contains x.1 }) s else s
    let s := (shardsOf d ask).foldl (fun s sh =>
      let mine := ask.filter fun p => p % d.shards == sh
      (chunks (rowsPerMsg d) (mine.length / rowsPerMsg d + 1) mine).foldl (fun s part =>
        if part.isEmpty then s else askShard 0x0C e sh [leBytes 8 op ++ part.flatMap (leBytes 8)] s) s) s
    settleAllEmb s

/-- EMB_REPLICA_REFRESH with OP INSTALL (R317). -/
def execEmbReplicaInstall (c : CmdRef) (d : CmdIn) (s : State) : Host.Outcome State Fault Refusal :=
  .next (begin 0x1A (fun ps => opIs 0 ps || 2 < field ps 0 1) c d replicaCheck (beginReplica .install 0) s)

/-- EMB_REPLICA_REFRESH with OP DROP (R317). -/
def execEmbReplicaDrop (c : CmdRef) (d : CmdIn) (s : State) : Host.Outcome State Fault Refusal :=
  .next (begin 0x1A (opIs 1) c d replicaCheck (beginReplica .drop 1) s)

/-- EMB_REPLICA_REFRESH with OP REFRESH (R317). -/
def execEmbReplicaRefresh (c : CmdRef) (d : CmdIn) (s : State) : Host.Outcome State Fault Refusal :=
  .next (begin 0x1A (opIs 2) c d replicaCheck (beginReplica .refresh 2) s)

/-! Messages of tables (R305, R312, R316, R317, R373). -/

/-- Row numbers of a body. -/
def bodyRows (off : Nat) (bs : List Byte) : List Nat := (List.range ((bs.length - off) / 8)).map fun i => field bs (off + 8 * i) 8

/-- Rows with their elements in a body. -/
def bodyEntries (d : TabDesc) (bs : List Byte) : List (Nat × List Byte) :=
  let n := 8 + 2 * d.dim
  (List.range (bs.length / n)).map fun i => (field bs (n * i) 8, (bs.drop (n * i + 8)).take (2 * d.dim))

/-- Rows with their elements as this node holds them. -/
def rowEntries (t : Tab) (rows : List Nat) : List Byte :=
  rows.flatMap fun p => leBytes 8 p ++ (rowRec t p).take (2 * t.desc.dim)

/-- Whether the close of a table is past its commit point. -/
def pastCommit (h : Nat) (s : State) : Bool :=
  s.emb.cmds.any fun e => e.handle == h && e.kind == .close && (e.phase == .commit || e.phase == .refresh)

/-- A fetch served by the owner, kept for a later step, or stale (R305). -/
def serveFetch (m : Msg) (c : Comp) (s : State) : State :=
  match getTab c.handle s with
  | none => respondSt m stNotOwner s
  | some t =>
    let rows := (bodyRows 0 m.body).filter (ownsRow t.desc)
    let answer := respond m stOk m.epoch m.slot m.seq (rowEntries t rows)
    if m.seq = 0 then answer s
    else if m.seq = t.step + 1 ∧ !pastCommit c.handle s then answer s
    else if t.step + 1 < m.seq then holdMsg m s
    else respondSt m stStale s

/-- EMB_FETCH (R305). -/
def execEmbFetch (src msg : Nat) (s : State) : Host.Outcome State Fault Refusal :=
  .next (handleReq 0x08 1 src msg serveFetch s)

/-- A command that waits for a shard no longer waits for one answer of it. -/
def unawait (c : CmdRef) (k : Nat) (s : State) : State := onEmbCmd c (fun e => { e with awaits := e.awaits.erase k }) s

/-- Fetched rows taken (R305), or the command ended with the owner's status (R397). -/
def takeRows (r : Req) (m : Msg) (s : State) : State :=
  match r.waiter with
  | .handoff _ _ => s
  | .command c =>
    match getEmb c s with
    | none => s
    | some e =>
      match getTab e.handle s with
      | none => s
      | some t =>
        if m.status ≠ stOk then
          failEmb c m.status (if m.status = stRedirect then redirectDetail m.epoch m.seq m.slot else 0) s
        else
          let es := bodyEntries t.desc m.body
          let s := onEmbCounts e.part (fun x => { x with fetched := wrap64 (x.fetched + es.length) }) s
          let put : Table (List Byte) → Table (List Byte) := fun f => es.foldl (fun f x => tput f x.1 x.2) f
          let s := onEmbCmd c (fun e => { e with asked := e.asked.filter fun p => !es.any fun x => x.1 == p }) s
          let s := if e.step = 0 then onEmbCmd c (fun e => { e with copies := put e.copies }) s
            else onTab e.handle (fun t => { t with fetched := put t.fetched }) s
          settleAllEmb (unawait c r.msg.slot s)

/-- EMB_ROWS (R305). -/
def execEmbRows (src msg : Nat) (s : State) : Host.Outcome State Fault Refusal :=
  .next (handleRsp 0x09 src msg takeRows s)

/-- The shard that a node holds in a composition. -/
def shardOfNode (c : Comp) (node : Nat) : Nat := (c.members.findIdx? (·.1 == node)).getD 0

/-- A gradient set taken (R312 step 3, R314): only the first of a step from a sender, none of a closed step. -/
def takeGset (lost : List (Nat × MemPlace)) (m : Msg) (c : Comp) (s : State) : State :=
  match getTab c.handle s with
  | none => respondSt m stNotOwner s
  | some t =>
    let key := setKey m.seq (shardOfNode c m.src)
    let s := respondSt m stOk s
    if m.seq ≤ t.step || t.setsDone.contains key then s
    else
      let es := bodyEntries t.desc m.body
      let put : Tab → Tab := fun t => { t with
        sets := tput t.sets key ((tget? t.sets key).getD [] ++ es)
        setsDone := if es.length < rowsPerMsg t.desc then t.setsDone ++ [key] else t.setsDone }
      let s := onTab c.handle put s
      match s.emb.cmds.find? fun e => e.handle == c.handle && e.kind == .close && e.phase == .sets with
      | none => s
      | some e => settleSets e.ref lost s

/-- EMB_GSET (R312). -/
def execEmbGset (src msg : Nat) (lost : List (Nat × MemPlace)) (s : State) : Host.Outcome State Fault Refusal :=
  .next (handleReq 0x0A 1 src msg (takeGset lost) s)

/-- A refresh set taken (R316): each row into its copy slot. -/
def takeRset (m : Msg) (c : Comp) (s : State) : State :=
  match getTab c.handle s with
  | none => respondSt m stNotOwner s
  | some t =>
    let key := setKey m.seq (shardOfNode c m.src)
    let s := respondSt m stOk s
    if m.seq ≤ t.step || t.refreshed.contains key then s
    else
      let es := bodyEntries t.desc m.body
      let put : Tab → Tab := fun t => { t with
        copies := es.foldl (fun f x => if (tget? f x.1).isSome then tput f x.1 x.2 else f) t.copies
        refreshed := if es.length < rowsPerMsg t.desc then t.refreshed ++ [key] else t.refreshed }
      let s := onTab c.handle put s
      match s.emb.cmds.find? fun e => e.handle == c.handle && e.kind == .close && e.phase == .refresh with
      | none => s
      | some e => settleRefresh e.ref s

/-- EMB_RSET (R316). -/
def execEmbRset (src msg : Nat) (s : State) : Host.Outcome State Fault Refusal := .next (handleReq 0x0B 1 src msg takeRset s)

/-- The rows an owner grants of an INSTALL (R315, R317): fewer than 4 holders, and a directory entry. -/
def grantRows (k free : Nat) (rows : List Nat) (t : Tab) : Tab × List Nat :=
  let r := rows.foldl (fun (acc : Table (List Nat) × List Nat × Nat) p =>
    let (hs, ok, free) := acc
    let l := (tget? hs p).getD []
    if l.contains k then (hs, ok ++ [p], free)
    else if 4 ≤ l.length ∨ (l.isEmpty ∧ free = 0) then acc
    else (tput hs p (l ++ [k]), ok ++ [p], if l.isEmpty then free - 1 else free)) (t.holders, [], free)
  ({ t with holders := r.1 }, r.2.1)

/-- Holders of rows without a shard. -/
def dropHolder (k : Nat) (rows : List Nat) (t : Tab) : Tab :=
  { t with holders := t.holders.filterMap fun e =>
      if rows.contains e.1 then
        let l := e.2.filter (· != k)
        if l.isEmpty then none else some (e.1, l)
      else some e }

/-- An owner's answer to EMB_REPL (R317); REFRESH and INSTALL answer with the rows. Kept while the table closes. -/
def serveRepl (m : Msg) (c : Comp) (s : State) : State :=
  match getTab c.handle s with
  | none => respondSt m stNotOwner s
  | some t =>
    let k := shardOfNode c m.src
    let op := field m.body 0 8
    let rows := (bodyRows 8 m.body).filter (ownsRow t.desc)
    if t.closing then holdMsg m s
    else if op = 0 then
      let (t2, ok) := grantRows k (1048576 - (dirCopies s + dirHolders s)) rows t
      respond m stOk m.epoch m.slot m.seq (rowEntries t ok) (onTab c.handle (fun _ => t2) s)
    else if op = 1 then respond m stOk m.epoch m.slot m.seq (rows.flatMap (leBytes 8)) (onTab c.handle (dropHolder k rows) s)
    else respond m stOk m.epoch m.slot m.seq (rowEntries t rows) s

/-- EMB_REPL (R317). -/
def execEmbRepl (src msg : Nat) (s : State) : Host.Outcome State Fault Refusal := .next (handleReq 0x0C 1 src msg serveRepl s)

/-- An owner's answer taken (R317, R397). -/
def takeRepl (r : Req) (m : Msg) (s : State) : State :=
  match r.waiter with
  | .handoff _ _ => s
  | .command c =>
    match getEmb c s with
    | none => s
    | some e =>
      match getTab e.handle s with
      | none => s
      | some t =>
        let d := t.desc
        let s := if m.status ≠ stOk then s
          else if e.kind = .drop then
            onEmbCmd c (fun x => { x with done := x.done + (bodyRows 0 m.body).length }) s
          else
            onEmbCmd c (fun x => { x with copies := (bodyEntries d m.body).foldl (fun f x => tput f x.1 x.2) x.copies }) s
        if m.status = stNotOwner ∨ m.status = stRedirect then
          failEmb c m.status (if m.status = stRedirect then redirectDetail m.epoch m.seq m.slot else 0) s
        else settleAllEmb (unawait c r.msg.slot s)

/-- EMB_REPL_RSP (R317). -/
def execEmbReplRsp (src msg : Nat) (s : State) : Host.Outcome State Fault Refusal := .next (handleRsp 0x0D src msg takeRepl s)

/-- A table command whose request to a shard ended without an answer: with TIMEOUT, or NOT_OWNER for a lost shard (R314, R316,
R362, R381). -/
def embReqEnds (c : CmdRef) (k st : Nat) (s : State) : State :=
  match getEmb c s with
  | none => s
  | some e =>
    if e.kind = .close ∧ e.phase = .refresh then settleRefresh c (loseShard e k s)
    else failEmb c st 0 s

end Sys2Proof.Machine
end

