-- ==== Sys2Proof/Machine/Fetch.lean ====
section
/-!
DEFINITION. COMMAND_FETCH: the packet, the duplicate table, the policer and the packet checks (R46, R47, R50–R53,
R56–R60, R392–R397).
-/
namespace Sys2Proof.Machine

/-- The command of a packet, fetched from a queue at a time (R50). -/
def cmdOf (q : QRef) (p : List Byte) (now : Nat) : Cmd where
  ref := { scope := q.scope, rid := field p 4 4 }
  queue := q
  opcode := field p 0 1
  pptr := bit (field p 1 1) 0
  fence := bit (field p 1 1) 1
  noInt := bit (field p 1 1) 2
  handle := field p 2 2
  epoch := field p 8 4
  deadline := field p 12 4
  resultLen := field p 36 4
  resultPtr := field p 24 8
  dataLen := field p 32 4
  dataPtr := field p 16 8
  packet := p
  fetched := now
  phase := .waiting
  mute := false
  remote := false
  lostSeq := none
  errRec := false
  committed := false

/-- Whether a queue may fetch its next entry (R43, R44, R47, R487): running, an entry covered by SQ_TAIL, a completion
slot to reserve, and INFLIGHT below 4,096. -/
def mayFetch (q : QRef) (s : State) : Bool :=
  let x := getQueue q s
  let n := 2 ^ x.cqLog2
  x.state == .running && x.sqHead != x.sqTail && (scopePort q.scope s).isSome && !s.err.halted
    && inflight q s < Config.maxInflight && (x.cqTail + n - x.cqHead) % n + inflight q s < n - 1

/-- A duplicate entry that still holds a request ID at the present time (R56): its command runs, or 4 s have not passed
since the fetch. -/
def heldDup (c : CmdRef) (s : State) : Option Dup :=
  s.host.dups.find? fun d => d.ref == c && (d.answer.isNone || timeUs s < d.fetched + Config.dupHoldUs)

/-- The duplicate table with entries past their retention dropped (R56, R60). -/
def liveDups (s : State) : List Dup :=
  s.host.dups.filter fun d => d.answer.isNone || timeUs s < d.fetched + Config.dupHoldUs

/-- An entry taken out of the duplicate table. -/
def forgetDup (c : CmdRef) (s : State) : State :=
  onHost (fun h => { h with dups := h.dups.filter (·.ref != c) }) s

/-- The pre-colour of a command's queue pair (R396, R408). -/
def cmdColour (q : QRef) (s : State) : Colour :=
  match q.scope with
  | .part p => colourOf (bits (sget qColourReset s.tm.colours p).qp (2 * q.q + 1) (2 * q.q))
  | .pf _ => .green

/-- Bytes a command is charged at its port policer (R393). -/
def cmdCharge (k : Cmd) : Nat := 64 + k.dataLen + if k.pptr then field k.packet 48 4 else 0

/-- The port policer of a command: 3p for port A, 3p + 1 for port B; control queues are not policed (R392, R393). -/
def policeCmd (k : Cmd) (s : State) : Bool × State :=
  match k.queue.scope with
  | .part p =>
    if k.queue.q < 16 then police (3 * p + (cmdPort k s).num) (cmdCharge k) (cmdColour k.queue s) s else (false, s)
  | .pf _ => (false, s)

/-- The packet checks, in order: the opcode, where it is admitted, the packet's own fields (R53, R6, R50, R51); the parameters
with them where the packet carries them. -/
def packetStatus (k : Cmd) : Option Nat :=
  match admitOf k.opcode with
  | none => some stBadParam
  | some a =>
    if !admitted a k.queue then some stRefused
    else if badPacket k.packet || (!k.pptr && paramsBad k (k.packet.drop 40)) then some stBadParam
    else none

/-- A command taken from its ring that is no duplicate (R53, R60, R393, R397). DESIGN CHOICE (log 101): the policer meets it before
its packet is checked, so a command that fails both completes THROTTLED. -/
def admitCmd (k : Cmd) (s : State) : State :=
  let full := Config.dupCapacity ≤ (liveDups s).length
  let s := onHost (fun h => { h with cmds := h.cmds ++ [k] }) s
  if full then completeSt k.ref stThrottled s
  else
    let entry : Dup := { ref := k.ref, fetched := k.fetched, answer := none }
    let s := onHost (fun h => { h with dups := h.dups.filter (·.ref != k.ref) ++ [entry] }) s
    let (stop, s) := policeCmd k s
    if stop then completeSt k.ref stThrottled (forgetDup k.ref s)
    else match packetStatus k with
      | some st => completeSt k.ref st s
      | none => s

/-- The next submission entry fetched (R46, R47): a duplicate of a running command is dropped (R58), one of a completed
command is echoed (R59), anything else is admitted. -/
def fetchCmd (q : QRef) (packet : List Byte) (s : State) : State :=
  if packet.length = 64 ∧ mayFetch q s then
    let x := getQueue q s
    let head := (x.sqHead + 1) % 2 ^ x.sqLog2
    let s := onQueue q (fun x => { x with sqHead := head }) s
    let k := cmdOf q packet (timeUs s)
    match heldDup k.ref s with
    | some d =>
      match d.answer with
      | none => s
      | some a =>
        let s := onHost (fun h => { h with cmds := h.cmds ++ [{ k with phase := .finishing, committed := true }] }) s
        sendToHost k [.entry k.ref a true] (q.q == 16 || a.status == stAborted || a.status == stTimeout) s
    | none => admitCmd k s
  else s

/-- COMMAND_FETCH (R47). -/
def execCommandFetch (q : QRef) (packet : List Byte) (s : State) : Host.Outcome State Fault Refusal :=
  .next (fetchCmd q packet s)

/-- An entry past its retention leaves the duplicate table: completed, and 4 s after its fetch (R56). -/
def expireDup (c : CmdRef) (s : State) : State :=
  onHost (fun h => { h with dups := h.dups.filter fun d =>
    !(d.ref == c && d.answer.isSome && d.fetched + Config.dupHoldUs ≤ timeUs s) }) s

/-- DUP_ENTRY_EXPIRY (R56). -/
def execDupEntryExpiry (c : CmdRef) (now : Nat) (s : State) : Host.Outcome State Fault Refusal :=
  .next (expireDup c (atTime now s))

end Sys2Proof.Machine
end

