-- ==== Sys2Proof/Machine/Selection.lean ====
section
/-!
DEFINITION. SELECT_TOPK, SELECT_THRESHOLD and merging (chapter 5).
-/
namespace Sys2Proof.Machine

/-- The value of a key (R142, R144). -/
def keyValue (kt c : Nat) : Fv :=
  match kt with
  | 0 => fdecode fp32 c
  | 1 => fdecode fp16 c
  | 2 => fdecode bf16 c
  | 3 => intV (signed 32 c)
  | _ => intV (signed 16 c)

/-- Validity bit of a position (R146). -/
def validBit (row : List Byte) (n w pos : Nat) : Bool := bit ((row.getD (n * w + pos / 8) 0).toNat) (pos % 8)

/-- The valid entries of a row as (value, position) (R143, R144). -/
def validKeys (c : SelCmd) (row : List Byte) : List (Fv × Nat) :=
  let w := keyWidth c.keyType
  ((List.range c.n).map fun i => (keyValue c.keyType (field row (i * w) w), i)).filter fun e =>
    !e.1.isNan && (!c.validMap || validBit row c.n w e.2)

/-- The strict total order of R144: by value in the direction asked, the lower position on a tie. -/
def keyBetter (largest : Bool) (a b : Fv × Nat) : Bool :=
  let lt := if largest then fltV b.1 a.1 else fltV a.1 b.1
  let gt := if largest then fltV a.1 b.1 else fltV b.1 a.1
  lt || (!gt && a.2 < b.2)

/-- An entry of a merge (R154): ID, DISTANCE, EXACT, position. -/
structure MergeEnt where
  id : Nat
  dist : W32
  exact : Bool
  pos : Nat
deriving DecidableEq, Repr

/-- The entry at a position of a merge row (R154). -/
def mergeEnt (row : List Byte) (i : Nat) : MergeEnt where
  id := field row (16 * i) 8
  dist := BitVec.ofNat 32 (field row (16 * i + 8) 4)
  exact := bit (field row (16 * i + 12) 1) 0
  pos := i

/-- Whether a merge entry is valid (R154), its validity bit apart. -/
def mergeValid (e : MergeEnt) : Bool := e.id % 2 ^ 32 != 0xFFFFFFFF && !(f32v e.dist).isNan

/-- keep_over of R155. -/
def keepOver (a b : MergeEnt) : Bool :=
  if a.exact != b.exact then a.exact
  else if fltV (f32v a.dist) (f32v b.dist) then true
  else if fltV (f32v b.dist) (f32v a.dist) then false
  else a.pos < b.pos

/-- A valid entry put into the kept copies, one per ID (R155). -/
def mergeAdd (best : List MergeEnt) (e : MergeEnt) : List MergeEnt :=
  if best.any (·.id == e.id) then best.map fun b => if b.id == e.id && keepOver e b then e else b
  else best ++ [e]

/-- The kept copies in rank order (R155). -/
def mergeRank (es : List MergeEnt) : List MergeEnt :=
  sortBy (fun a b => keyBetter false (f32v a.dist, a.pos) (f32v b.dist, b.pos)) (es.foldl mergeAdd [])

/-- A result record of SELECT_TOPK or SELECT_THRESHOLD (R147). -/
def selRecord (k count status : Nat) (poss : List Nat) : List Byte :=
  let body := leBytes 4 count ++ leBytes 2 status ++ zeros 2
    ++ ((poss ++ List.replicate (k - poss.length) 0xFFFFFFFF).flatMap fun p => leBytes 4 p)
  body ++ zeros (selOutStride k - body.length)

/-- What a row gives: COUNT, ROW_STATUS, positions, and the copies a merge discarded. -/
structure RowOut where
  count : Nat
  status : Nat
  poss : List Nat
  dups : Nat
deriving DecidableEq, Repr

/-- A test of SELECT_THRESHOLD (R152). -/
def passes (op : Nat) (bound key : Fv) : Bool :=
  match op with
  | 0 => fltV key bound
  | 1 => !fltV bound key
  | 2 => fltV bound key
  | _ => !fltV key bound

/-- One row of a selection command (R148, R149, R153, R155). -/
def runRow (c : SelCmd) (row : List Byte) : RowOut :=
  if c.threshold then
    let pass := ((validKeys c row).filter fun e => passes c.op (keyValue c.keyType c.bound) e.1).map (·.2)
    { count := pass.length, status := if c.k < pass.length then stOverflow else stOk, poss := pass.take c.k, dups := 0 }
  else if c.merge then
    let es := ((List.range c.n).map (mergeEnt row)).filter fun e =>
      mergeValid e && (!c.validMap || validBit row c.n 16 e.pos)
    let ranked := mergeRank es
    let best := (ranked.take c.k).map (·.pos)
    { count := best.length, status := if best.length < c.k then stPartial else stOk, poss := best,
      dups := es.length - ranked.length }
  else
    let best := ((sortBy (keyBetter c.largest) (validKeys c row)).take c.k).map (·.2)
    { count := best.length, status := if best.length < c.k then stPartial else stOk, poss := best, dups := 0 }

/-- Whether a selector serves command rows (R137, R157). -/
def servesRows (n : Nat) (s : State) : Bool := n < 16 && (s.sel.share || n % 4 != 0) && !outOfService .selector n s

/-- Checks of SELECT_TOPK (R145, R157); its lengths are checked at fetch. DESIGN CHOICE (log 103): a parameter out of range answers
before the want of a selector. -/
def topkCheck (_k : Cmd) (ps _inp : List Byte) (s : State) : Verdict :=
  let n := field ps 0 4
  let rows := field ps 4 2
  let kk := field ps 6 2
  let kt := field ps 8 1
  let mode := field ps 9 1
  firstFail [
    (n < 1 || 1048576 < n || rows < 1 || 4096 < rows || kk < 1 || 4096 < kk || 4 < kt
      || (bit mode 1 && (kt != 0 || bit mode 0)), stBadParam),
    (!(List.range 16).any fun n => servesRows n s, stNoResource)]

/-- Checks of SELECT_THRESHOLD (R151, R157); its lengths are checked at fetch. DESIGN CHOICE (log 103): as SELECT_TOPK. -/
def thresholdCheck (_k : Cmd) (ps _inp : List Byte) (s : State) : Verdict :=
  let n := field ps 0 4
  let rows := field ps 4 2
  let kt := field ps 6 1
  let op := field ps 7 1
  let maxOut := field ps 12 4
  firstFail [
    (n < 1 || 1048576 < n || rows < 1 || 4096 < rows || 4 < kt || 3 < op || maxOut < 1 || 1048576 < maxOut
      || (keyWidth kt == 2 && !zeroField ps 18 2) || (keyValue kt (field ps 16 4)).isNan, stBadParam),
    (!(List.range 16).any fun n => servesRows n s, stNoResource)]

/-- A selection command begun: its rows queued, oldest first (R138). -/
def beginSelect (c : SelCmd) (s : State) : State :=
  let now := timeUs s
  let rows := (List.range c.rows).map fun r => ({ ref := c.ref, part := c.part, row := r, staged := now, layer := none } : SelRow)
  onSel (fun x => { x with cmds := x.cmds ++ [c], queue := x.queue ++ rows }) s

/-- SELECT_TOPK begun (R145). -/
def beginTopk (k : Cmd) (ps inp : List Byte) (s : State) : State :=
  beginSelect { ref := k.ref, part := cmdPart k, threshold := false, n := field ps 0 4, rows := field ps 4 2,
                k := field ps 6 2, keyType := field ps 8 1, largest := bit (field ps 9 1) 0,
                merge := bit (field ps 9 1) 1, validMap := bit (field ps 9 1) 2, op := 0, bound := 0, input := inp,
                recs := [], total := 0, flagged := false } s

/-- SELECT_THRESHOLD begun (R151). -/
def beginThreshold (k : Cmd) (ps inp : List Byte) (s : State) : State :=
  beginSelect { ref := k.ref, part := cmdPart k, threshold := true, n := field ps 0 4, rows := field ps 4 2,
                k := field ps 12 4, keyType := field ps 6 1, largest := false, merge := false,
                validMap := bit (field ps 8 1) 0, op := field ps 7 1, bound := field ps 16 4, input := inp,
                recs := [], total := 0, flagged := false } s

/-- Whether a selector works on a row of a command. -/
def SelWork.rowOf (c : CmdRef) : SelWork → Bool
  | .row r _ => r.ref == c
  | .search _ _ => false

/-- The rows of a command taken away, queued or running. -/
def dropRows (c : CmdRef) (s : State) : State :=
  onSel (fun x => { x with queue := x.queue.filter (·.ref != c), busy := x.busy.filter fun e => !e.2.rowOf c }) s

/-- A selection command and its rows taken away. -/
def dropSelect (c : CmdRef) (s : State) : State :=
  onSel (fun x => { x with cmds := x.cmds.filter (·.ref != c) }) (dropRows c s)

/-- The row a selector takes: the oldest of the next partition in round-robin order (R138). DESIGN CHOICE (log 116): all selectors
share one turn, which stands at partition 0 after reset. -/
def nextRow (s : State) : Option SelRow :=
  ((List.range 64).map fun i => (s.sel.turn + i) % 64).findSome? fun p => s.sel.queue.find? (·.part == p)

/-- Selector counters of a partition changed by `f` (R160). -/
def onSelCounts (p : Nat) (f : SelCounts → SelCounts) (s : State) : State :=
  onSel (fun x => { x with counts := smod selCountsReset x.counts p f }) s

/-- What a row of a selection command has done, counted (R160): `started` is when its selector took it. DESIGN CHOICE (log 117): a
row whose result write fails has run and counts. -/
def countSelRow (r : SelRow) (c : SelCmd) (started : Nat) (o : RowOut) (s : State) : State :=
  onSelCounts c.part (fun x => { x with
    rows := wrap64 (x.rows + 1), keys := wrap64 (x.keys + c.n)
    partials := wrap64 (x.partials + b2n (o.status == stPartial))
    overflow := wrap64 (x.overflow + b2n (o.status == stOverflow))
    dups := wrap64 (x.dups + o.dups), waitUs := wrap64 (x.waitUs + (started - r.staged)) }) s

/-- A row run: counted, its record written, and the command completed with its last row (R147, R150, R153, R157, R160). -/
def finishRow (r : SelRow) (c : SelCmd) (started : Nat) (resultOk : Bool) (s : State) : State :=
  let is := selInStride c.n (rowWidth c.merge c.keyType) c.validMap
  let o := runRow c ((c.input.drop (r.row * is)).take is)
  let rec1 := selRecord c.k o.count o.status o.poss
  let s := countSelRow r c started o s
  match findCmd c.ref s with
  | none => dropSelect c.ref s
  | some k =>
    let rs := selOutStride c.k
    if !resultOk then
      let e := mkRec 0x08 2 5 (locHost (cmdFn k s) (k.resultPtr + r.row * rs))
      let (s, seq, dropped) := fileErr (cmdRec k e) none false s
      let s := if dropped then s else onCmd c.ref (fun k => { k with errRec := true }) s
      completeWith c.ref (if dropped then stLostRecord else stUncorrectable) 0 seq (c.recs.length * rs) []
        (dropSelect c.ref s)
    else
      let s := sendToHost k (resultItems k (k.resultPtr + r.row * rs) rec1 s) false s
      let c := { c with recs := tput c.recs r.row rec1, total := c.total + o.count,
                        flagged := c.flagged || o.status != stOk }
      if c.recs.length = c.rows then
        let st := if c.flagged then if c.threshold then stOverflow else stPartial else stOk
        completeWith c.ref st c.total 0 (c.rows * rs) [] (dropSelect c.ref s)
      else onSel (fun x => { x with cmds := x.cmds.map fun y => if y.ref == c.ref then c else y }) s

/-- Whether a search selection waits for a selector, which it then has before any row (R137, R158). -/
def searchWaits (n : Nat) (s : State) : Bool :=
  s.srch.queries.any fun q => awaitsSelection q s && searchSelector q.walker s == some n

/-- A free command selector that is powered takes the next row (R23, R137, R138). -/
def takeRow (n : Nat) (s : State) : Option (SelRow × Nat × State) :=
  match tget? s.sel.busy n with
  | some (.row r t) => some (r, t, freeSel n s)
  | some (.search _ _) => none
  | none =>
    if !servesRows n s || searchWaits n s then none
    else (nextRow s).map fun r =>
      (r, timeUs s, onSel (fun x => { x with queue := x.queue.erase r, turn := (r.part + 1) % 64 }) s)

/-- A selector taken out of service: its row goes back to the head of the queue, from its staged input (R157). -/
def returnRow (n : Nat) (s : State) : State :=
  match tget? s.sel.busy n with
  | some (.row r _) => freeSel n (onSel (fun x => { x with queue := r :: x.queue }) s)
  | _ => freeSel n s

/-- SELECT_TOPK (R145). -/
def execSelectTopk (c : CmdRef) (d : CmdIn) (s : State) : Host.Outcome State Fault Refusal :=
  .next (beginWith 0x10 (fun _ => true) (fun k ps s => topkCheck k ps [] s) c d topkCheck beginTopk s)

/-- SELECT_THRESHOLD (R151). -/
def execSelectThreshold (c : CmdRef) (d : CmdIn) (s : State) : Host.Outcome State Fault Refusal :=
  .next (beginWith 0x11 (fun _ => true) (fun k ps s => thresholdCheck k ps [] s) c d thresholdCheck beginThreshold s)

end Sys2Proof.Machine
end

