-- ==== Sys2Proof/Machine/Composed.lean ====
section
/-!
DEFINITION. Searches and mutations as commands, alone or under an INDEX composition: composed searches, the sub-searches run
for other nodes, and their merge (R104, R131, R139, R156, R168–R176, R184, R369–R372, R397).
-/
namespace Sys2Proof.Machine

/-! Composed searches (R372). -/

/-- The composed search of a command. -/
def getCompSearch (c : CmdRef) (s : State) : Option CompSearch := s.fab.searches.find? (·.ref == c)

/-- The composed search of a command changed by `f`. -/
def onCompSearch (c : CmdRef) (f : CompSearch → CompSearch) (s : State) : State :=
  onFab (fun x => { x with searches := updWhere (·.ref == c) f x.searches }) s

/-- The composed search of a command forgotten. -/
def dropCompSearch (c : CmdRef) (s : State) : State :=
  onFab (fun x => { x with searches := x.searches.filter (·.ref != c) }) s

/-- Rank of a member's status among those that end a composed search (R372, R397); any failure the manual does not rank
comes last (DESIGN CHOICE, entry 40). -/
def statusRank (st : Nat) : Nat :=
  if st = stTimeout then 0 else if st = stNotOwner then 1 else if st = stRedirect then 2 else if st = stThrottled then 3
  else 4

/-- The worse of two answers by rank; the first on a tie. -/
def worseOf (a : Option (Nat × Nat)) (b : Nat × Nat) : Nat × Nat :=
  match a with
  | none => b
  | some x => if statusRank b.1 < statusRank x.1 then b else x

/-- Whether a member's answer carries results. -/
def answersWell (st : Nat) : Bool := st == stOk || st == stPartial || st == stOverflow

/-- The merged results of a composed search: the kept entries, and the copies the merge discarded (R154–R156). DESIGN CHOICE (log 121):
the lists of the members stand one after the other by slot, lowest first, and that order decides a tie. -/
def mergeAnswers (x : CompSearch) : List (List Byte) × Nat :=
  let row := (sortBy (fun a b : Nat × List Byte => a.1 < b.1) x.answers).flatMap (·.2)
  let es := ((List.range (row.length / 16)).map (mergeEnt row)).filter mergeValid
  let ranked := mergeRank es
  ((ranked.take x.k).map fun e => (row.drop (16 * e.pos)).take 16, es.length - ranked.length)

/-- Whether the members of a composed search have all answered. -/
def CompSearch.answered (x : CompSearch) : Bool := x.awaits.isEmpty && !x.own

/-- The merge of a composed search run, and its command completed (R156, R372 steps 4 and 5). -/
def mergeSearch (x : CompSearch) (s : State) : State :=
  let (best, dups) := mergeAnswers x
  let s := onSelCounts x.part (fun n => { n with dups := wrap64 (n.dups + dups) }) (dropCompSearch x.ref s)
  let result := (best ++ List.replicate (x.k - best.length) emptyEntry).flatten ++ x.stats
  finish x.ref x.resultOk (if best.length = x.k then stOk else stPartial) best.length x.csn result s

/-- A composed search whose members have all answered completes (R372 steps 3 to 5); its merge waits for a search selector that is
powered and free (R23, R137, R156). -/
def settleSearch (c : CmdRef) (s : State) : State :=
  match getCompSearch c s with
  | none => s
  | some x =>
    if !x.answered then s
    else match x.worst with
      | some (st, detail) => complete c st 0 detail [] (dropCompSearch c s)
      | none =>
        match searchSelector 0 s with
        | none => completeSt c stNoResource (dropCompSearch c s)
        | some n => if !unitAwake .selector n s || (tget? s.sel.busy n).isSome then s else mergeSearch x s

/-- Whether a composed search waits for a selector to merge its answers. -/
def mergeWaits (n : Nat) (s : State) : Bool :=
  searchSelector 0 s == some n && s.fab.searches.any fun x => x.answered && x.worst.isNone

/-- The answer of a slot taken into a composed search. -/
def noteAnswerOf (c : CmdRef) (slot st detail : Nat) (result : List Byte) (s : State) : State :=
  let set : CompSearch → CompSearch := fun x =>
    if answersWell st then { x with answers := tput x.answers slot (result.take (16 * x.k)) }
    else { x with worst := some (worseOf x.worst (st, detail)) }
  onCompSearch c set s

/-- This node's own slot has answered (R372): its snapshot CSN and statistics are the command's. -/
def ownAnswer (a : FabricAns) (s : State) : State :=
  let own : CompSearch → CompSearch := fun x => { x with own := false, csn := a.detail, stats := a.result.drop (16 * x.k) }
  settleSearch a.ref (noteAnswerOf a.ref (((getCompSearch a.ref s).map (·.slot)).getD 0) a.status a.detail a.result
    (onCompSearch a.ref own s))

/-- The 32-byte status entry of a SEARCH_RSP (R54, R360). -/
def subEntry (rid : Nat) (a : FabricAns) : List Byte :=
  entryBytes rid a.status 0 a.count 0 a.detail a.result.length 0 0 0

/-- The answer of a sub-search sent (R372 step 2). -/
def subAnswer (x : SubSearch) (a : FabricAns) (s : State) : State :=
  let s := onFab (fun y => { y with subs := y.subs.filter (·.ref != a.ref) }) s
  respond x.msg a.status x.msg.epoch x.msg.slot x.msg.seq (subEntry (field x.msg.body 4 4) a ++ a.result) s

/-- An answer delivered. -/
def giveAnswer (s : State) (a : FabricAns) : State :=
  match s.fab.subs.find? (·.ref == a.ref) with
  | some x => subAnswer x a s
  | none => ownAnswer a s

/-- The answers of searches handed to the fabric. -/
def pump (s : State) : State :=
  let as := s.host.fabricAns
  as.foldl giveAnswer (onHost (fun h => { h with fabricAns := [] }) s)

/-- The body of a SEARCH_SUB (R360): the packet with its pointers zeroed and its parameters in it, then the input. -/
def subBody (k : Cmd) (ps inp : List Byte) : List Byte :=
  let flags := field k.packet 1 1
  (k.packet.take 1 ++ leBytes 1 (flags / 2 * 2) ++ (k.packet.drop 2).take 14 ++ zeros 16 ++ (k.packet.drop 32).take 8
    ++ fit 24 ps) ++ inp

/-- A composed search begun (R372 step 1): SEARCH_SUB to every other member, and this node's own slot as an ordinary
search. -/
def beginComposed (op id : Nat) (members : List (Nat × Nat)) (resultOk : Bool) (k : Cmd) (ps inp : List Byte) (s : State) :
    State :=
  let me := ownSlot members s
  let others := members.zipIdx.filter fun m => m.2 != me
  let x : CompSearch := {
    ref := k.ref, comp := id, part := cmdPart k, k := field ps 2 2, slot := me, own := true, awaits := others.map (·.2)
    answers := [], worst := none, csn := 0, stats := [], resultOk := resultOk }
  let s := onFab (fun y => { y with searches := y.searches ++ [x] }) s
  let s := others.foldl (fun s m =>
    sendReq (cmdPart k) (mkMsg m.1.1 m.1.2 0x01 id k.epoch m.2 0 (subBody k ps inp)) (.command k.ref) [] s) s
  enterAdmission op k ps inp s

/-- The slots other than this node's own of the composition a command names. -/
def otherSlots (kind : Nat) (k : Cmd) (s : State) : List Nat :=
  match compFor kind k.handle s with
  | none => []
  | some e => (List.range e.2.members.length).filter (· != ownSlot e.2.members s)

/-- The checks of a search, its own node's first, then the composition's (R368, R381, R382, R554). -/
def searchGate (op : Nat) (k : Cmd) (ps inp : List Byte) (s : State) : Verdict :=
  (searchCheck op k ps inp s).andThen (match cmdGate 0 (otherSlots 0 k s) k s with
    | .stop v => v
    | .alone => .go
    | .composed _ _ => .go)

/-- A search begun, alone or composed (R104, R371, R372). -/
def beginSearch (op : Nat) (resultOk : Bool) (k : Cmd) (ps inp : List Byte) (s : State) : State :=
  match cmdGate 0 [] k s with
  | .composed id members => beginComposed op id members resultOk k ps inp s
  | _ => enterAdmission op k ps inp s

/-- SEARCH (R104, R131). -/
def execSearch (c : CmdRef) (d : CmdIn) (s : State) : Host.Outcome State Fault Refusal :=
  .next (beginWith 0x01 (fun _ => true) (searchEarly 1) c d (searchGate 1) (beginSearch 1 d.resultOk) s)

/-- SEARCH_FILTERED (R116, R131). -/
def execSearchFiltered (c : CmdRef) (d : CmdIn) (s : State) : Host.Outcome State Fault Refusal :=
  .next (beginWith 0x02 (fun _ => true) (searchEarly 2) c d (searchGate 2) (beginSearch 2 d.resultOk) s)

/-- RANGE (R131, R132). -/
def execRange (c : CmdRef) (d : CmdIn) (s : State) : Host.Outcome State Fault Refusal :=
  .next (beginWith 0x03 (fun _ => true) (searchEarly 3) c d (searchGate 3) (beginSearch 3 d.resultOk) s)

/-! Sub-searches for other nodes (R365, R372). -/

/-- The command that stands for a request of another node: its packet under this node's handle. -/
def subCmd (m : Msg) (c : Comp) (rid now : Nat) : Cmd :=
  let k := cmdOf { scope := .part c.part, q := 16 } (m.body.take 64) now
  { k with ref := { scope := .part c.part, rid := rid }, handle := c.handle, epoch := m.epoch, phase := .running,
           remote := true, deadline := 0 }

/-- A sub-search begun on this node's shard (R372 step 2), or answered with the status of the check it fails. -/
def runSub (m : Msg) (c : Comp) (s : State) : State :=
  let rid := 2 ^ 32 + s.fab.nextRemote
  let k := subCmd m c rid (timeUs s)
  let ps := k.packet.drop 40
  let inp := m.body.drop 64
  let s := onFab (fun x => { x with nextRemote := x.nextRemote + 1, subs := x.subs ++ [{ ref := k.ref, msg := m }] }) s
  let s := onHost (fun h => { h with cmds := h.cmds ++ [k] }) s
  match (if k.opcode ∈ [1, 2, 3] then searchCheck k.opcode k ps inp s else .fail stBadParam 0) with
  | .fail st detail => pump (complete k.ref st 0 detail [] s)
  | _ => enterAdmission k.opcode k ps inp s

/-- SEARCH_SUB (R372). -/
def execSearchSub (src msg : Nat) (s : State) : Host.Outcome State Fault Refusal :=
  .next (handleReq 0x01 0 src msg runSub s)

/-- DETAIL that a fabric answer gives its command (R369). -/
def answerDetail (m : Msg) (own : Nat) : Nat := if m.status = stRedirect then redirectDetail m.epoch m.seq m.slot else own

/-- A member's answer taken (R372 step 3). -/
def takeSearchRsp (r : Req) (m : Msg) (s : State) : State :=
  match r.waiter with
  | .handoff _ _ => s
  | .command c =>
    let done : CompSearch → CompSearch := fun x => { x with awaits := x.awaits.erase r.msg.slot }
    settleSearch c (noteAnswerOf c r.msg.slot m.status (answerDetail m (field m.body 16 8)) (m.body.drop 32)
      (onCompSearch c done s))

/-- SEARCH_RSP (R364, R372). -/
def execSearchRsp (src msg : Nat) (s : State) : Host.Outcome State Fault Refusal :=
  .next (handleRsp 0x02 src msg takeSearchRsp s)

/-- A composed search ended without its results: its own query, its requests and its record go (R365). -/
def endComposed (c : CmdRef) (s : State) : State :=
  if (getCompSearch c s).isSome then dropCompSearch c (cancelReqs c (dropQuery c s)) else s

/-- A composed search ended with a status (R362, R381). -/
def failComposed (c : CmdRef) (st : Nat) (s : State) : State :=
  if (getCompSearch c s).isSome then completeSt c st (endComposed c s) else s

/-- CANCEL (R365): a request not started is discarded, one that has started runs on. -/
def cancelRequest (m : Msg) (s : State) : State :=
  let mine : Msg → Bool := fun x => x.src == m.src && x.reqId == m.reqId
  let s := onFab (fun x => { x with held := x.held.filter fun h => !mine h.1 }) s
  match s.fab.subs.find? fun x => mine x.msg with
  | none => s
  | some x =>
    if (getQuery x.ref s).any (·.admittedIn) then s
    else
      let s := dropQuery x.ref s
      let s := onHost (fun h => { h with cmds := dropFirst x.ref h.cmds }) s
      onFab (fun y => { y with subs := y.subs.filter (·.ref != x.ref) }) s

/-- CANCEL (R365). -/
def execCancelRequest (src msg : Nat) (s : State) : Host.Outcome State Fault Refusal :=
  .next (handleCtrl 0x2C src msg cancelRequest s)

/-! Rows of the pipeline that may end a search. -/

/-- QUERY_ADMISSION (R104, R105). -/
def execQueryAdmission (p : Nat) (now : Nat) (s : State) : Host.Outcome State Fault Refusal :=
  .next (pump (admitQuery p (atTime now s)))

/-- WALK_STEP (R111, R115, R126). -/
def execWalkStep (c : CmdRef) (now : Nat) (mid : Bool) (ecc : EccOutcome) (place : MemPlace) (s : State) :
    Host.Outcome State Fault Refusal :=
  .next (pump (walkStep c mid ecc place (atTime now s)))

/-- CRATE_READ_COMPLETE (R87, R90). -/
def execCrateReadComplete (handle crate : Nat) (checksOk : Bool) (s : State) : Host.Outcome State Fault Refusal :=
  .next (pump (crateArrives handle crate checksOk s))

/-- RERANK_READ_COMPLETE (R124). -/
def execRerankReadComplete (c : CmdRef) (i : Nat) (s : State) : Host.Outcome State Fault Refusal :=
  .next (pump (rerankArrives c i s))

/-- SEARCH_SELECTION (R139): the selection of a query, or the merge of a composed search that waits for its selector. -/
def execSearchSelection (c : CmdRef) (mid resultOk : Bool) (s : State) : Host.Outcome State Fault Refusal :=
  .next (pump (selectSearch c mid resultOk (settleSearch c s)))

/-! Mutations (R168–R176, R184, R369, R372). -/

/-- The checks of a mutation, with the composition's (R368, R381); a vector of another node redirects, under the epoch of
the composition when one is named (R369). While the media is READ_ONLY, writes complete with NO_RESOURCE (R443). -/
def mutGate (check : Cmd → List Byte → List Byte → State → Verdict) (k : Cmd) (ps inp : List Byte) (s : State) : Verdict :=
  match check k ps inp s, cmdGate 0 [] k s with
  | .fail st detail, .composed id members =>
    if st = stRedirect then
      let node := detail / 2 ^ 32 % 2 ^ 16
      .fail stRedirect (redirectDetail (((getComp id s).map (·.epoch)).getD 0) node
        ((members.findIdx? (·.1 == node)).getD 0))
    else .fail st detail
  | .go, .stop v => v
  | .go, _ => if medReadOnly s then .fail stNoResource 0 else .go
  | v, _ => v

/-- INSERT (R168–R173). -/
def execInsert (c : CmdRef) (d : CmdIn) (s : State) : Host.Outcome State Fault Refusal :=
  .next (begin 0x08 (fun _ => true) c d (mutGate (insertCheck false)) (beginInsert false d) s)

/-- DELETE (R176). -/
def execDelete (c : CmdRef) (d : CmdIn) (s : State) : Host.Outcome State Fault Refusal :=
  .next (begin 0x09 (fun _ => true) c d (mutGate deleteCheck) beginDelete s)

/-- UPSERT (R174). -/
def execUpsert (c : CmdRef) (d : CmdIn) (s : State) : Host.Outcome State Fault Refusal :=
  .next (begin 0x0A (fun _ => true) c d (mutGate (insertCheck true)) (beginInsert true d) s)

/-- SWAP_GENERATION (R184, R185). -/
def execSwapGeneration (c : CmdRef) (d : CmdIn) (s : State) : Host.Outcome State Fault Refusal :=
  .next (begin 0x0B (fun _ => true) c d (mutGate swapCheck) beginSwap s)

/-- INDEX_MOUNT (R101). -/
def execIndexMount (handle : Nat) (s : State) : Host.Outcome State Fault Refusal := .next (indexMount handle s)

end Sys2Proof.Machine
end

