-- ==== Sys2Proof/Machine/TileMath.lean ====
section
/-!
DEFINITION. What a tile computes: MMA, EPI and VEC on its SRAM and accumulators, with the monitor's statistics (R246–R250, R256,
R265, R271, R272).
-/
namespace Sys2Proof.Machine

/-- What the instructions of a step take from its layer: the descriptor, the input's format and scale byte, the input, the
scales the step started with, and the output tensor scale (R252, R255, R271). -/
structure LayerCtx where
  q : QDesc
  aFmt : Nat
  aScale : Nat
  input : Act
  scales : List Nat
  oTscale : Nat

/-- Bytes of a tile's SRAM (R264). -/
def sramBytes : Nat := 1048576

/-- A scalar register; S0 reads as zero (R267). -/
def sreg (w : TileWork) (r : Nat) : Nat := if r = 0 then 0 else (w.s.getD r 0#32).toNat

/-- A scalar register written; S0 discards it (R267). -/
def setSreg (r v : Nat) (w : TileWork) : TileWork :=
  if r = 0 then w else { w with s := updAt (fun _ => BitVec.ofNat 32 v) r w.s }

/-- Whether two byte ranges overlap. -/
def rangesMeet (a n b m : Nat) : Bool := a < b + m && b < a + n

/-- The FP32 values noted within a byte range taken away. -/
def dropGhost (a n : Nat) (g : Table W32) : Table W32 := g.filter fun e => !(8 * a ≤ e.1 && e.1 < 8 * (a + n))

/-- Bytes written to SRAM; transfers they overwrite are no longer intact (R275). -/
def putSram (a : Nat) (bs : List Byte) (w : TileWork) : TileWork :=
  { w with sram := writeBytes w.sram a bs, ghost := dropGhost a bs.length w.ghost,
           resident := w.resident.filter fun x => !rangesMeet (64 * x.saddr) (64 * x.len) a bs.length }

/-- FP32 values noted at their places in a packed row. -/
def noteGhost (a width : Nat) (ys : List W32) (w : TileWork) : TileWork :=
  { w with ghost := ys.zipIdx.foldl (fun g y => tput g (8 * a + width * y.2) y.1) w.ghost }

/-! MMA (R246, R247, R265, R271). -/

/-- The common group size of a layer's operands (R246). -/
def commonGroup (q : QDesc) (aScale : Nat) : Nat :=
  if groupSize q.wScale != 0 then groupSize q.wScale else if groupSize aScale != 0 then groupSize aScale else 32

/-- A block partial: exact for narrow operands; with a 16-bit operand each product and sum rounds to FP32 (R246). -/
def blockPartial (wide : Bool) (ws xs : List Fv) : Fv :=
  (List.zipWith fmulX ws xs).foldl (fun p t =>
    if wide then fdecode fp32 (fencode fp32 (faddX p (fdecode fp32 (fencode fp32 t)))) else faddX p t) (.fin false 0 0)

/-- The values of a tile operand (R238, R240); a CB4 element is an index, which `cbValues` decodes. -/
def elemValues (fmt : Nat) (bs : List Byte) (lo n : Nat) : List Fv :=
  (List.range n).map fun i => fmtValue fmt (elemAt bs (fmtWidth fmt) (lo + i))

/-- The integers of an operand (R240). -/
def elemInts (fmt : Nat) (bs : List Byte) (lo n : Nat) : List Int :=
  (List.range n).map fun i => signed (fmtWidth fmt) (elemAt bs (fmtWidth fmt) (lo + i))

/-- A scale byte in SRAM (R271), 1 with GROUP NONE. -/
def sramScale (sc : Nat) (w : TileWork) (a : Nat) : Fv :=
  if groupSize sc = 0 then fvOne else groupScale sc (readByte w.sram a).toNat

/-- The values of CB4 elements: each is the entry that it selects in the codebook of its group (R240, R244), which stands in SRAM at
byte `cb`. -/
def cbValues (w : TileWork) (cb : Nat) (bs : List Byte) (lo n : Nat) : List Fv :=
  (List.range n).map fun i => fdecode e4m3 (readByte w.sram ((cb + elemAt bs 4 (lo + i)) % sramBytes)).toNat

/-- One group of an MMA added into an FP32 accumulator (R246). -/
def addGroup32 (acc : W32) (p sw sa : Fv) : W32 := f32add acc (f32r (fmulX (fmulX p sw) sa))

/-- One group of an MMA added into an INT32 accumulator, and whether it saturated (R247). -/
def addGroupInt (acc : W32 × Nat) (p : Int) : W32 × Nat :=
  let i := signed 32 acc.1.toNat + p
  (BitVec.ofNat 32 (twos 32 (max (-2147483648) (min 2147483647 i))),
    acc.2 + b2n (i < -2147483648 || 2147483647 < i))

/-- Operands of an MMA. -/
structure Mma where
  waddr : Nat
  aaddr : Nat
  rows : Nat
  acc : Nat
  kb : Nat
  zero : Bool

/-- Lane `j` of accumulator row `r` after an MMA, and its saturations. DESIGN CHOICE (log 52): the codebooks of a CB4 block, whose place
in SRAM is free, lie there as the group scales do at S14, 16 entries for each. -/
def mmaLane (x : LayerCtx) (o : Mma) (w : TileWork) (int : Bool) (r j : Nat) (old : W32) : W32 × Nat :=
  let g := commonGroup x.q x.aScale
  let ww := fmtWidth x.q.wFmt
  let wa := fmtWidth x.aFmt
  let wide := ww == 16 || wa == 16
  let start : W32 × Nat := (if o.zero then 0#32 else old, 0)
  (List.range o.kb).foldl (fun acc b =>
    let wb := readBytes w.sram (64 * o.waddr + b * wBlockBytes ww + j * 16 * ww) (16 * ww)
    let ab := readBytes w.sram (64 * o.aaddr + (b * o.rows + r) * aBlockBytes wa) (16 * wa)
    (List.range (128 / g)).foldl (fun acc k =>
      if int then
        let ps := List.zipWith (· * ·) (elemInts x.q.wFmt wb (k * g) g) (elemInts x.aFmt ab (k * g) g)
        addGroupInt acc (ps.foldl (· + ·) 0)
      else
        let group := (b * 64 + j) * (128 / g) + k
        let cb := Config.codebookAt (BitVec.ofNat 32 (sreg w 14)) + 16 * group
        let ws := if x.q.wFmt = 14 then cbValues w cb wb (k * g) g else elemValues x.q.wFmt wb (k * g) g
        let p := blockPartial wide ws (elemValues x.aFmt ab (k * g) g)
        let sw := sramScale x.q.wScale w (64 * sreg w 14 + group)
        let sa := sramScale x.aScale w (64 * sreg w 15 + b * (128 / g) + k)
        (addGroup32 acc.1 p sw sa, acc.2)) acc) start

/-- Whether the scales an MMA reads lie in SRAM (R274). -/
def mmaFits (x : LayerCtx) (o : Mma) (w : TileWork) : Bool :=
  let g := commonGroup x.q x.aScale
  (groupSize x.q.wScale == 0 || 64 * sreg w 14 + o.kb * 64 * (128 / g) ≤ sramBytes)
    && (groupSize x.aScale == 0 || 64 * sreg w 15 + o.kb * (128 / g) ≤ sramBytes)
    && 64 * o.waddr + o.kb * wBlockBytes (fmtWidth x.q.wFmt) ≤ sramBytes
    && 64 * o.aaddr + o.kb * o.rows * aBlockBytes (fmtWidth x.aFmt) ≤ sramBytes

/-- An accumulator row (R264). -/
def accRow (w : TileWork) (r : Nat) : List W32 := (tget? w.acc r).getD (List.replicate 64 0#32)

/-- MMA (R271): the tile and the saturations. -/
def mma (x : LayerCtx) (o : Mma) (int : Bool) (w : TileWork) : TileWork × Nat :=
  (List.range o.rows).foldl (fun (acc : TileWork × Nat) r =>
    let lanes := (accRow w (o.acc + r)).zipIdx.map fun y => mmaLane x o w int r y.2 y.1
    ({ acc.1 with acc := tput acc.1.acc (o.acc + r) (lanes.map (·.1)) }, acc.2 + sumNat (lanes.map (·.2)))) (w, 0)

/-! Output (R248–R250, R256, R272). -/

/-- The scale of a channel's output (R249). -/
def outScale (x : LayerCtx) (ch : Nat) : Fv :=
  let g := groupSize x.q.oScale
  fmulX (scaleAt x.q.oScale x.scales (if g = 0 then 0 else ch / g)) (fdecode fp32 x.oTscale)

/-- An output value narrowed (R249, R250); an FP32 output stays. -/
def narrowAt (x : LayerCtx) (ch : Nat) (y : W32) : Narrowed :=
  if x.q.oFmt = 0 then { code := y.toNat, clipped := false, nonfinite := false }
  else narrow x.q.oFmt (!x.q.priv.contains ch) (f32v y) (outScale x ch)

/-- Bits of one output element. -/
def outWidth (x : LayerCtx) : Nat := fmtWidth x.q.oFmt

/-- The monitor's statistics after one narrowing (R256). -/
def countOut (x : LayerCtx) (ch : Nat) (y : W32) (n : Narrowed) (st : Step) : Step :=
  if x.q.monitor = 0 ∨ x.q.cOut ≤ ch then st
  else
    let g := ch / groupSize x.q.oScale
    let st := { st with nonfinite := st.nonfinite + b2n n.nonfinite }
    let st := if n.clipped then { st with clipped := updAt (· + 1) g st.clipped } else st
    if (f32v y).isFin then { st with amax := updAt (fun a => max a (y.toNat % 2 ^ 31)) g st.amax } else st

/-- A row of outputs from channel `ch` on, narrowed, noted and written packed at a byte address. -/
def putOutRow (x : LayerCtx) (a ch : Nat) (ys : List W32) (p : TileWork × Step) : TileWork × Step :=
  let ns := ys.zipIdx.map fun y => narrowAt x (ch + y.2) y.1
  let wo := outWidth x
  let w := putSram a (packElems wo (ys.length * wo / 8) (ns.map (·.code))) p.1
  let w := if x.q.monitor = 3 then noteGhost a wo ys w else w
  (w, ((ys.zip ns).zipIdx).foldl (fun st e => countOut x (ch + e.2) e.1.1 e.1.2 st) p.2)

/-- An FP32 row as bytes. -/
def f32Bytes (ys : List W32) : List Byte := ys.flatMap fun y => leBytes 4 y.toNat

/-- An FP32 row of SRAM. -/
def f32Row (w : TileWork) (a n : Nat) : List W32 := (List.range n).map fun i => BitVec.ofNat 32 (readLe w.sram (a + 4 * i) 4)

/-- y of R248: the accumulator times both tensor scales, rounded once; an INT32 accumulator converts first (R247). -/
def outValue (x : LayerCtx) (int : Bool) (acc : W32) : W32 :=
  let v := if int then fdecode fp32 (fencode fp32 (intV (signed 32 acc.toNat))) else f32v acc
  f32r (fmulX v (fmulX (fdecode fp32 x.q.wTscale) (fdecode fp32 x.input.tscale)))

/-- Operands of an EPI. -/
structure Epi where
  oaddr : Nat
  rows : Nat
  acc : Nat
  fn : Nat
  bias : Bool
  baddr : Nat
  raw : Bool

/-- EPI (R272). -/
def epi (x : LayerCtx) (o : Epi) (int : Bool) (w : TileWork) (st : Step) : TileWork × Step :=
  let ch := sreg w 13
  let biases := f32Row w (64 * o.baddr) 64
  (List.range o.rows).foldl (fun p r =>
    let ys := (accRow w (o.acc + r)).zipIdx.map fun a =>
      let y := outValue x int a.1
      epiFn o.fn (if o.bias then f32add y (biases.getD a.2 0#32) else y)
    if o.raw then (putSram (64 * o.oaddr + 256 * r) (f32Bytes ys) p.1, p.2)
    else putOutRow x (64 * o.oaddr + r * (8 * outWidth x)) ch ys p) (w, st)

/-- Operands of a VEC. -/
structure Vec where
  daddr : Nat
  xaddr : Nat
  yaddr : Nat
  fn : Nat

/-- Bytes of a packed row of a VEC that narrows or widens. -/
def vecPacked (width n : Nat) : Nat := n * width / 8

/-- Whether the lengths and ranges of a VEC are in order (R272, R274). -/
def vecFits (x : LayerCtx) (o : Vec) (w : TileWork) : Bool :=
  let m := sreg w 11
  let n := sreg w 12
  let f32 := m * (4 * n)
  let xs := if o.fn = 6 then m * vecPacked (fmtWidth x.aFmt) n else f32
  let ys := if o.fn < 2 then f32 else if o.fn = 3 ∨ o.fn = 4 then 4 * n else 0
  let ds := if o.fn = 5 then m * vecPacked (outWidth x) n else f32
  n % 64 == 0 && 64 ≤ n && n ≤ 65536 && 64 * o.xaddr + xs ≤ sramBytes && 64 * o.yaddr + ys ≤ sramBytes
    && 64 * o.daddr + ds ≤ sramBytes

/-- A row of A_FMT widened with the input scales (R251, R272). -/
def widenRow (x : LayerCtx) (bs : List Byte) (n : Nat) : List W32 :=
  let g := groupSize x.input.scale
  (List.range n).map fun i =>
    let s := scaleAt x.input.scale x.input.scales (if g = 0 then 0 else i / g)
    f32r (fmulX (fmulX (fmtValue x.aFmt (elemAt bs (fmtWidth x.aFmt) i)) s) (fdecode fp32 x.input.tscale))

/-- n as FP32. -/
def f32nat (n : Nat) : W32 := f32r (intV n)

/-- The greatest of a row, NaN apart. -/
def rowMax (xs : List W32) : W32 := xs.foldl (fun a x => if f32lt a x then x else a) 0xFF800000#32

/-- Softmax of a row (R272): exponentials of the distances to the greatest element over their sum. DEDUCED (log 120): the order of the
operations, each of them rounded to FP32. -/
def softmaxRow (xs : List W32) : List W32 :=
  let top := rowMax xs
  let es := xs.map fun x => let d := f32sub x top; transcend 6 d (expFv (f32v d))
  let sum := laneSum es
  es.map fun e => f32div e sum

/-- A row over the root of its mean square and epsilon, times its gain: the order of the operations as log 120 has it. -/
def scaleRow (xs gain : List W32) (eps : W32) : List W32 :=
  let mean := f32div (laneSum (List.zipWith f32mul xs xs)) (f32nat xs.length)
  let root := f32sqrt (f32add mean eps)
  List.zipWith f32mul (xs.map fun x => f32div x root) gain

/-- RMS normalisation of a row (R272). -/
def rmsRow (xs gain : List W32) (eps : W32) : List W32 := scaleRow xs gain eps

/-- Layer normalisation of a row (R272): its mean taken off first. -/
def layerRow (xs gain : List W32) (eps : W32) : List W32 :=
  let mean := f32div (laneSum xs) (f32nat xs.length)
  scaleRow (xs.map fun x => f32sub x mean) gain eps

/-- One row of a VEC (R272). -/
def vecRow (x : LayerCtx) (o : Vec) (w0 : TileWork) (p : TileWork × Step) (r : Nat) : TileWork × Step :=
  let n := sreg w0 12
  let xa := 64 * o.xaddr + r * (4 * n)
  let d := 64 * o.daddr + r * (4 * n)
  if o.fn = 6 then
    let pk := vecPacked (fmtWidth x.aFmt) n
    (putSram d (f32Bytes (widenRow x (readBytes w0.sram (64 * o.xaddr + r * pk) pk) n)) p.1, p.2)
  else
    let xs := f32Row w0 xa n
    if o.fn = 5 then putOutRow x (64 * o.daddr + r * vecPacked (outWidth x) n) (sreg w0 13) xs p
    else
      let ys := f32Row w0 (64 * o.yaddr + if o.fn < 2 then r * (4 * n) else 0) n
      let out := match o.fn with
        | 0 => List.zipWith f32add xs ys
        | 1 => List.zipWith f32mul xs ys
        | 2 => softmaxRow xs
        | 3 => rmsRow xs ys (BitVec.ofNat 32 (sreg w0 10))
        | _ => layerRow xs ys (BitVec.ofNat 32 (sreg w0 10))
      (putSram d (f32Bytes out) p.1, p.2)

/-- VEC (R272). -/
def vec (x : LayerCtx) (o : Vec) (w : TileWork) (st : Step) : TileWork × Step :=
  (List.range (sreg w 11)).foldl (vecRow x o w) (w, st)

/-! STALL layers and the rows of SELECT layers (R278, R286, R287). -/

/-- One output of a STALL layer (R287): weights unpacked into the lane type, products in FP32, summed in lanes and tree. -/
def stallOut (x : LayerCtx) (weights gscales : List Byte) (act : List Nat) (bias : Option W32) : W32 :=
  let lt := if x.aFmt = 1 then 0 else 1
  let g := groupSize x.q.wScale
  let terms := act.zipIdx.map fun a =>
    let s := groupScale x.q.wScale (field gscales (a.2 / g) 1)
    let v := fmulX (fmtValue x.q.wFmt (elemAt weights (fmtWidth x.q.wFmt) a.2)) s
    let lane := (laneNarrow lt false v).getD 0
    f32r (fmulX (fdecode (laneFmt lt) lane) (fdecode (laneFmt lt) a.1))
  let y := outValue x false (laneSum terms)
  match bias with
  | none => y
  | some b => f32add y b

/-- The rows of a STALL layer narrowed into its output buffer, with their statistics (R287). -/
def stallStep (m : Model) (l : Layer) (x : LayerCtx) (st : Step) : Step :=
  let rb := rowBytes x.q.k (fmtWidth x.q.wFmt)
  let gpr := if groupSize x.q.wScale = 0 then 0 else x.q.k / groupSize x.q.wScale
  let wo := outWidth x
  let orb := rowBytes x.q.cOut wo
  (List.range x.input.rows).foldl (fun st r =>
    let row := actRow x.input r
    let act := (List.range x.q.k).map fun i => elemAt row (fmtWidth x.aFmt) i
    let ys := (List.range x.q.cOut).map fun c =>
      stallOut x (readBytes m.image (l.weights + c * rb) rb) (readBytes m.image (l.gscales + c * gpr) gpr) act
        (if l.aux = 0 then none else some (BitVec.ofNat 32 (imgField m (l.aux + 4 * c) 4)))
    let ns := ys.zipIdx.map fun y => narrowAt x y.2 y.1
    let st := ((ys.zip ns).zipIdx).foldl (fun st e => countOut x e.2 e.1.1 e.1.2 st) st
    let ghost := if x.q.monitor = 3 then
        ys.zipIdx.foldl (fun g y => tput g (8 * (r * orb) + wo * y.2) y.1) st.ghost else st.ghost
    { st with out := writeBytes st.out (r * orb) (packElems wo (x.q.cOut * wo / 8) (ns.map (·.code))), ghost := ghost }) st

/-- The record of one row of a SELECT layer (R144, R147, R278). -/
def pickRow (a : Act) (selK r : Nat) : List Byte :=
  let c : SelCmd := { ref := { scope := .part 0, rid := 0 }, part := 0, threshold := false, n := a.width, rows := a.rows,
                      k := selK, keyType := a.fmt, largest := true, merge := false, validMap := false, op := 0, bound := 0,
                      input := [], recs := [], total := 0, flagged := false }
  let o := runRow c (actRow a r)
  selRecord selK o.count o.status o.poss

end Sys2Proof.Machine
end

