-- ==== Sys2Proof/Machine/Tiles.lean ====
section
/-!
DEFINITION. Steps on tiles: their start and end, the tile instructions, DMA, barriers, pre-emption, adaptation and re-runs
(R255–R261, R268–R275, R283).
-/
namespace Sys2Proof.Machine

/-! Steps (R255, R269, R283). -/

/-- The output of a running step as far as it is written (R283). -/
def partialOut (m : Model) (rows : Nat) (st : Step) : Act :=
  let q := qdescAt m st.layer
  { fmt := q.oFmt, scale := q.oScale, rows := rows, width := q.cOut, tscale := outTscale m st.layer, scales := st.scales,
    data := st.out }

/-- The input of a layer of a run, once it is there (R283, R285): of a producer that still runs, what it has written. -/
def layerInput (r : Run) (m : Model) (l : Layer) : Option Act :=
  if l.input = 0xFFFF then r.input
  else match tget? r.outs l.input with
    | some a => some a
    | none => (tget? r.steps l.input).map (partialOut m r.rows)

/-- Whether a byte range of a step's output is written. -/
def isWritten (st : Step) (lo hi : Nat) : Bool := hi ≤ lo || st.wrote.any fun w => w.1 ≤ lo && hi ≤ w.2

/-- Whether the 64-row chunks that hold bytes `lo` to `hi` of a running step's output are written (R283). -/
def chunksWritten (m : Model) (rows : Nat) (st : Step) (lo hi : Nat) : Bool :=
  let q := qdescAt m st.layer
  let rb := rowBytes q.cOut (fmtWidth q.oFmt)
  let last := min rows (((hi + rb - 1) / rb + 63) / 64 * 64)
  isWritten st (lo / rb / 64 * 64 * rb) (last * rb)

/-- Whether layer `i` may start while its producer, the TILE layer before it, runs: on tiles of its own, from the first chunk on (R260,
R283). -/
def startsEarly (r : Run) (m : Model) (i : Nat) (s : State) : Bool :=
  let l := layerAt m i
  let p := layerAt m l.input
  let q := qdescAt m l.input
  l.input + 1 == i && l.kind == 0 && p.kind == 0 && q.monitor != 3 && l.tiles + p.tiles ≤ (liveTiles m.part s).length
    && (tget? r.steps l.input).any fun st => chunksWritten m r.rows st 0 (rowBytes q.cOut (fmtWidth q.oFmt))

/-- Whether the input of a layer is there: whole, or from the first chunk on where that is enough. -/
def inputReady (r : Run) (m : Model) (i : Nat) (s : State) : Bool :=
  let l := layerAt m i
  if l.input = 0xFFFF then r.input.isSome else (tget? r.outs l.input).isSome || startsEarly r m i s

/-- Whether a layer runs its alternative program: its input is tagged FP8-E4M3 by a re-run (R260, R283). -/
def runsAlt (m : Model) (l : Layer) (a : Act) : Bool := fedByCompat m l && a.fmt == 3

/-- The instructions' view of a step (R255). -/
def layerCtx (m : Model) (i : Nat) (a : Act) (alt : Bool) (scales : List Nat) : LayerCtx :=
  let q := qdescAt m i
  { q := q, aFmt := if alt then 3 else q.aFmt, aScale := if alt then 0 else q.aScale, input := a, scales := scales,
    oTscale := outTscale m i }

/-- A tile's part of a step at its start (R269). -/
def newWork (idx t rows : Nat) : TileWork where
  idx := idx
  pc := 0
  s := [0#32, BitVec.ofNat 32 idx, BitVec.ofNat 32 t, BitVec.ofNat 32 rows] ++ List.replicate 12 0#32
  sram := []
  acc := []
  dmas := []
  resident := []
  bars := 0
  atBar := false
  ended := false
  late := false
  fresh := true
  ghost := []

/-- A step on some tiles at its start (R255, R269). -/
def newStep (i : Nat) (tiles : List Nat) (alt frozen : Bool) (scales : List Nat) (groups rows : Nat) (use : ShelfUse) :
    Step where
  layer := i
  tiles := tiles
  alt := alt
  frozen := frozen
  scales := scales
  clipped := List.replicate groups 0
  amax := List.replicate groups 0
  nonfinite := 0
  accSat := 0
  out := []
  ghost := []
  use := use
  work := tiles.zipIdx.map fun t => (t.1, newWork t.2 tiles.length rows)
  picks := []
  wrote := []
  stalls := []
  stage := 0

/-- A scale record of a model. -/
def getRec (m : Model) (ctx i : Nat) : Option ScaleRec := (tget? m.recs ctx).bind fun t => tget? t i

/-- Whether a layer of a run is still to be run and has its input; layers start in table order (R283). -/
def stepReady (r : Run) (m : Model) (i : Nat) (s : State) : Bool :=
  i < m.layers && (tget? r.outs i).isNone && (tget? r.steps i).isNone && inputReady r m i s
    && (List.range i).all fun j => (tget? r.outs j).isSome || (tget? r.steps j).isSome

/-- The runs fetched before a run. -/
def runsBefore (c : CmdRef) : List Run → List Run
  | [] => []
  | r :: rs => if r.ref = c then [] else r :: runsBefore c rs

/-- Whether another step of the same scale record runs, or an earlier run is ready to start one (R255). -/
def recordTaken (r : Run) (m : Model) (i : Nat) (s : State) : Bool :=
  let same : Run → Bool := fun x => x.handle == r.handle && x.ctx == r.ctx && x.ref != r.ref
  (s.til.runs.any fun x => same x && (tget? x.steps i).isSome)
    || (runsBefore r.ref s.til.runs).any fun x => same x && stepReady x m i s

/-- Tiles of a partition in service that run no step. -/
def freeTiles (p : Nat) (s : State) : List Nat := (liveTiles p s).filter fun n => (tget? s.til.busy n).isNone

/-- Tiles that a TILE layer runs on, once enough are free (R283) and powered (R23). -/
def stepTiles (p : Nat) (l : Layer) (s : State) : Option (List Nat) :=
  let n := min l.tiles (liveTiles p s).length
  let free := freeTiles p s
  if l.kind ≠ 0 then some []
  else if n = 0 ∨ free.length < n ∨ (free.take n).any (fun t => !unitAwake .tile t s) then none
  else some (free.take n)

/-- How a step starts out reading its layer's image, with the counters of R296 (R288, R289). -/
def startUse (h i : Nat) (m : Model) (s : State) : ShelfUse × State :=
  if (layerAt m i).kind ≠ 0 then (.stream, s)
  else if !eligible m i s then
    (.stream, onShf m.part (fun c => { c with streamed := wrap64 (c.streamed + 1) }) s)
  else if resident h i s then (.shelf, onShf m.part (fun c => { c with hits := wrap64 (c.hits + 1) }) s)
  else (.pending, s)

/-- A step put into its run, its tiles taken. -/
def addStep (c : CmdRef) (st : Step) (s : State) : State :=
  let g : Run → Run := fun r => { r with steps := tput r.steps st.layer st }
  onTil (fun t => { t with
    runs := updWhere (·.ref == c) g t.runs, busy := st.tiles.foldl (fun b n => tput b n (c, st.layer)) t.busy }) s

/-- The stalls that hold rows of a STALL layer (R286). -/
def layerStalls (m : Model) (i : Nat) : List Nat := m.stalls.take (qdescAt m i).cOut

/-- Staging that a copy of the activation rows of a STALL layer takes at each of its stalls (R122, R287). -/
def layerStage (m : Model) (i rows : Nat) : Nat := rows * (2 * (qdescAt m i).k)

/-- Whether a layer that runs on stalls has room in the staging of each (R122). -/
def stageRoom (m : Model) (i rows : Nat) (s : State) : Bool :=
  (layerAt m i).kind != 1 || (layerStalls m i).all fun n => stallStaged n s + layerStage m i rows ≤ 1048576

/-- Activations of the service job of a STALL layer on a stall. DESIGN CHOICE (log 113): one for each KiB of rows it reads. -/
def layerActs (m : Model) (i n : Nat) : Nat :=
  let q := qdescAt m i
  max 1 ((stallRows m q.cOut ((m.stalls.findIdx? (· == n)).getD 0) * stallRowBytes q + 1023) / 1024)

/-- The service jobs of a STALL layer made, one per stall (R194, R287). -/
def startLayerJobs (r : Run) (m : Model) (i : Nat) (s : State) : State :=
  (layerStalls m i).foldl (fun s n => addJob n (newJob r.ref r.part r.ctx 0 (.layer i (layerActs m i n))) s) s

/-- The rows of a SELECT layer queued for the command selectors (R137, R138). -/
def queuePicks (r : Run) (i rows : Nat) (s : State) : State :=
  let now := timeUs s
  let es := (List.range rows).map fun x => ({ ref := r.ref, part := r.part, row := x, staged := now, layer := some i } : SelRow)
  onSel (fun x => { x with queue := x.queue ++ es }) s

/-- A step handed to what runs it beside tiles: the service jobs of a STALL layer, the queued rows of a SELECT layer. -/
def launchStep (r : Run) (m : Model) (i rows : Nat) (s : State) : State :=
  match (layerAt m i).kind with
  | 0 => s
  | 1 => startLayerJobs r m i s
  | _ => queuePicks r i rows s

/-- A step of any layer at its start: of a STALL layer with the stalls that run it. -/
def firstStep (r : Run) (m : Model) (i : Nat) (tiles : List Nat) (alt frozen : Bool) (use : ShelfUse) : Step :=
  let scales := ((getRec m r.ctx i).map (·.scales)).getD []
  let st := newStep i tiles alt frozen scales (outGroups (qdescAt m i)) r.rows use
  if (layerAt m i).kind = 1 then { st with stalls := layerStalls m i, stage := layerStage m i r.rows } else st

/-- A step starts (R255, R269, R283): its gang runs, no stop is posted, its record is free and no reset of it waits, and what it
runs on has room. -/
def startStep (c : CmdRef) (i : Nat) (s : State) : State :=
  match getModelRun c s with
  | none => s
  | some r =>
    match getModel r.handle s with
    | none => s
    | some m =>
      let l := layerAt m i
      if !stepReady r m i s || recordTaken r m i s || !ctxRuns r.part r.ctx s || (getPtn r.part s).stop.isSome
          || s.til.resets.any (fun x => x.2.1 == r.handle && x.2.2 == r.ctx) || !stageRoom m i r.rows s then s
      else match stepTiles r.part l s, layerInput r m l with
        | some tiles, some a =>
          let (use, s) := startUse r.handle i m s
          let uses := s.til.uses + 1
          let s := onModel r.handle (fun m => { m with lastUse := uses }) (onTil (fun t => { t with uses := uses }) s)
          launchStep r m i a.rows (addStep c (firstStep r m i tiles (runsAlt m l a) s.til.freeze use) s)
        | _, _ => s

/-- LAYER_STEP_START (R255). -/
def execLayerStepStart (c : CmdRef) (layer : Nat) (s : State) : Host.Outcome State Fault Refusal :=
  .next (startStep c layer s)

/-- A MODEL_RUN taken off: its steps are discarded, their tiles freed, their jobs and rows dropped (R261, R274). -/
def dropModelRun (c : CmdRef) (s : State) : State :=
  settleResets (onTil (fun t => { t with
    runs := t.runs.filter (·.ref != c), busy := t.busy.filter fun e => e.2.1 != c }) (dropRows c (dropJobs c s)))

/-! Instructions (R266–R274). -/

/-- What a tile's instruction works on. -/
structure TileCtx where
  tile : Nat
  ref : CmdRef
  run : Run
  model : Model
  step : Step
  work : TileWork
  layer : Layer
  input : Act

/-- The step of a powered tile, with all it refers to. -/
def tileCtx (t : Nat) (s : State) : Option TileCtx :=
  match if unitAwake .tile t s then tget? s.til.busy t else none with
  | none => none
  | some (c, i) =>
    match getModelRun c s, getStep c i s with
    | some r, some st =>
      match getModel r.handle s, tget? st.work t with
      | some m, some w =>
        match layerInput r m (layerAt m i) with
        | some a => some { tile := t, ref := c, run := r, model := m, step := st, work := w, layer := layerAt m i, input := a }
        | none => none
      | _, _ => none
    | _, _ => none

/-- The view of the layer that a tile's instructions take. -/
def TileCtx.ctx (x : TileCtx) : LayerCtx := layerCtx x.model x.step.layer x.input x.step.alt x.step.scales

/-- Whether a step accumulates in INT32 (R247): not in the alternative program, whose input is FP8. -/
def TileCtx.int (x : TileCtx) : Bool := x.ctx.q.accInt && !x.step.alt

/-- The word at a tile's PC; past the last word it acts as END (R268). -/
def TileCtx.word (x : TileCtx) : Nat :=
  let off := if x.step.alt then x.layer.progAlt else x.layer.prog
  if x.work.pc < progCount x.model off then progWord x.model off x.work.pc else 2 ^ 56

/-- Whether a tile may issue (R268, R275): its context runs, it is neither ended, waiting at a BAR nor stopped, and no stop
is posted while it stands at a BAR. -/
def TileCtx.issues (x : TileCtx) (s : State) : Bool :=
  ctxRuns x.run.part x.run.ctx s && !x.work.ended && !x.work.atBar && !x.work.late
    && !(x.work.fresh && (getPtn x.run.part s).stop.isSome)

/-- Whether a word has an opcode and fields, each given by its bits and value. -/
def wordIs (opc : Nat) (fields : List (Nat × Nat × Nat)) (w : Nat) : Bool :=
  bits w 63 56 == opc && fields.all fun f => bits w f.1 f.2.1 == f.2.2

/-- A tile's part of its step replaced. -/
def setWork (x : TileCtx) (w : TileWork) (s : State) : State :=
  onStep x.ref x.step.layer (fun st => { st with work := tput st.work x.tile w }) s

/-- A tile's part and its step replaced. -/
def setStep (x : TileCtx) (w : TileWork) (st : Step) (s : State) : State :=
  onStep x.ref x.step.layer (fun _ => { st with work := tput st.work x.tile w }) s

/-- An instruction of a tile issues: when the word at its PC is the one given, `f` acts with the PC moved on. -/
def tileIssue (t opc : Nat) (fields : List (Nat × Nat × Nat)) (f : TileCtx → TileWork → State → State) (s : State) : State :=
  match tileCtx t s with
  | none => s
  | some x =>
    if x.issues s && wordIs opc fields x.word then f x { x.work with pc := x.work.pc + 1, fresh := false } s else s

/-- A fault ends the step on every tile, and its command PARTIAL with the layer and PC (R274). -/
def tileFault (x : TileCtx) (s : State) : State :=
  complete x.ref stPartial 0 (x.step.layer + 65536 * x.work.pc) [] (dropModelRun x.ref s)

/-- Instruction fields of format S. -/
def tileFieldsS (sd sa imm : Nat) : List (Nat × Nat × Nat) := [(55, 52, sd), (51, 48, sa), (31, 0, imm)]

/-- A scalar instruction. -/
def tileScalar (t opc sd : Nat) (fields : List (Nat × Nat × Nat)) (v : TileWork → Nat) (s : State) : State :=
  tileIssue t opc fields (fun x w s => setWork x (setSreg sd (v x.work % 2 ^ 32) w) s) s

/-- TILE_NOP (R268). -/
def execTileNop (t : Nat) (s : State) : Host.Outcome State Fault Refusal :=
  .next (tileIssue t 0x00 [] (fun x w s => setWork x w s) s)

/-- TILE_END (R268). -/
def execTileEnd (t : Nat) (s : State) : Host.Outcome State Fault Refusal :=
  .next (tileIssue t 0x01 [] (fun x w s => setWork x { w with ended := true } s) s)

/-- The tiles that wait at a BAR which every tile of the layer has reached go on (R268). -/
def releaseBars (st : Step) : Step :=
  let low := (st.work.map (·.2.bars)).foldl min (2 ^ 64)
  { st with work := st.work.map fun e => if e.2.bars ≤ low then (e.1, { e.2 with atBar := false }) else e }

/-- TILE_BAR (R268, R275). -/
def execTileBar (t : Nat) (s : State) : Host.Outcome State Fault Refusal :=
  .next (tileIssue t 0x02 [] (fun x w s =>
    let w := { w with bars := w.bars + 1, atBar := true, fresh := true }
    onStep x.ref x.step.layer releaseBars (setWork x w s)) s)

/-- TILE_LOOP (R268). -/
def execTileLoop (t : Nat) (sd target : Nat) (s : State) : Host.Outcome State Fault Refusal :=
  .next (tileIssue t 0x03 [(55, 52, sd), (11, 0, target)] (fun x w s =>
    let v := (sreg x.work sd + 2 ^ 32 - 1) % 2 ^ 32
    let w := setSreg sd v w
    setWork x (if sreg w sd ≠ 0 then { w with pc := target } else w) s) s)

/-- TILE_BRZ (R268). -/
def execTileBrz (t : Nat) (sd target : Nat) (s : State) : Host.Outcome State Fault Refusal :=
  .next (tileIssue t 0x04 [(55, 52, sd), (11, 0, target)] (fun x w s =>
    setWork x (if sreg x.work sd = 0 then { w with pc := target } else w) s) s)

/-- TILE_SADD (R268). -/
def execTileSadd (t : Nat) (sd sa sb : Nat) (s : State) : Host.Outcome State Fault Refusal :=
  .next (tileScalar t 0x18 sd [(55, 52, sd), (51, 48, sa), (47, 44, sb)] (fun w => sreg w sa + sreg w sb) s)

/-- TILE_SADDI (R268). -/
def execTileSaddi (t : Nat) (sd sa imm : Nat) (s : State) : Host.Outcome State Fault Refusal :=
  .next (tileScalar t 0x19 sd (tileFieldsS sd sa imm) (fun w => sreg w sa + imm) s)

/-- TILE_SMULI (R268). -/
def execTileSmuli (t : Nat) (sd sa imm : Nat) (s : State) : Host.Outcome State Fault Refusal :=
  .next (tileScalar t 0x1A sd (tileFieldsS sd sa imm) (fun w => sreg w sa * imm) s)

/-- TILE_SSHLI (R268). -/
def execTileSshli (t : Nat) (sd sa imm : Nat) (s : State) : Host.Outcome State Fault Refusal :=
  .next (tileScalar t 0x1B sd (tileFieldsS sd sa imm) (fun w => sreg w sa * 2 ^ (imm % 32)) s)

/-- Bytes of an array as DMA sees it, up to its 64-byte boundary (R270, R281). -/
def arrayBytes (x : TileCtx) (arr : Nat) : Nat :=
  let q := x.ctx.q
  let n := match arr with
    | 0 => weightBytes q
    | 1 => gscaleBytes q
    | 2 => codebookBytes q
    | 3 => if x.layer.aux = 0 then 0 else 4 * q.cOut
    | 4 => x.input.rows * rowBytes x.input.width (fmtWidth x.input.fmt)
    | 5 => actScaleBytes x.input.scale x.input.width
    | _ => x.run.rows * rowBytes q.cOut (fmtWidth q.oFmt)
  (n + 63) / 64 * 64

/-- Whether a DMA is a fault (R270, R274). -/
def dmaBad (x : TileCtx) (d : TileDma) : Bool :=
  d.off % 64 != 0 || arrayBytes x d.arr < d.off + 64 * d.len || sramBytes < 64 * (d.saddr + d.len)

/-- A DMA of a tile issued (R268, R270); one that reads a layer image waits while its fill is not decided (R289). -/
def tileDma (t : Nat) (out : Bool) (arr sa token len saddr : Nat) (s : State) : State :=
  let fields := [(55, 52, arr), (51, 48, sa), (47, 44, token), (43, 30, len), (29, 16, saddr)]
  tileIssue t (if out then 0x09 else 0x08) fields (fun x w s =>
    let d : TileDma := { out := out, arr := arr, off := sreg x.work sa, len := lenOf len, saddr := saddr, token := token }
    if x.step.use == .pending && arr < 4 then s
    else if dmaBad x d then tileFault x s
    else setWork x { w with dmas := w.dmas ++ [d] } s) s

/-- TILE_DMA_IN (R270). -/
def execTileDmaIn (t : Nat) (arr sa token len saddr : Nat) (s : State) : Host.Outcome State Fault Refusal :=
  .next (tileDma t false arr sa token len saddr s)

/-- TILE_DMA_OUT (R270). -/
def execTileDmaOut (t : Nat) (arr sa token len saddr : Nat) (s : State) : Host.Outcome State Fault Refusal :=
  .next (tileDma t true arr sa token len saddr s)

/-- The bytes a DMA_IN reads (R270). -/
def dmaSource (x : TileCtx) (d : TileDma) : List Byte :=
  let n := 64 * d.len
  match d.arr with
  | 0 => readBytes x.model.image (x.layer.weights + d.off) n
  | 1 => readBytes x.model.image (x.layer.gscales + d.off) n
  | 2 => readBytes x.model.image (x.layer.codebooks + d.off) n
  | 3 => readBytes x.model.image (x.layer.aux + d.off) n
  | 4 => readBytes x.input.data d.off n
  | _ => fit n ((x.input.scales.flatMap (leBytes 1)).drop d.off)

/-- The values noted in a byte range, moved. -/
def moveGhost (a n b : Nat) (g : Table W32) : Table W32 :=
  (g.filter fun e => 8 * a ≤ e.1 && e.1 < 8 * (a + n)).map fun e => (e.1 - 8 * a + 8 * b, e.2)

/-- A DMA done (R268, R270): its bytes moved, its token signalled; a DMA_IN enters the resident table (R275). -/
def finishDma (x : TileCtx) (d : TileDma) : TileWork × Step :=
  let w := { x.work with dmas := x.work.dmas.erase d }
  let a := 64 * d.saddr
  let n := 64 * d.len
  if d.out then
    let out := writeBytes x.step.out d.off (readBytes w.sram a n)
    let g := (moveGhost a n d.off w.ghost).foldl (fun g e => tput g e.1 e.2) (dropGhost d.off n x.step.ghost)
    (w, { x.step with out := out, ghost := g, wrote := addRange (d.off, d.off + n) x.step.wrote })
  else
    let w := putSram a (dmaSource x d) w
    ({ w with resident := (w.resident ++ [d]).drop (w.resident.length - 63) }, x.step)

/-- A shelf word corrected (R474). -/
def shelfCorrected (p : MemPlace) (n : Nat) (s : State) : State :=
  let s := onErr (fun e => { e with sramCe := wrap64 (e.sramCe + 1) }) s
  fileRec (mkRec 0x12 1 2 (locSram 3 p.stack p.unit p.row n)) s

/-- A shelf word lost: the image leaves the shelf, and the step that read it goes on from DRAM (R293). -/
def shelfLost (h i : Nat) (p : MemPlace) (s : State) : State :=
  let s := onErr (fun e => { e with sramUe := wrap64 (e.sramUe + 1) }) s
  let s := fileRec (mkRec 0x13 2 2 (locSram 3 p.stack p.unit p.row 0)) s
  let leave : Step → Step := fun st => { st with use := .stream }
  let g : Run → Run := fun r => if r.handle == h then { r with steps := tmod leave r.steps i } else r
  onTil (fun t => { t with shelf := t.shelf.filter (fun y => !(y.handle == h && y.layer == i)), runs := t.runs.map g }) s

/-- What a DMA's codewords turned out to be (R261, R293, R474–R476): the state, and whether the transfer goes on. A shelf word lost
loses the image and is served from DRAM; any other ends the command. -/
def dmaEcc (x : TileCtx) (d : TileDma) (ecc : EccOutcome) (p : MemPlace) (s : State) : State × Bool :=
  if x.step.use == .shelf && d.arr < 4 then
    match ecc with
    | .clean => (s, true)
    | .corrected n => (shelfCorrected p n s, true)
    | .uncorrectable => (shelfLost x.run.handle x.step.layer p s, true)
  else match dramRead (findCmd x.ref s) ecc p s with
    | (s, none) => (s, true)
    | (s, some (seq, dropped)) => (completeRec x.ref stUncorrectable 0 seq dropped (dropModelRun x.ref s), false)

/-- Whether what a DMA reads is there: the rows of a producer that still runs come in 64-row chunks (R283). -/
def dmaReady (x : TileCtx) (d : TileDma) : Bool :=
  d.out || d.arr != 4 || x.layer.input == 0xFFFF || (tget? x.run.outs x.layer.input).isSome
    || (tget? x.run.steps x.layer.input).any fun st => chunksWritten x.model x.run.rows st d.off (d.off + 64 * d.len)

/-- A DMA of a tile completes (R268, R289, R293): the oldest with its token. -/
def tileDmaDone (t token : Nat) (ecc : EccOutcome) (p : MemPlace) (s : State) : State :=
  match tileCtx t s with
  | none => s
  | some x =>
    match x.work.dmas.find? fun d => d.token == token && dmaReady x d with
    | none => s
    | some d =>
      let (s, on) := dmaEcc x d ecc p s
      if !on then s
      else match tileCtx t s with
        | none => s
        | some x => let (w, st) := finishDma x d; setStep x w st s

/-- TILE_DMA_COMPLETE (R268). -/
def execTileDmaComplete (t token : Nat) (ecc : EccOutcome) (place : MemPlace) (s : State) :
    Host.Outcome State Fault Refusal := .next (tileDmaDone t token ecc place s)

/-- TILE_WAIT (R268): passes once no DMA with a token of MASK is outstanding. -/
def execTileWait (t : Nat) (mask : Nat) (s : State) : Host.Outcome State Fault Refusal :=
  .next (tileIssue t 0x0A [(15, 0, mask)] (fun x w s =>
    if x.work.dmas.any fun d => bit mask d.token then s else setWork x w s) s)

/-- TILE_MMA (R271). -/
def execTileMma (t : Nat) (waddr aaddr rows acc kb : Nat) (zero : Bool) (s : State) : Host.Outcome State Fault Refusal :=
  .next (tileIssue t 0x10 [(55, 42, waddr), (41, 28, aaddr), (27, 19, rows), (18, 10, acc), (9, 4, kb), (3, 3, b2n zero)]
    (fun x w s =>
      let o : Mma := { waddr := waddr, aaddr := aaddr, rows := rowsOf rows, acc := acc, kb := blocksOf kb, zero := zero }
      if !mmaFits x.ctx o x.work then tileFault x s
      else
        let (w, sat) := mma x.ctx o x.int w
        setStep x w { x.step with accSat := x.step.accSat + sat } s) s)

/-- TILE_EPI (R272). -/
def execTileEpi (t : Nat) (oaddr rows acc fn : Nat) (bias : Bool) (baddr : Nat) (raw : Bool) (s : State) :
    Host.Outcome State Fault Refusal :=
  .next (tileIssue t 0x11 [(55, 42, oaddr), (41, 33, rows), (32, 24, acc), (23, 20, fn), (19, 19, b2n bias),
      (18, 5, baddr), (4, 4, b2n raw)] (fun x w s =>
    let o : Epi := { oaddr := oaddr, rows := rowsOf rows, acc := acc, fn := fn, bias := bias, baddr := baddr, raw := raw }
    let (w, st) := epi x.ctx o x.int w x.step
    setStep x w st s) s)

/-- TILE_VEC (R272, R274). -/
def execTileVec (t : Nat) (daddr xaddr yaddr fn : Nat) (s : State) : Host.Outcome State Fault Refusal :=
  .next (tileIssue t 0x12 [(55, 42, daddr), (41, 28, xaddr), (27, 14, yaddr), (13, 10, fn)] (fun x w s =>
    let o : Vec := { daddr := daddr, xaddr := xaddr, yaddr := yaddr, fn := fn }
    if !vecFits x.ctx o x.work then tileFault x s
    else
      let (w, st) := vec x.ctx o w x.step
      setStep x w st s) s)

/-! Pre-emption (R275). -/

/-- A step put back to its start, its statistics discarded; its tiles stay stopped until the gang resumes (R275). -/
def restartStep (rows : Nat) (st : Step) : Step :=
  let n := newStep st.layer st.tiles st.alt st.frozen st.scales st.clipped.length rows st.use
  { n with work := n.work.map fun e => (e.1, { e.2 with late := true }) }

/-- A tile that has reached no BAR 199 µs after a posted switch stops, and its step is to run again (R275). -/
def lateStop (t : Nat) (s : State) : State :=
  match tileCtx t s with
  | none => s
  | some x =>
    match (getPtn x.run.part s).stop with
    | none => s
    | some at0 =>
      if timeUs s < at0 + 199 || x.work.ended || x.work.fresh || x.work.late then s
      else
        let s := onStep x.ref x.step.layer (restartStep x.run.rows) s
        let s := onPart x.run.part (fun p => { p with counts := { p.counts with tileLate := wrap64 (p.counts.tileLate + 1) } }) s
        onShf x.run.part (fun c => { c with restarts := wrap64 (c.restarts + 1) }) s

/-- TILE_LATE_STOP (R275). -/
def execTileLateStop (t : Nat) (now : Nat) (s : State) : Host.Outcome State Fault Refusal :=
  .next (lateStop t (atTime now s))

/-- What of a tile's SRAM survives a pre-emption: the transfers of the resident-load table, replayed on resume (R275). -/
def keepResident (w : TileWork) : TileWork :=
  let kept := w.resident.foldl (fun m d => writeBytes m (64 * d.saddr) (readBytes w.sram (64 * d.saddr) (64 * d.len))) []
  { w with sram := kept, ghost := [] }

/-! The end of a step (R256–R260). -/

/-- Whether an output group is misfit (R256). -/
def misfit (x : LayerCtx) (rows : Nat) (g : Nat) (clipped amax : Nat) : Bool :=
  let gs := groupSize x.q.oScale
  let top := fmulX (fmtMax x.q.oFmt) (fmulX (scaleAt x.q.oScale x.scales g) (fdecode fp32 x.oTscale))
  rows * gs < 1024 * clipped || (amax != 0 && fltV (fmulX (.fin false 16 0) (fdecode fp32 amax)) top)

/-- The groups of a step with their statistics: (group, clipped, amax). -/
def groupStats (st : Step) : List (Nat × Nat × Nat) := (st.clipped.zip st.amax).zipIdx.map fun e => (e.2, e.1.1, e.1.2)

/-- The new scale of a misfit group, and whether it was clamped; none when nothing finite was seen (R258). -/
def adaptedScale (x : LayerCtx) (amax : Nat) : Option (Nat × Bool) :=
  if amax = 0 then none
  else some (roundUpScale x.q.oScale (fdivX (fdecode fp32 amax) (fmulX (fmtMax x.q.oFmt) (fdecode fp32 x.oTscale))))

/-- The output of a step (R254, R281). -/
def stepOutput (x : LayerCtx) (rows : Nat) (st : Step) : Act :=
  { fmt := x.q.oFmt, scale := x.q.oScale, rows := rows, width := x.q.cOut, tscale := x.oTscale, scales := x.scales,
    data := st.out }

/-- The output of a re-run, narrowed to FP8-E4M3 with one tensor scale, and its clipped elements (R259). -/
def rerunOutput (x : LayerCtx) (rows : Nat) (st : Step) : Act × Nat :=
  let amax := st.amax.foldl max 0
  let rb := rowBytes x.q.cOut 8
  let wo := fmtWidth x.q.oFmt
  let orb := rowBytes x.q.cOut wo
  let rowsOut := (List.range rows).map fun r =>
    (List.range x.q.cOut).map fun c =>
      match tget? st.ghost (8 * (r * orb) + wo * c) with
      | none => narrow 3 true (.fin false 0 0) fvOne
      | some y => narrow 3 (!x.q.priv.contains c) (f32v y) (rerunScale amax)
  let data := rowsOut.zipIdx.foldl (fun m r => writeBytes m (r.2 * rb) (r.1.map fun n => BitVec.ofNat 8 n.code)) []
  ({ fmt := 3, scale := 0, rows := rows, width := x.q.cOut, tscale := rerunTscale amax, scales := [], data := data },
    sumNat (rowsOut.map fun r => (r.filter (·.clipped)).length))

/-- What the end of a step decides: the output, the record, and what is counted (R256–R259, R263). -/
structure StepEnd where
  out : Act
  record : ScaleRec
  misfits : Nat
  adapted : Nat
  sat : Nat
  rerun : Bool
  clipped : Nat

/-- The end of a monitored step (R256–R259); of one with MONITOR 0 only STEPS rises. -/
def endStats (x : LayerCtx) (rows : Nat) (st : Step) (r : ScaleRec) : StepEnd :=
  let r := { r with steps := wrap64 (r.steps + 1) }
  if x.q.monitor = 0 then
    { out := stepOutput x rows st, record := r, misfits := 0, adapted := 0, sat := 0, rerun := false, clipped := 0 }
  else
    let bad := (groupStats st).filter fun g => misfit x rows g.1 g.2.1 g.2.2
    let rerun := x.q.monitor == 3 && !bad.isEmpty
    let (out, again) := if rerun then rerunOutput x rows st else (stepOutput x rows st, 0)
    let moves := if x.q.monitor = 2 ∨ st.frozen then [] else
      bad.filterMap fun g => (adaptedScale x g.2.2).map fun n => (g.1, n)
    let scales := moves.foldl (fun l e => updAt (fun _ => e.2.1) e.1 l) r.scales
    let clipped := sumNat st.clipped
    { out := out
      record := { r with
        misfitSteps := satAdd 0xFFFFFFFF r.misfitSteps (b2n (!bad.isEmpty)), reruns := satAdd 0xFFFFFFFF r.reruns (b2n rerun)
        lastMisfit := bad.length, lastClipped := min 0xFFFFFFFF clipped, lastRerun := rerun
        scaleSat := r.scaleSat || moves.any (·.2.2), nonfinite := r.nonfinite || st.nonfinite != 0, scales := scales }
      misfits := bad.length
      adapted := (moves.filter fun e => r.scales.getD e.1 0 != e.2.1).length
      sat := (moves.filter (·.2.2)).length
      rerun := rerun
      clipped := clipped + again }

/-- The counters of R263 at the end of a step. -/
def countStep (x : LayerCtx) (st : Step) (e : StepEnd) (c : TilCounts) : TilCounts :=
  { steps := wrap64 (c.steps + b2n (x.q.monitor != 0)), misfit := wrap64 (c.misfit + e.misfits),
    adapted := wrap64 (c.adapted + e.adapted), scaleSat := wrap64 (c.scaleSat + e.sat),
    reruns := wrap64 (c.reruns + b2n e.rerun), clipped := wrap64 (c.clipped + e.clipped),
    nonfinite := wrap64 (c.nonfinite + st.nonfinite), accSat := wrap64 (c.accSat + st.accSat) }

/-- A step taken off its run with its output put in, its tiles freed. -/
def closeStep (c : CmdRef) (i : Nat) (f : Run → Run) (s : State) : State :=
  let g : Run → Run := fun r => { f r with steps := tdel r.steps i }
  onTil (fun t => { t with
    runs := updWhere (·.ref == c) g t.runs, busy := t.busy.filter fun e => !(e.2.1 == c && e.2.2 == i) }) s

/-- Whether all that runs a step has ended: its tiles with their DMA, its service jobs, its rows on selectors. -/
def stepDone (m : Model) (rows : Nat) (st : Step) : Bool :=
  (st.work.all fun e => e.2.ended && e.2.dmas.isEmpty) && st.stalls.isEmpty
    && ((layerAt m st.layer).kind != 2 || st.picks.length == rows)

/-- What the codewords that a compatibility re-run reads again turn out to be (R259, R261, R293): a shelf word that is lost loses the
image and is served from DRAM; any other ends the command. Answers whether the step goes on. -/
def rerunRead (c : CmdRef) (r : Run) (st : Step) (ecc : EccOutcome) (p : MemPlace) (s : State) : State × Bool :=
  if st.use == .shelf then
    match ecc with
    | .clean => (s, true)
    | .corrected n => (shelfCorrected p n s, true)
    | .uncorrectable => (shelfLost r.handle st.layer p s, true)
  else match dramRead (findCmd c s) ecc p s with
    | (s, none) => (s, true)
    | (s, some (seq, dropped)) => (completeRec c stUncorrectable 0 seq dropped (dropModelRun c s), false)

/-- A step's output, its record and what it counts put in, and the step closed (R256–R261). -/
def recordStep (c : CmdRef) (i : Nat) (r : Run) (x : LayerCtx) (st : Step) (e : StepEnd) (s : State) : State :=
  let set : Model → Model := fun m => { m with recs := tput m.recs r.ctx (tput ((tget? m.recs r.ctx).getD []) i e.record) }
  let s := onTilCounts r.part (countStep x st e) (onModel r.handle set s)
  settleResets (closeStep c i (fun r => { r with outs := tput r.outs i e.out }) s)

/-- The end of a step (R256–R261, R278, R287): what a STALL layer's jobs have computed is put together here, and the records of a
SELECT layer. Answers whether it ended. -/
def endStep (c : CmdRef) (i : Nat) (ecc : EccOutcome) (p : MemPlace) (s : State) : State × Bool :=
  match getModelRun c s, getStep c i s with
  | some r, some st =>
    match getModel r.handle s with
    | none => (s, false)
    | some m =>
      let l := layerAt m i
      match layerInput r m l with
      | none => (s, false)
      | some a =>
        if !ctxRuns r.part r.ctx s || !stepDone m a.rows st then (s, false)
        else if l.kind = 2 then
          let put : Run → Run := fun r => { r with picked := st.picks.flatMap (·.2), outs := tput r.outs i a }
          (settleResets (closeStep c i put s), true)
        else
          let x := layerCtx m i a st.alt st.scales
          let st := if l.kind = 1 then stallStep m l x st else st
          match getRec m r.ctx i with
          | none => (s, false)
          | some rec0 =>
            let e := endStats x r.rows st rec0
            if e.rerun then
              let (s, on) := rerunRead c r st ecc p s
              if on then (recordStep c i r x st e s, true) else (s, false)
            else (recordStep c i r x st e s, true)
  | _, _ => (s, false)

/-! The end of a fill (R289, R293). -/

/-- Whether a run's step reads the image being filled. -/
def readsFill (h i : Nat) (r : Run) : Bool := r.handle == h && (tget? r.steps i).any (·.use == .shelf)

/-- The commands that the fill of an image works for: the runs whose step reads it, and the pins of its model (R289, R291). -/
def fillUsers (h i : Nat) (s : State) : List CmdRef :=
  (s.til.runs.filter (readsFill h i)).map (·.ref) ++ (s.til.pins.filter (·.handle == h)).map (·.ref)

/-- An image whose fill met an uncorrectable word: it leaves the shelf, and what reads it ends UNCORRECTABLE (R261, R293). -/
def fillLost (h i seq : Nat) (dropped : Bool) (s : State) : State :=
  let users := fillUsers h i s
  let s := onTil (fun t => { t with
    shelf := t.shelf.filter (fun x => !(x.handle == h && x.layer == i)), pins := t.pins.filter (·.handle != h) }) s
  users.foldl (fun s c => completeRec c stUncorrectable 0 seq dropped (dropModelRun c s)) s

/-- A fill's last word read from DRAM (R289, R293, R474, R475). -/
def fillEnds (h i : Nat) (ecc : EccOutcome) (p : MemPlace) (s : State) : State :=
  if !(shelfImage h i s).any (·.filling) then s
  else match dramRead ((fillUsers h i s).head?.bind fun c => findCmd c s) ecc p s with
    | (s, none) => endFill h i s
    | (s, some (seq, dropped)) => fillLost h i seq dropped s

/-- SHELF_FILL_COMPLETE (R289). -/
def execShelfFillComplete (handle layer : Nat) (ecc : EccOutcome) (place : MemPlace) (s : State) :
    Host.Outcome State Fault Refusal := .next (fillEnds handle layer ecc place s)

end Sys2Proof.Machine
end

