-- ==== Sys2Proof/Machine/ModelRun.lean ====
section
/-!
DEFINITION. MODEL_RUN: its checks, its input from the host or from the stage before, its output to the host or to the stage
after, and the messages that carry activation blocks (R282–R285, R374, R397).
-/
namespace Sys2Proof.Machine

/-! Checks (R282, R284, R293, R381, R382). -/

/-- The layers whose input is the model's. -/
def rootLayers (m : Model) : List Nat := (List.range m.layers).filter fun i => (layerAt m i).input == 0xFFFF

/-- Whether a block is what a model's root layers take (R282). -/
def inputFits (m : Model) (rows : Nat) (a : Act) : Bool :=
  a.rows == rows && (rootLayers m).all fun i =>
    let q := qdescAt m i
    a.fmt == q.aFmt && a.scale == q.aScale && a.width == q.k

/-- Whether the last layer is a SELECT layer (R278). -/
def endsInSelect (m : Model) : Bool := (layerAt m (m.layers - 1)).kind == 2

/-- Bytes the result of a run may take (R284): a COMPAT layer's output may come as FP8-E4M3 (R259). -/
def runResultLen (m : Model) (rows : Nat) : Nat :=
  let i := m.layers - 1
  let l := layerAt m i
  if l.kind = 2 then rows * selOutStride l.selK
  else
    let q := qdescAt m i
    let n := actBlockBytes q.oFmt q.oScale rows q.cOut
    if q.monitor = 3 then max n (actBlockBytes 3 0 rows q.cOut) else n

/-- Fields of MODEL_RUN (R282): ROWS, SRC BULK, DST BULK, SEQ. -/
def runRows (ps : List Byte) : Nat := field ps 0 4
/-- SRC. -/
def runSrcBulk (ps : List Byte) : Bool := field ps 4 1 == 1
/-- DST. -/
def runDstBulk (ps : List Byte) : Bool := field ps 5 1 == 1
/-- SEQ. -/
def runSeq (ps : List Byte) : Nat := field ps 8 4

/-- The checks of MODEL_RUN's own fields (R6, R282). -/
def runFieldsBad (k : Cmd) (ps : List Byte) : Bool :=
  let src := runSrcBulk ps
  let dst := runDstBulk ps
  1 < field ps 4 1 || 1 < field ps 5 1
    || (!src && !dst && runSeq ps != 0) || ((src || dst) && k.epoch == 0) || (src && k.dataLen != 0)
    || (dst && k.resultLen != 0) || runRows ps < 1

/-- The stage of this node in the PIPELINE composition of a handle. -/
def ownStage (h : Nat) (s : State) : Nat := ((compFor 2 h s).map fun e => ownSlot e.2.members s).getD 0

/-- The stages a run needs: the one before for SRC BULK, the one after for DST BULK. -/
def runNeeds (h : Nat) (src dst : Bool) (s : State) : List Nat :=
  let me := ownStage h s
  (if src then [me - 1] else []) ++ if dst then [me + 1] else []

/-- The rules of the composition for a run (R285, R368, R374, R381): a stage that is not there is BAD_PARAM, and so is a SEQ
already consumed. -/
def runGate (k : Cmd) (ps : List Byte) (s : State) : Verdict :=
  let src := runSrcBulk ps
  let dst := runDstBulk ps
  match cmdGate 2 (runNeeds k.handle src dst s) k s with
  | .stop v => v
  | .alone => .go
  | .composed id members =>
    let me := ownSlot members s
    let used := ((getComp id s).map (·.consumed)).getD []
    if (src && me == 0) || (dst && members.length ≤ me + 1) || (src && used.contains (runSeq ps)) then .fail stBadParam 0
    else .go

/-- The checks of MODEL_RUN (R282–R285, R293), NO_RESOURCE for one with a SELECT layer and no command selector among them (R157). -/
def runCheck (k : Cmd) (ps inp : List Byte) (s : State) : Verdict :=
  if runFieldsBad k ps then .fail stBadParam 0
  else match modelStatus k s, getModel k.handle s with
    | none, some m =>
      if !m.ready then .fail stBusy 0
      else
        let rows := runRows ps
        let kinds := (List.range m.layers).map fun i => (layerAt m i).kind
        let block := parseAct inp 0
        let own := firstFail [
          (m.maxRows < rows || (kinds.contains 1 && 16 < rows), stBadParam),
          (!runSrcBulk ps && !block.any (inputFits m rows), stBadParam),
          (if runDstBulk ps then endsInSelect m else k.resultLen < runResultLen m rows, stBadParam),
          (awaitsSpare (if kinds.contains 1 then [.tile, .stall] else [.tile]) m.part s, stBusy),
          (kinds.contains 0 && (liveTiles m.part s).isEmpty, stRefused),
          (kinds.contains 2 && !(List.range 16).any fun n => servesRows n s, stNoResource)]
        own.andThen (runGate k ps s)
    | st, _ => .fail (st.getD stBadParam) 0

/-! Input from the stage before (R285, R374). -/

/-- The activation block held for a stage. -/
def getBlock (comp slot seq : Nat) (s : State) : Option Block :=
  s.fab.blocks.find? fun b => b.comp == comp && b.slot == slot && b.seq == seq

/-- A run changed by `f`. -/
def onModelRun (c : CmdRef) (f : Run → Run) (s : State) : State :=
  onTil (fun t => { t with runs := updWhere (·.ref == c) f t.runs }) s

/-- A run that ends before it is done, with a status. -/
def failRun (c : CmdRef) (st detail : Nat) (s : State) : State :=
  if (getModelRun c s).isSome then complete c st 0 detail [] (dropModelRun c (cancelReqs c s)) else s

/-- A run takes its block once the block is whole (R285); one that does not fit the model ends it. -/
def feedRun (s : State) (r : Run) : State :=
  match getModel r.handle s, (getBlock r.comp r.slot r.seq s).bind fun b => parseAct b.bytes r.seq with
  | some m, some a =>
    if inputFits m r.rows a then onModelRun r.ref (fun r => { r with input := some a }) s else failRun r.ref stBadParam 0 s
  | _, _ => s

/-- Every run that waits for a block. -/
def feedRuns (s : State) : State := (s.til.runs.filter fun r => r.srcBulk && r.input.isNone).foldl feedRun s

/-- MODEL_RUN begun (R282, R283, R285). -/
def beginRun (resultOk : Bool) (k : Cmd) (ps inp : List Byte) (s : State) : State :=
  let (id, slot) := match cmdGate 2 [] k s with
    | .composed id members => (id, ownSlot members s)
    | _ => (0, 0)
  let r : Run := {
    ref := k.ref, part := cmdPart k, ctx := k.queue.q, handle := k.handle, rows := runRows ps, srcBulk := runSrcBulk ps
    dstBulk := runDstBulk ps, seq := runSeq ps, comp := id, input := if runSrcBulk ps then none else parseAct inp 0
    outs := [], picked := [], steps := [], sending := false, slot := slot, resultOk := resultOk
    bad := none }
  feedRuns (onTil (fun t => { t with runs := t.runs ++ [r] }) s)

/-- MODEL_RUN (R282). -/
def execModelRun (c : CmdRef) (d : CmdIn) (s : State) : Host.Outcome State Fault Refusal :=
  .next (begin 0x21 (fun _ => true) c d runCheck (beginRun d.resultOk) s)

/-! Output (R284, R374). -/

/-- The block of a run with SRC BULK consumed: its SEQ noted, its bytes freed (R285, R374). -/
def consume (r : Run) (s : State) : State :=
  if r.srcBulk then
    let s := onComp r.comp (fun c => { c with consumed := c.consumed ++ [r.seq] }) s
    forgetBlock r.comp r.slot r.seq s
  else s

/-- The result of a run for the host (R284). -/
def runResult (r : Run) (m : Model) : List Byte :=
  if endsInSelect m then r.picked else ((tget? r.outs (m.layers - 1)).map fun a => actBlock a 0).getD []

/-- A run's output sent to the next stage, in messages of at most 1 MiB, each once the one before is acknowledged (R374). -/
def sendBlock (r : Run) (a : Act) (s : State) : State :=
  match getComp r.comp s with
  | none => failRun r.ref stNotOwner 0 s
  | some c =>
    let bytes := actBlock a r.seq
    let nxt := c.members.getD (r.slot + 1) (0, 0)
    match chunks 1048576 ((bytes.length + 1048575) / 1048576) bytes with
    | [] => s
    | b :: rest =>
      let m := mkMsg nxt.1 nxt.2 0x10 r.comp c.epoch (r.slot + 1) r.seq b
      sendReq r.part m (.command r.ref) rest (onModelRun r.ref (fun r => { r with sending := true }) s)

/-- A run whose last layer has ended delivers its output (R284). -/
def deliverRun (c : CmdRef) (s : State) : State :=
  match getModelRun c s with
  | none => s
  | some r =>
    match getModel r.handle s with
    | none => s
    | some m =>
      match tget? r.outs (m.layers - 1) with
      | none => s
      | some a =>
        if r.sending then s
        else if r.dstBulk then sendBlock r a s
        else finish c r.resultOk stOk r.rows 0 (runResult r m) (dropModelRun c (consume r s))

/-- LAYER_STEP_END (R256–R260, R284). -/
def execLayerStepEnd (c : CmdRef) (layer : Nat) (ecc : EccOutcome) (place : MemPlace) (s : State) :
    Host.Outcome State Fault Refusal :=
  let (s, ended) := endStep c layer ecc place s
  .next (if ended then deliverRun c s else s)

/-- A run whose block the next stage has acknowledged whole completes (R284, R374). -/
def ackedRun (c : CmdRef) (s : State) : State :=
  match getModelRun c s with
  | none => s
  | some r => complete c stOk r.rows 0 [] (dropModelRun c (consume r s))

/-! Messages (R374, R397). -/

/-- Part of an activation block received (R374): discarded when its SEQ is consumed or held whole, else added; acknowledged. -/
def takeBlock (m : Msg) (c : Comp) (s : State) : State :=
  let s := respondSt m stOk s
  let old := (getBlock m.comp m.slot m.seq s).map (·.bytes)
  let whole := old.any fun b => (parseAct b m.seq).isSome
  if c.consumed.contains m.seq || whole then s
  else
    let b : Block := { comp := m.comp, slot := m.slot, seq := m.seq, bytes := old.getD [] ++ m.body }
    feedRuns (onFab (fun x => { x with blocks := x.blocks ++ [b] }) (forgetBlock m.comp m.slot m.seq s))

/-- ACT_BLOCK (R374). -/
def execActBlock (src msg : Nat) (s : State) : Host.Outcome State Fault Refusal :=
  .next (handleReq 0x10 2 src msg takeBlock s)

end Sys2Proof.Machine
end

