-- ==== Sys2Proof/Machine/Records.lean ====
section
/-!
DEFINITION. The records addressed to a slot, which a handoff moves and an orphan sweep discards: activation blocks, the sets
received for a shard's open step, its HOLDERS entries, and answered entries of the fabric duplicate table (R374–R379). How a
STATE message carries them is the model's own (DESIGN CHOICE, entry 47).
-/
namespace Sys2Proof.Machine

/-- A record of a slot: what it is, its key, a second word, and its bytes. -/
structure SlotRec where
  kind : Nat
  key : Nat
  aux : Nat
  bytes : List Byte
deriving DecidableEq, Repr

/-- A record as a STATE message carries it. -/
def recOut (r : SlotRec) : List Byte :=
  leBytes 1 r.kind ++ zeros 3 ++ leBytes 4 r.bytes.length ++ leBytes 8 r.key ++ leBytes 8 r.aux ++ r.bytes

/-- The records in some bytes, at most `n`. -/
def recsIn : Nat → List Byte → List SlotRec
  | 0, _ => []
  | n + 1, bs =>
    if bs.length < 24 then []
    else
      let len := field bs 4 4
      if bs.length < 24 + len then []
      else { kind := field bs 0 1, key := field bs 8 8, aux := field bs 16 8, bytes := (bs.drop 24).take len }
        :: recsIn n (bs.drop (24 + len))

/-- Whether the table of a composition holds a slot's records: the slot is the table's shard. -/
def slotTable (c : Comp) (slot : Nat) (s : State) : Option Tab :=
  if c.kind = 1 then (getTab c.handle s).bind fun t => if t.desc.shard = slot then some t else none else none

/-- The records of a table's shard: sets received, refresh sets received, HOLDERS. -/
def tabRecs (t : Tab) : List SlotRec :=
  t.sets.map (fun e => { kind := 1, key := e.1, aux := b2n (t.setsDone.contains e.1),
                         bytes := e.2.flatMap fun x => leBytes 8 x.1 ++ fit (2 * t.desc.dim) x.2 })
    ++ t.refreshed.map (fun k => { kind := 2, key := k, aux := 0, bytes := [] })
    ++ t.holders.map fun e => { kind := 3, key := e.1, aux := 0, bytes := e.2.flatMap (leBytes 2) }

/-- The entries of the fabric duplicate table addressed to a slot whose requests are answered. -/
def dupRecs (id slot : Nat) (s : State) : List SlotRec :=
  (s.fab.fdups.filter fun d => d.comp == id && d.slot == slot).filterMap fun d =>
    let key := d.src * 2 ^ 32 + d.reqId
    match d.state with
    | .running => none
    | .stored m => some { kind := 4, key := key, aux := 1, bytes := msgBytes m }
    | .unstored => some { kind := 4, key := key, aux := 0, bytes := [] }

/-- The records a node holds of a slot. -/
def slotRecs (id slot : Nat) (s : State) : List SlotRec :=
  match getComp id s with
  | none => []
  | some c =>
    ((s.fab.blocks.filter fun b => b.comp == id && b.slot == slot).map fun b =>
      ({ kind := 0, key := b.seq, aux := 0, bytes := b.bytes } : SlotRec))
      ++ ((slotTable c slot s).map tabRecs).getD [] ++ dupRecs id slot s

/-- The records of a slot deleted. -/
def dropRecs (id slot : Nat) (s : State) : State :=
  match getComp id s with
  | none => s
  | some c =>
    let s := match slotTable c slot s with
      | none => s
      | some _ => onTab c.handle (fun t => { t with sets := [], setsDone := [], refreshed := [], holders := [] }) s
    onFab (fun x => { x with
      blocks := x.blocks.filter fun b => !(b.comp == id && b.slot == slot)
      fdups := x.fdups.filter fun d => !(d.comp == id && d.slot == slot && d.state != .running) }) s

/-- A set entered under its key, unless one is there (R378). -/
def addTabRec (t : Tab) (r : SlotRec) : Tab :=
  match r.kind with
  | 1 =>
    if (tget? t.sets r.key).isSome || t.setsDone.contains r.key then t
    else { t with sets := tput t.sets r.key (bodyEntries t.desc r.bytes)
                  setsDone := if r.aux = 1 then t.setsDone ++ [r.key] else t.setsDone }
  | 2 => if t.refreshed.contains r.key then t else { t with refreshed := t.refreshed ++ [r.key] }
  | 3 =>
    if (tget? t.holders r.key).isSome then t
    else { t with holders := tput t.holders r.key ((List.range (r.bytes.length / 2)).map fun i => field r.bytes (2 * i) 2) }
  | _ => t

/-- An entry of the duplicate table taken over (R378). -/
def addDupRec (c : Comp) (id slot : Nat) (r : SlotRec) (s : State) : State :=
  let src := r.key / 2 ^ 32
  let req := r.key % 2 ^ 32
  let now := timeUs s
  let p : Partial := { src := 0, msgId := 0, cls := 1, dpart := c.part, bytes := [] }
  let st : FDupState := if r.aux = 1 then .stored { readMsg p src r.bytes with cls := (kindClass (field r.bytes 0 1)).getD 1 }
    else .unstored
  if s.fab.fdups.any fun d => d.src == src && d.reqId == req then s
  else
    let d : FDup := { src := src, reqId := req, comp := id, slot := slot, part := c.part, at0 := now,
                      hold := 4 * treqOf id s, state := st }
    onFab (fun x => { x with fdups := x.fdups ++ [d] }) s

/-- A record taken over: one already held under its key stands (R378). -/
def addRec (c : Comp) (id slot : Nat) (s : State) (r : SlotRec) : State :=
  match r.kind with
  | 0 =>
    if c.consumed.contains r.key || (getBlock id slot r.key s).isSome then s
    else
      let b : Block := { comp := id, slot := slot, seq := r.key, bytes := r.bytes }
      onFab (fun x => { x with blocks := x.blocks ++ [b] }) s
  | 4 => addDupRec c id slot r s
  | _ => if (slotTable c slot s).isSome then onTab c.handle (fun t => addTabRec t r) s else s

/-- A slot put into a state. -/
def setSlot (id slot : Nat) (st : SlotState) (s : State) : State :=
  let now := timeUs s
  onSlot id slot (fun x => { x with state := st, since := now }) s

/-- Records of a slot discarded by a sweep: the commands that wait on them end NOT_OWNER, and they are counted (R379). -/
def discardRecs (id slot : Nat) (s : State) : State :=
  let n := (slotRecs id slot s).length
  match getComp id s with
  | none => s
  | some c =>
    if n = 0 then s
    else
      let closes := if (slotTable c slot s).isSome then s.emb.cmds.filter fun e => e.handle == c.handle && e.kind == .close
        else []
      let runs := s.til.runs.filter fun r => r.comp == id && r.srcBulk && r.slot == slot && r.input.isNone
      let s := dropRecs id slot s
      let s := onFabCounts (fun x => { x with orphans := wrap64 (x.orphans + n) }) s
      let s := closes.foldl (fun s e => if e.phase = .sets then failEmb e.ref stNotOwner 0 s else s) s
      runs.foldl (fun s r => failRun r.ref stNotOwner 0 s) s

end Sys2Proof.Machine
end

