-- ==== Sys2Proof/Machine/Compositions.lean ====
section
/-!
DEFINITION. COMPOSE and HANDOFF, the ownership of slots, and members that are lost (R366–R370, R375–R383).
-/
namespace Sys2Proof.Machine

/-! COMPOSE (R366, R367, R370). -/

/-- Fields of COMPOSE (R366). -/
def cmpKind (ps : List Byte) : Nat := field ps 1 1
/-- HANDLE. -/
def cmpHandle (ps : List Byte) : Nat := field ps 2 2
/-- PARTITION. -/
def cmpPart (ps : List Byte) : Nat := field ps 4 1
/-- COMP_ID. -/
def cmpId (ps : List Byte) : Nat := field ps 8 4
/-- EPOCH. -/
def cmpEpoch (ps : List Byte) : Nat := field ps 12 4
/-- MEMBERS. -/
def cmpMembers (ps : List Byte) : Nat := field ps 16 4

/-- Whether a field of the block lies outside the range its table gives for every OP (R15, R366). -/
def composeRangeBad (ps : List Byte) : Bool :=
  let n := cmpMembers ps
  let t := field ps 24 4
  let b := field ps 28 4
  2 < field ps 0 1 || 2 < cmpKind ps || 63 < cmpPart ps || cmpId ps == 0 || n < 1 || 65536 < n
    || (t != 0 && (t < 200 || 1000000 < t)) || (if cmpKind ps = 2 then b < 1 || 4096 < b else b != 0)

/-- What every COMPOSE block must be (R6, R366). -/
def composeBlockBad (k : Cmd) (ps : List Byte) : Bool :=
  !k.pptr || ps.length != 64 || composeRangeBad ps || !zeroField ps 5 3 || !zeroField ps 22 2 || !zeroField ps 32 32

/-- The members of an input: one entry of 4 bytes per slot (R366). -/
def membersOf (n : Nat) (inp : List Byte) : List (Nat × Nat) :=
  (List.range n).map fun i => (field inp (4 * i) 2, field inp (4 * i + 2) 1)

/-- The epoch and the input of INSTALL (R15, R366). -/
def installRangeBad (ps inp : List Byte) : Bool :=
  let n := cmpMembers ps
  cmpEpoch ps == 0 || inp.length != 4 * n
    || (List.range n).any fun i => field inp (4 * i + 3) 1 != 0 || 63 < field inp (4 * i + 2) 1

/-- Whether a table composition names this node's shard wrongly (R367). -/
def tableMembersBad (h : Nat) (ms : List (Nat × Nat)) (s : State) : Bool :=
  match getTab h s with
  | none => true
  | some t => t.desc.shards != ms.length || ownSlot ms s != t.desc.shard

/-- The cases of R367 that are BAD_PARAM. -/
def installBad (ps inp : List Byte) (s : State) : Bool :=
  let ms := membersOf (cmpMembers ps) inp
  let nodes := ms.map (·.1)
  (match getComp (cmpId ps) s with
    | none => false
    | some c => cmpEpoch ps ≤ c.epoch || c.kind != cmpKind ps || c.handle != cmpHandle ps || c.part != cmpPart ps)
    || nodes.any (fun n => n != s.nodeId && !routeValid n s) || hasTwice nodes || !nodes.contains s.nodeId
    || (cmpKind ps == 1 && tableMembersBad (cmpHandle ps) ms s)

/-- Slots after an INSTALL (R375): a node newly named for a slot holds NONE. -/
def slotsAfter (me now : Nat) (t : Table Slot) : Table Slot :=
  if (tget? t me).isSome then t else tput t me { slotReset me with since := now }

/-- A composition as an INSTALL leaves it (R367). -/
def installed (old : Option Comp) (ps inp : List Byte) (s : State) : Comp :=
  let ms := membersOf (cmpMembers ps) inp
  let now := timeUs s
  let drain := if field ps 20 2 = 0 then s.fab.drainDefault else field ps 20 2
  { kind := cmpKind ps, handle := cmpHandle ps, part := cmpPart ps, epoch := cmpEpoch ps, members := ms
    prev := old.map fun c => { epoch := c.epoch, members := c.members, endsAt := now + drain }
    windowEnd := some (now + drain), drainUs := field ps 20 2, treqUs := field ps 24 4, rxbufMib := field ps 28 4
    lost := [], shorts := ((old.map (·.shorts)).getD []), slots := slotsAfter (ownSlot ms s) now ((old.map (·.slots)).getD [])
    consumed := (old.map (·.consumed)).getD [], nextToken := ((old.map (·.nextToken)).getD 2147483648)
    sweptAt := (old.map (·.sweptAt)).getD now }

/-- The state with a composition installed. -/
def putComp (id : Nat) (c : Comp) (s : State) : State := onFab (fun x => { x with comps := tput x.comps id c }) s

/-- The checks of INSTALL (R367), refused while a reset asked for by FW_ARM is due (R516). -/
def installCheck (k : Cmd) (ps inp : List Byte) (s : State) : Verdict :=
  if composeBlockBad k ps || installRangeBad ps inp || installBad ps inp s then .fail stBadParam 0
  else
    let old := getComp (cmpId ps) s
    let p := cmpPart ps
    firstFail [
      ((getPtn p s).shares.fabShare == 0 || s.board.boot.resetReq.isSome, stRefused),
      (old.isNone && 1024 ≤ s.fab.comps.length, stNoResource),
      (cmpKind ps == 2 && !dramOk p (putComp (cmpId ps) (installed old ps inp s) s), stNoResource)]

/-- COMPOSE with OP INSTALL (R367). -/
def execComposeInstall (c : CmdRef) (d : CmdIn) (s : State) : Host.Outcome State Fault Refusal :=
  .next (begin 0x38 (fun ps => opIs 0 ps || 2 < field ps 0 1) c d installCheck
    (fun k ps inp s =>
      let id := cmpId ps
      completeSt k.ref stOk (putComp id (installed (getComp id s) ps inp s) s)) s)

/-- What a command gets that names a composition which is not installed (R368). -/
def needComp (k : Cmd) (ps inp : List Byte) (id : List Byte → Nat) (bad : Cmd → List Byte → List Byte → State → Verdict)
    (s : State) : Verdict :=
  match bad k ps inp s with
  | .go => if (getComp (id ps) s).isNone then .fail stNotOwner 0 else .go
  | v => v

/-- Bytes of READ's result (R370). -/
def readLen (id : Nat) (s : State) : Nat := 64 + ((getComp id s).map (fun c => 5 * c.members.length)).getD 0

/-- READ's result (R370): the block, the members, and their LOST bit with this node's own slot state. -/
def compBytes (id : Nat) (c : Comp) (s : State) : List Byte :=
  let me := ownSlot c.members s
  leBytes 1 0 ++ leBytes 1 c.kind ++ leBytes 2 c.handle ++ leBytes 1 c.part ++ zeros 3 ++ leBytes 4 id ++ leBytes 4 c.epoch
    ++ leBytes 4 c.members.length ++ leBytes 2 c.drainUs ++ zeros 2 ++ leBytes 4 c.treqUs ++ leBytes 4 c.rxbufMib ++ zeros 32
    ++ (c.members.flatMap fun m => leBytes 2 m.1 ++ leBytes 1 m.2 ++ zeros 1)
    ++ c.members.zipIdx.map fun m =>
      BitVec.ofNat 8 (b2n (c.lost.contains m.1.1) + if m.2 = me then 2 * (getSlot c me).state.code else 0)

/-- COMPOSE with OP READ (R370). -/
def execComposeRead (c : CmdRef) (d : CmdIn) (s : State) : Host.Outcome State Fault Refusal :=
  .next (begin 0x38 (opIs 2) c d
    (fun k ps inp s => needComp k ps inp cmpId (fun k ps _ s =>
      firstFail [(composeBlockBad k ps || k.dataLen != 0, stBadParam),
        ((getComp (cmpId ps) s).isSome && k.resultLen < readLen (cmpId ps) s, stBadParam)]) s)
    (fun k ps _ s =>
      match getComp (cmpId ps) s with
      | none => s
      | some x => finish k.ref d.resultOk stOk 0 0 (compBytes (cmpId ps) x s) s) s)

/-! Commands that wait on a composition (R370, R379, R381). -/

/-- A command ended whose request of a kind to a slot ends without an answer (R314, R362, R381). -/
def endWaiter (kind : Nat) (c : CmdRef) (slot st : Nat) (s : State) : State :=
  if kind = 0x01 then failComposed c st s
  else if kind = 0x10 then failRun c st 0 s
  else embReqEnds c slot st s

/-- A handoff of this node ended: the source keeps the slot, its command completes (R377, R383). -/
def endHandoff (id slot st : Nat) (back : SlotState) (s : State) : State :=
  match getComp id s with
  | none => s
  | some c =>
    let x := getSlot c slot
    let s := onFab (fun f => { f with reqs := f.reqs.filter fun r => r.waiter != .handoff id slot }) s
    let s := setSlot id slot back (onSlot id slot (fun x => { x with cmd := none, token := 0 }) s)
    match x.cmd with
    | none => s
    | some k => complete k st (if st = stOk then x.count else 0) 0 [] s

/-- The slots of a composition whose handoff runs here. -/
def offering (c : Comp) : List Nat := (c.slots.filter fun e => e.2.state == .offering).map (·.1)

/-- The requests of other nodes that a composition's end leaves without an answer: held ones and sub-searches (R370). -/
def endRequests (id : Nat) (s : State) : State :=
  let held := (s.fab.held.filter fun h => h.1.comp == id).map (·.1)
  let subs := s.fab.subs.filter fun x => x.msg.comp == id
  let s := held.foldl (fun s m => respondSt m stNotOwner (unholdMsg m s)) s
  subs.foldl (fun s x => pump (completeSt x.ref stNotOwner (dropQuery x.ref s))) s

/-- Every command and request that uses a composition ended NOT_OWNER (R370). -/
def endUsers (id : Nat) (c : Comp) (s : State) : State :=
  let s := endRequests id s
  let s := (s.fab.searches.filter (·.comp == id)).foldl (fun s x => failComposed x.ref stNotOwner s) s
  let s := (s.til.runs.filter fun r => r.comp == id).foldl (fun s r => failRun r.ref stNotOwner 0 s) s
  let mine := if c.kind = 1 then (tabCmds c.handle s).filter fun e => (findCmd e.ref s).any (·.epoch != 0) else []
  let s := mine.foldl (fun s e =>
    if e.kind = .close ∧ (e.phase = .commit ∨ e.phase = .refresh) then
      match getTab e.handle s with
      | none => s
      | some t => settleRefresh e.ref ((otherShards t.desc).foldl (fun s k => loseShard e k s) s)
    else failEmb e.ref stNotOwner 0 s) s
  (offering c).foldl (fun s slot => endHandoff id slot stNotOwner .owned s) s

/-- COMPOSE with OP REMOVE (R370). -/
def execComposeRemove (c : CmdRef) (d : CmdIn) (s : State) : Host.Outcome State Fault Refusal :=
  .next (begin 0x38 (opIs 1) c d
    (fun k ps inp s => needComp k ps inp cmpId (fun k ps _ _ =>
      firstFail [(composeBlockBad k ps || k.dataLen != 0, stBadParam)]) s)
    (fun k ps _ s =>
      let id := cmpId ps
      match getComp id s with
      | none => s
      | some x =>
        let s := endUsers id x s
        completeSt k.ref stOk (onFab (fun f => { f with
          comps := tdel f.comps id, blocks := f.blocks.filter (·.comp != id), fdups := f.fdups.filter (·.comp != id) }) s)) s)

/-! Windows and holds (R368, R375). -/

/-- The end of a drain window (R375): the node owns its own slot if it still held NONE, and gives up those it no longer is
named for. -/
def windowEnds (id : Nat) (s : State) : State :=
  match getComp id s with
  | none => s
  | some c =>
    match c.windowEnd with
    | none => s
    | some t =>
      if timeUs s < t then s
      else
        let now := timeUs s
        let me := ownSlot c.members s
        let step : Nat × Slot → Nat × Slot := fun e =>
          if e.1 = me then if e.2.state = .none then (e.1, { e.2 with state := .owned, since := now }) else e
          else if e.2.state = .owned then (e.1, { e.2 with state := .released, since := now }) else e
        onComp id (fun c => { c with windowEnd := none, prev := none, slots := (slotsAfter me now c.slots).map step }) s

/-- DRAIN_WINDOW_END (R375). -/
def execDrainWindowEnd (comp : Nat) (now : Nat) (s : State) : Host.Outcome State Fault Refusal :=
  .next (windowEnds comp (atTime now s))

/-- The kind of composition an opcode names (R368). -/
def kindOf (op : Nat) : Option Nat :=
  if op ∈ [0x01, 0x02, 0x03, 0x08, 0x09, 0x0A, 0x0B] then some 0
  else if op ∈ [0x18, 0x19, 0x1A] then some 1
  else if op = 0x21 then some 2
  else none

/-- What was held for an epoch ends NOT_OWNER after the drain window (R368). -/
def holdExpires (h : HoldRef) (s : State) : State :=
  match h with
  | .command c =>
    match findCmd c s with
    | none => s
    | some k =>
      match (kindOf k.opcode).bind fun n => compFor n k.handle s with
      | none => s
      | some (_, x) =>
        if k.phase = .waiting ∧ x.epoch < k.epoch ∧ k.fetched + drainOf x s ≤ timeUs s then completeSt c stNotOwner s else s
  | .message src msg =>
    match s.fab.held.find? fun m => m.1.src == src && m.1.msgId == msg with
    | none => s
    | some m =>
      match getComp m.1.comp s with
      | none => s
      | some x =>
        if x.epoch < m.1.epoch ∧ m.2 + drainOf x s ≤ timeUs s then respondSt m.1 stNotOwner (unholdMsg m.1 s) else s

/-- EPOCH_HOLD_EXPIRY (R368). -/
def execEpochHoldExpiry (hold : HoldRef) (now : Nat) (s : State) : Host.Outcome State Fault Refusal :=
  .next (holdExpires hold (atTime now s))

/-! Handoff (R376, R377). -/

/-- Bytes of the records of a slot cut into STATE bodies. -/
def stateBodies (rs : List SlotRec) : List (List Byte) :=
  let bs := rs.flatMap recOut
  chunks 1048576 ((bs.length + 1048575) / 1048576) bs

/-- COMMIT sent (R377 step 3). -/
def sendCommit (id slot token peer dpart epoch : Nat) (s : State) : State :=
  sendOnly (mkMsg peer dpart 0x22 id epoch slot token []) s

/-- The records of a slot sent under a token: OFFER, the STATE messages, then COMMIT (R377 steps 1 and 3). -/
def sendRecs (id slot token peer : Nat) (s : State) : State :=
  match getComp id s with
  | none => s
  | some c =>
    let rs := slotRecs id slot s
    let dpart := ((c.members.find? (·.1 == peer)).map (·.2)).getD 0
    let now := timeUs s
    let s := onSlot id slot (fun x => { x with token := token, peer := peer, at0 := now, count := rs.length }) s
    let s := sendOnly (mkMsg peer dpart 0x20 id c.epoch slot token (leBytes 4 rs.length)) s
    match stateBodies rs with
    | [] => sendCommit id slot token peer dpart c.epoch s
    | b :: rest => sendReq c.part (mkMsg peer dpart 0x21 id c.epoch slot token b) (.handoff id slot) rest s

/-- The checks of HANDOFF (R376), refused while a reset asked for by FW_ARM is due (R516). -/
def handoffCheck (k : Cmd) (ps _inp : List Byte) (s : State) : Verdict :=
  let tok := field ps 16 4
  if tok == 0 || 0x80000000 ≤ tok || k.dataLen != 0 then
    .fail stBadParam 0
  else match getComp (field ps 0 4) s with
    | none => .fail stNotOwner 0
    | some c =>
      let slot := field ps 8 4
      let target := field ps 12 2
      firstFail [
        ((getSlot c slot).state != .owned || field ps 4 4 != c.epoch || slotNode c slot != target
          || c.members.length ≤ slot || target == s.nodeId || s.board.boot.resetReq.isSome, stRefused)]

/-- HANDOFF (R376, R377). -/
def execHandoff (c : CmdRef) (d : CmdIn) (s : State) : Host.Outcome State Fault Refusal :=
  .next (begin 0x39 (fun _ => true) c d handoffCheck
    (fun k ps _ s =>
      let id := field ps 0 4
      let slot := field ps 8 4
      let s := onSlot id slot (fun x => { x with cmd := some k.ref, query := none }) (setSlot id slot .offering s)
      sendRecs id slot (field ps 16 4) (field ps 12 2) s) s)

/-- No ACCEPT within 4 × T_req (R377 step 6): the source has the slot back and asks its owner from then on (R378). A transfer
under a module token is given up. -/
def handoffTimeout (id slot : Nat) (s : State) : State :=
  match getComp id s with
  | none => s
  | some c =>
    let x := getSlot c slot
    let now := timeUs s
    if x.token = 0 ∨ now < x.at0 + 4 * treqOf id s then s
    else if x.state = .offering then
      endHandoff id slot stTimeout .owned (onSlot id slot (fun x => { x with query := some x.peer, queryAt := now }) s)
    else
      onFab (fun f => { f with reqs := f.reqs.filter fun r => r.waiter != .handoff id slot })
        (onSlot id slot (fun x => { x with token := 0 }) s)

/-- HANDOFF_TIMEOUT (R377). -/
def execHandoffTimeout (comp slot : Nat) (now : Nat) (s : State) : Host.Outcome State Fault Refusal :=
  .next (handoffTimeout comp slot (atTime now s))

/-- OFFER (R377 step 2, R378). It waits for an epoch not yet installed. -/
def takeOffer (m : Msg) (s : State) : State :=
  match getComp m.comp s with
  | none => takeMsg m s
  | some c =>
    if c.epoch < m.epoch then s
    else
      let s := takeMsg m s
      let x := getSlot c m.slot
      let start : Slot → Slot := fun x =>
        { x with rxToken := m.seq, announced := field m.body 0 4, rx := [], committed := false }
      if x.rxToken = m.seq ∨ x.lastToken = m.seq then s
      else if 0x80000000 ≤ m.seq then onSlot m.comp m.slot start s
      else match x.state with
        | .none | .released => onSlot m.comp m.slot start (setSlot m.comp m.slot .receiving s)
        | .owned => askOwner m.comp c m.slot m.src s
        | .offering | .receiving => s

/-- OFFER (R377). -/
def execHandoffOffer (src msg : Nat) (s : State) : Host.Outcome State Fault Refusal :=
  .next (match inboxMsg 0x20 src msg s with
    | none => s
    | some m => takeOffer m s)

/-- The target's answer to a COMMIT (R377 step 4). -/
def sendAccept (m : Msg) (c : Comp) (st : Nat) (s : State) : State :=
  sendOnly { mkMsg m.src m.dpart 0x23 m.comp c.epoch m.slot m.seq [] with status := st } s

/-- The target takes the slot once every record is there and COMMIT has come (R377 step 4, R383). -/
def acceptSlot (m : Msg) (s : State) : State :=
  match getComp m.comp s with
  | none => s
  | some c =>
    let x := getSlot c m.slot
    let rs := recsIn x.announced x.rx
    if x.rxToken ≠ m.seq ∨ !x.committed ∨ rs.length < x.announced then s
    else
      let done : Slot → Slot := fun x => { x with rxToken := 0, rx := [], lastToken := m.seq, committed := false }
      let s := onSlot m.comp m.slot done s
      if slotNode c m.slot ≠ s.nodeId then
        sendAccept m c stRedirect (if x.state = .receiving then setSlot m.comp m.slot .none s else s)
      else
        let s := rs.foldl (addRec c m.comp m.slot) s
        sendAccept m c stOk (if x.state = .receiving then setSlot m.comp m.slot .owned s else s)

/-- COMMIT (R377 step 4): answered again for the token taken last; it waits for its OFFER. -/
def takeCommit (m : Msg) (s : State) : State :=
  match getComp m.comp s with
  | none => takeMsg m s
  | some c =>
    let x := getSlot c m.slot
    if x.lastToken = m.seq then sendAccept m c (if slotNode c m.slot = s.nodeId then stOk else stRedirect) (takeMsg m s)
    else if x.rxToken = m.seq then
      acceptSlot m (onSlot m.comp m.slot (fun x => { x with committed := true }) (takeMsg m s))
    else if x.state = .owned ∧ m.seq < 0x80000000 then takeMsg m s
    else s

/-- COMMIT (R377). -/
def execHandoffCommit (src msg : Nat) (s : State) : Host.Outcome State Fault Refusal :=
  .next (match inboxMsg 0x22 src msg s with
    | none => s
    | some m => takeCommit m s)

/-- Records received (R377 step 3): added to the transfer they belong to; kept until its OFFER has come. -/
def takeState (m : Msg) (s : State) : State :=
  match getComp m.comp s with
  | none => respondSt m stNotOwner (unholdMsg m s)
  | some c =>
    let x := getSlot c m.slot
    if x.lastToken = m.seq then respondSt m stOk (unholdMsg m s)
    else if x.rxToken = m.seq then
      acceptSlot m (respondSt m stOk (onSlot m.comp m.slot (fun x => { x with rx := x.rx ++ m.body }) (unholdMsg m s)))
    else holdMsg m s

/-- STATE (R377). -/
def execHandoffState (src msg : Nat) (s : State) : Host.Outcome State Fault Refusal :=
  .next (match inboxMsg 0x21 src msg s with
    | some m =>
      let (s, go) := fabricDup m (takeMsg m s)
      if go then takeState m s else s
    | none =>
      match s.fab.held.find? fun h => h.1.kind == 0x21 && h.1.src == src && h.1.msgId == msg with
      | some h => takeState h.1 s
      | none => s)

/-- ACCEPT (R377 step 5, R383): the source gives the slot up and deletes the records; on REDIRECT it keeps the slot. -/
def takeAccept (m : Msg) (s : State) : State :=
  match getComp m.comp s with
  | none => s
  | some c =>
    let x := getSlot c m.slot
    if x.token ≠ m.seq ∨ x.peer ≠ m.src then s
    else if m.status ≠ stOk then
      if x.state = .offering then endHandoff m.comp m.slot stRefused .owned s
      else onSlot m.comp m.slot (fun x => { x with token := 0 }) s
    else if x.state = .offering then endHandoff m.comp m.slot stOk .released (dropRecs m.comp m.slot s)
    else onSlot m.comp m.slot (fun x => { x with token := 0 }) (dropRecs m.comp m.slot s)

/-- ACCEPT (R377). -/
def execHandoffAccept (src msg : Nat) (s : State) : Host.Outcome State Fault Refusal :=
  .next (handleCtrl 0x23 src msg takeAccept s)

/-! Two owners, or none (R378). -/

/-- Which of two nodes owns a slot (R378). -/
def iOwn (myEpoch me peerEpoch peer : Nat) : Bool := if myEpoch = peerEpoch then me < peer else peerEpoch < myEpoch

/-- Whether two nodes disagree about a slot: both claim it, or both deny it. -/
def disagree (mine peer : Nat) : Bool :=
  (mine == 1 && peer == 1) || ((mine == 0 || mine == 4) && (peer == 0 || peer == 4))

/-- A disagreement decided (R378): the winner owns the slot; the loser gives it up and sends its records under a module
token. -/
def decideOwner (m : Msg) (c : Comp) (s : State) : State :=
  if !disagree (getSlot c m.slot).state.code (field m.body 0 1) then s
  else if iOwn c.epoch s.nodeId m.epoch m.src then setSlot m.comp m.slot .owned s
  else
    let s := setSlot m.comp m.slot .released s
    if (slotRecs m.comp m.slot s).isEmpty then s
    else
      let next : Nat := 2147483648 + (c.nextToken + 1) % 2147483648
      sendRecs m.comp m.slot c.nextToken m.src (onComp m.comp (fun c => { c with nextToken := next }) s)

/-- OWNER_QUERY (R378): answered with this node's state, then decided. -/
def execOwnerQuery (src msg : Nat) (s : State) : Host.Outcome State Fault Refusal :=
  .next (handleCtrl 0x24 src msg (fun m s =>
    match getComp m.comp s with
    | none => s
    | some c =>
      let st := leBytes 1 (getSlot c m.slot).state.code
      decideOwner m c (sendOnly (mkMsg m.src m.dpart 0x25 m.comp c.epoch m.slot 0 st) s)) s)

/-- OWNER_ANS (R378). -/
def execOwnerAns (src msg : Nat) (s : State) : Host.Outcome State Fault Refusal :=
  .next (handleCtrl 0x25 src msg (fun m s =>
    match getComp m.comp s with
    | none => s
    | some c => decideOwner m c (onSlot m.comp m.slot (fun x => { x with query := none }) s)) s)

/-- The OWNER_QUERY that a source sends every T_req after a handoff that timed out (R378). -/
def retryQuery (id slot : Nat) (s : State) : State :=
  match getComp id s with
  | none => s
  | some c =>
    let now := timeUs s
    match (getSlot c slot).query with
    | none => s
    | some node =>
      if now < (getSlot c slot).queryAt + treqOf id s then s
      else askOwner id c slot node (onSlot id slot (fun x => { x with queryAt := now }) s)

/-- OWNER_QUERY_RETRY (R378). -/
def execOwnerQueryRetry (comp slot : Nat) (now : Nat) (s : State) : Host.Outcome State Fault Refusal :=
  .next (retryQuery comp slot (atTime now s))

/-- The slots that a node may hold records of. -/
def recSlots (id : Nat) (c : Comp) (s : State) : List Nat :=
  distinct (c.slots.map (·.1) ++ (s.fab.blocks.filter (·.comp == id)).map (·.slot)
    ++ (s.fab.fdups.filter (·.comp == id)).map (·.slot) ++ match getTab c.handle s with
      | some t => if c.kind = 1 then [t.desc.shard] else []
      | none => [])

/-- Whether a sweep discards the records of a slot (R379). -/
def orphaned (id : Nat) (c : Comp) (now slot : Nat) (s : State) : Bool :=
  let x := getSlot c slot
  ((x.state == .none || x.state == .released) && x.since + 4 * treqOf id s ≤ now) || c.lost.contains (slotNode c slot)

/-- The orphan sweep of a composition, every 4 × T_req (R379). -/
def orphanSweep (id : Nat) (s : State) : State :=
  match getComp id s with
  | none => s
  | some c =>
    let now := timeUs s
    if now < c.sweptAt + 4 * treqOf id s then s
    else
      let due := (recSlots id c s).filter fun n => orphaned id c now n s
      onComp id (fun c => { c with sweptAt := now }) (due.foldl (fun s n => discardRecs id n s) s)

/-- ORPHAN_SWEEP (R379). -/
def execOrphanSweep (comp : Nat) (now : Nat) (s : State) : Host.Outcome State Fault Refusal :=
  .next (orphanSweep comp (atTime now s))

/-! Acknowledgements, timeouts and lost members (R362, R374, R377, R380, R381, R383, R397). -/

/-- The DETAIL of a command that a fabric answer ends. -/
def ackFails (r : Req) (m : Msg) (c : CmdRef) (s : State) : State :=
  let detail := answerDetail m 0
  if r.msg.kind = 0x10 then failRun c m.status detail s
  else match getEmb c s with
    | none => s
    | some e => if e.kind = .close ∧ e.phase = .refresh then embReqEnds c r.msg.slot m.status s else failEmb c m.status detail s

/-- A BULK message acknowledged (R362, R374): the next part is sent, or the transfer is whole. -/
def takeAck (r : Req) (m : Msg) (s : State) : State :=
  match r.waiter with
  | .command c =>
    if m.status ≠ stOk then ackFails r m c s
    else match r.rest with
      | b :: rest => sendReq r.part { r.msg with body := b, resent := false } r.waiter rest s
      | [] => if r.msg.kind = 0x10 then ackedRun c s else unawait c r.msg.slot s
  | .handoff id slot =>
    if m.status ≠ stOk then s
    else match r.rest with
      | b :: rest => sendReq r.part { r.msg with body := b, resent := false } r.waiter rest s
      | [] => sendCommit id slot r.msg.seq r.msg.dst r.msg.dpart r.msg.epoch s

/-- BULK_ACK (R374). -/
def execBulkAck (src msg : Nat) (s : State) : Host.Outcome State Fault Refusal :=
  .next (handleRsp 0x11 src msg takeAck s)

/-- A request's timeout (R362, R380): its record is freed, its command ends TIMEOUT, the node is probed. -/
def requestTimeout (id : Nat) (s : State) : State :=
  match s.fab.reqs.find? (·.id == id) with
  | none => s
  | some r =>
    if timeUs s < r.at0 + r.treq then s
    else
      let now := timeUs s
      let s := onXq r.part (fun c => { c with timeouts := wrap64 (c.timeouts + 1) }) (dropReq id s)
      let s := if s.fab.probes.any (·.node == r.msg.dst) then s
        else
          let p : Probe := { node := r.msg.dst, at0 := now, treq := r.treq }
          sendOnly (mkMsg r.msg.dst r.msg.dpart 0x28 0 0 0 0 []) (onFab (fun x => { x with probes := x.probes ++ [p] }) s)
      match r.waiter with
      | .command c => endWaiter r.msg.kind c r.msg.slot stTimeout s
      | .handoff _ _ => s

/-- REQUEST_TIMEOUT (R362). -/
def execRequestTimeout (req : Nat) (now : Nat) (s : State) : Host.Outcome State Fault Refusal :=
  .next (requestTimeout req (atTime now s))

/-- The commands and the handoffs that wait on a lost member of a composition end NOT_OWNER (R381, R383). -/
def endWaiting (id node : Nat) (s : State) : State :=
  let rs := s.fab.reqs.filter fun r => r.msg.comp == id && r.msg.dst == node
  let s := rs.foldl (fun s r => match r.waiter with
    | .command c => endWaiter r.msg.kind c r.msg.slot stNotOwner (dropReq r.id s)
    | .handoff _ _ => s) s
  match getComp id s with
  | none => s
  | some c =>
    (c.slots.filter fun e => e.2.state == .offering && e.2.peer == node).foldl
      (fun s e => endHandoff id e.1 stNotOwner .owned s) s

/-- A node marked LOST in a composition that names it (R380). -/
def markLost (node : Nat) (s : State) (id : Nat) : State :=
  let set : Comp → Comp := fun c => { c with lost := if c.lost.contains node then c.lost else c.lost ++ [node] }
  endWaiting id node (onComp id set s)

/-- The compositions that name a node. -/
def compsWith (node : Nat) (s : State) : List (Nat × Comp) := s.fab.comps.filter fun e => e.2.members.any (·.1 == node)

/-- A composition's other members told of a loss, and the loss recorded (R380); the lane of the record is open, and free. -/
def tellLost (node : Nat) (s : State) (e : Nat × Comp) : State :=
  let others := e.2.members.filter fun m => m.1 != node && m.1 != s.nodeId
  let s := others.foldl (fun s m => sendOnly (mkMsg m.1 m.2 0x2A e.1 e.2.epoch 0 0 (leBytes 2 node)) s) s
  let lane := (Config.freeValue s.free).toNat % 256
  fileRec { mkRec 0x07 2 7 (locFabric lane node e.1) with part := e.2.part } (takeFree 1 s)

/-- A member is lost: its PROBE found no answer within T_req (R380). -/
def memberLost (node : Nat) (s : State) : State :=
  match s.fab.probes.find? (·.node == node) with
  | none => s
  | some p =>
    if timeUs s < p.at0 + p.treq then s
    else
      let s := onFab (fun x => { x with probes := x.probes.filter (·.node != node) }) s
      let cs := compsWith node s
      let s := (cs.map (·.1)).foldl (markLost node) s
      cs.foldl (tellLost node) s

/-- MEMBER_LOST (R380). -/
def execMemberLost (node : Nat) (now : Nat) (s : State) : Host.Outcome State Fault Refusal :=
  .next (memberLost node (atTime now s))

/-- LOST (R380): the member named is marked likewise. -/
def execLostNotice (src msg : Nat) (s : State) : Host.Outcome State Fault Refusal :=
  .next (handleCtrl 0x2A src msg (fun m s =>
    let node := field m.body 0 2
    ((compsWith node s).map (·.1)).foldl (markLost node) s) s)

end Sys2Proof.Machine
end

