-- ==== Sys2Proof/Machine/Abort.lean ====
section
/-!
DEFINITION. Ending commands before they are done: ABORT, deadlines, function level resets and adoption (R57, R64–R70, R223,
R261, R314, R340, R365).
-/
namespace Sys2Proof.Machine

/-- Whether ABORT, a deadline or a reset no longer reaches a command (R65, R178, R314): a mutation whose group has published, a
swap past its step 3, a close that has committed. Any other command can be ended until its completion entry write starts, which
is the step that takes it off the list of commands. -/
def pastEnd (k : Cmd) : Bool := k.committed

/-- A search of a command dropped by the walkers (R66 step 2). -/
def endSearch (c : CmdRef) (s : State) : State := dropQuery c (endComposed c s)

/-- A mutation of a command released with nothing changed (R65, R187). -/
def endGroup (c : CmdRef) (s : State) : State :=
  match s.grp.groups.find? (·.ref == c) with
  | some g => releaseGroup g s
  | none => s

/-- The stall jobs and row operations of a command ended; a slot being derived returns to EMPTY (R223, R231). -/
def endStallWork (c : CmdRef) (s : State) : State :=
  let s := match s.stk.rowCmds.find? (·.ref == c) with
    | some r => if r.form = 1 then onIndex r.handle (clearFilter r.slot) s else s
    | none => s
  let s := dropRowCmd c (dropJobs c s)
  onStk (fun x => { x with runs := x.runs.filter (·.ref != c) }) s

/-- The model work of a command ended (R261, R293). -/
def endModelWork (c : CmdRef) (s : State) : State :=
  let s := if (getModelRun c s).isSome then dropModelRun c s else s
  onTil (fun t => { t with pins := t.pins.filter (·.ref != c), resets := t.resets.filter (·.1 != c) }) s

/-- Whether a staged change belongs to a command. -/
def stagedBy (c : CmdRef) : Staged → Bool
  | .grant r _ | .withdraw r _ | .shares r _ | .ctxCreate r _ _ _ => r == c
  | .ctxGang _ _ | .ctxSlice _ _ => false

/-- The staged change of a command withdrawn. -/
def dropStaged (c : CmdRef) (s : State) : State :=
  onPtn (fun x => { x with ptns := x.ptns.map fun e => (e.1, { e.2 with staged := e.2.staged.filter fun g => !stagedBy c g }) }) s

/-- The handoff of a command ended: the source keeps the slot, and the command is not completed here. -/
def endHandoffOf (c : CmdRef) (s : State) : State :=
  s.fab.comps.foldl (fun s e =>
    (e.2.slots.filter fun x => x.2.cmd == some c).foldl (fun s x =>
      endHandoff e.1 x.1 stAborted .owned (onSlot e.1 x.1 (fun y => { y with cmd := none }) s)) s) s

/-- Everything a command holds released (R65, R66 steps 2 to 7). -/
def releaseCmd (c : CmdRef) (s : State) : State :=
  let s := onMed (fun m => { m with ckptWaiters := m.ckptWaiters.filter (· != c) }) s
  let s := onBoot (fun b => { b with attWaiting := b.attWaiting.filter (·.1 != c) }) s
  endHandoffOf c (dropStaged c (cancelReqs c (endEmb c (endModelWork c (endStallWork c (dropSelect c
    (endGroup c (endSearch c (dropHostItems c s)))))))))

/-- A command ended before its commit point with a status (R57, R65). -/
def endCmd (c : CmdRef) (st : Nat) (s : State) : State :=
  match findCmd c s with
  | none => s
  | some k => if pastEnd k then s else settleAllEmb (completeSt c st (releaseCmd c s))

/-- Commands of a partition's work queues that an ABORT reaches, of the contexts and request IDs chosen (R64). -/
def abortScope (p : Nat) (sel : Cmd → Bool) (s : State) : List CmdRef :=
  (s.host.cmds.filter fun k => k.queue.scope == .part p && k.queue.q < 16 && !k.remote && sel k && !pastEnd k).map (·.ref)

/-- Commands ended ABORTED (R65, R66). -/
def abortAll (cs : List CmdRef) (s : State) : State := cs.foldl (fun s c => endCmd c stAborted s) s

/-- Whether a request ID names a control command of the partition (R64). -/
def namesControl (p rid : Nat) (s : State) : Bool :=
  s.host.cmds.any fun k => k.queue.scope == .part p && k.queue.q == 16 && k.ref.rid == rid

/-- The checks of ABORT (R64). -/
def abortCheck (k : Cmd) (ps _inp : List Byte) (s : State) : Verdict :=
  let sc := field ps 0 1
  let p := field ps 2 1
  let own := match k.queue.scope with
    | .part q => p == q
    | .pf port => servedBy p s == some port
  firstFail [
    (2 < sc || (sc == 1 && 15 < field ps 1 1) || 63 < p || k.dataLen != 0, stBadParam),
    (!own, stRefused),
    (sc == 0 && namesControl p (field ps 4 4) s, stRefused)]

/-- The commands of ABORT's scope. -/
def abortSel (ps : List Byte) (k : Cmd) : Bool :=
  match field ps 0 1 with
  | 0 => k.ref.rid == field ps 4 4
  | 1 => k.queue.q == field ps 1 1
  | _ => true

/-- ABORT (R64–R66): the aborted commands' completions come before its own. -/
def execAbort (c : CmdRef) (d : CmdIn) (s : State) : Host.Outcome State Fault Refusal :=
  .next (begin 0x5F (fun _ => true) c d abortCheck
    (fun k ps _ s =>
      let cs := abortScope (field ps 2 1) (abortSel ps) s
      complete k.ref stOk cs.length 0 [] (abortAll cs s)) s)

/-- DEADLINE_EXPIRY (R57). -/
def execDeadlineExpiry (c : CmdRef) (now : Nat) (s : State) : Host.Outcome State Fault Refusal :=
  let s := atTime now s
  .next (match findCmd c s with
    | none => s
    | some k => if k.deadline ≠ 0 ∧ !k.remote ∧ k.fetched + k.deadline ≤ timeUs s then endCmd c stTimeout s else s)

/-! Function level reset (R67). -/

/-- The 17 queue pairs of a partition. -/
def partQueues (p : Nat) : List QRef := (List.range 17).map fun n => { scope := .part p, q := n }

/-- A reset of the VF of a partition (R67): an ABORT with SCOPE 2, then ENABLE cleared on every queue pair. -/
def resetPartition (p : Nat) (s : State) : State :=
  (partQueues p).foldl (fun s q => disableQueue q s) (abortAll (abortScope p (fun _ => true) s) s)

/-- A function is in D0 again after a reset (R32). -/
def leaveD3 (f : Fn) (s : State) : State := onHost (fun h => { h with d3 := h.d3.filter (· != f) }) s

/-- FUNCTION_LEVEL_RESET_VF (R67): VF n of a port is live while partition n − 1 is assigned to it (R33). -/
def execFunctionLevelResetVf (port : Port) (n : Nat) (s : State) : Host.Outcome State Fault Refusal :=
  .next (if 1 ≤ n ∧ servedBy (n - 1) s = some port then leaveD3 ⟨port, n⟩ (resetPartition (n - 1) s) else s)

/-- A reset of a PF (R67): its control queue is disabled, VF Enable is cleared, every VF of the port is reset; control
commands that run complete without their entries; the heartbeat watch is no longer armed (R68). DESIGN CHOICE (log 105): control
commands fetched and not yet begun run in their turn later, and their entries are discarded too. -/
def resetPf (port : Port) (s : State) : State :=
  let q : QRef := { scope := .pf port, q := 16 }
  let muted : Cmd → Cmd := fun k => { k with mute := true }
  let s := onHost (fun h => { h with
    vfEnable := h.vfEnable.filter (· != port), hbArmed := h.hbArmed.filter (· != port)
    cmds := updWhere (fun k : Cmd => k.queue == q) muted h.cmds }) s
  let s := disableQueue q s
  ((List.range 64).filter fun p => servedBy p s == some port).foldl (fun s p => resetPartition p s) s

/-- FUNCTION_LEVEL_RESET_PF (R67). -/
def execFunctionLevelResetPf (port : Port) (s : State) : Host.Outcome State Fault Refusal :=
  .next (leaveD3 ⟨port, 0⟩ (resetPf port s))

/-! Adoption (R69). -/

/-- The partitions of a mask. -/
def maskParts (mask : Nat) : List Nat := (List.range 64).filter fun p => bit mask p

/-- The queue pairs of a partition DISABLED at once. -/
def stopQueues (p : Nat) (s : State) : State :=
  (partQueues p).foldl (fun s q => onQueue q (fun x => { x with state := .disabled, enable := false }) s) s

/-- The writes of a partition that wait for the host are not made: its completed commands leave without their entries (R69). -/
def flushHostq (p : Nat) (s : State) : State :=
  let items := hostq p s
  items.foldl (fun s i => match i.2 with
    | .data _ _ _ => s
    | .entry c a dup => writeEntry c a dup s) (setHostq p [] s)

/-- One partition moved to a port (R69 steps 1 to 5): the duplicate table forgets every entry of it that ended ABORTED, now or before. -/
def adoptOne (port : Port) (s : State) (p : Nat) : State :=
  let cs := abortScope p (fun _ => true) s
  let muted : Cmd → Cmd := fun k => { k with mute := true }
  let s := onHost (fun h => { h with cmds := updWhere (fun k : Cmd => k.queue.scope == .part p) muted h.cmds }) s
  let s := abortAll cs s
  let s := flushHostq p s
  let s := onHost (fun h => { h with dups := h.dups.filter fun d =>
    !(d.ref.scope == .part p && d.answer.any (·.status == stAborted)) }) s
  onPart p (fun x => { x with port := port }) (stopQueues p s)

/-- The checks of PART_ADOPT (R69). -/
def adoptCheck (k : Cmd) (ps _inp : List Byte) (s : State) : Verdict :=
  let port := cmdPort k s
  firstFail [
    (k.dataLen != 0, stBadParam),
    (!s.host.hbLost.contains port.other || (maskParts (field ps 0 8)).any (fun p => (servedBy p s).isNone), stRefused)]

/-- PART_ADOPT (R69). -/
def execPartAdopt (c : CmdRef) (d : CmdIn) (s : State) : Host.Outcome State Fault Refusal :=
  .next (begin 0x3A (fun _ => true) c d adoptCheck
    (fun k ps _ s =>
      let port := cmdPort k s
      let ps := (maskParts (field ps 0 8)).filter fun p => servedBy p s == some port.other
      complete k.ref stOk ps.length 0 [] (ps.foldl (adoptOne port) s)) s)

end Sys2Proof.Machine
end

