-- ==== Sys2Proof/Machine/Access.lean ====
section
/-!
DEFINITION. How a register write reaches BAR0: the split-write latch, the pages of partitions, and what answers before READY and
while halted (R33–R37, R487, R510).
-/
namespace Sys2Proof.Machine

/-- PF BAR0 offset of a partition's page (R37). -/
def ptnPage (p : Nat) : Nat := 0x100000 + 0x1000 * p

/-- The pending low half of a function: its offset in that function's BAR0 and its value (R36). -/
def pendingLow (f : Fn) (s : State) : Option (Nat × Nat) := tget? s.host.latches (fnKey f)

/-- The latch filled or emptied. -/
def setLatch (f : Fn) (v : Option (Nat × Nat)) (s : State) : State :=
  onHost (fun h => { h with latches := match v with
    | some x => tput h.latches (fnKey f) x
    | none => tdel h.latches (fnKey f) }) s

/-- A write of another register empties the latch first, with a BAD_ACCESS record for the half it discards (R36). -/
def flushLatch (f : Fn) (s : State) : State :=
  match pendingLow f s with
  | none => s
  | some (off, _) => fileBadAccess f 0 off (setLatch f none s)

/-- Whether each port exposes the recovery function in place of its PF (R507, R522). -/
def recoveryFn (s : State) : Bool := s.board.boot.stage == .recovery || s.board.boot.stage == .noIdentity

/-- Where the model puts the DATA window of the recovery function: past the end of a PF's BAR0. -/
def windowBase : Nat := 0x4000000

/-- PF BAR0 offset of an offset in a function's BAR0; none past a BAR or of a VF that is not live (R33, R34). In recovery mode a
port's one function holds the BOOT_ block at 0 and the DATA window at 0x1_0000 (R522). -/
def busOffset (f : Fn) (off : Nat) (s : State) : Option Nat :=
  if f.vf = 0 then
    if recoveryFn s then
      if off < 0x10000 then some (0xC00000 + off) else if off < 0x20000 then some (windowBase + (off - 0x10000)) else none
    else if off < 0x4000000 then some off else none
  else if fnLive f s && off < 0x1000 then some (ptnPage (f.vf - 1) + off) else none

/-- The offset as that function's BAR0 has it (R480). -/
def fnOffset (f : Fn) (off : Nat) : Nat := if f.vf = 0 then off else off % 0x1000

/-- Whether firmware serves: STAGE is READY and the module is not halted (R487, R510). -/
def serving (s : State) : Bool := s.board.boot.stage == .ready && !s.err.halted

/-- Whether an offset answers: GLB_, ERR_ and BOOT_ always, the rest only when the module serves (R487, R510); in recovery mode
BOOT_ alone (R522). -/
def blockAnswers (off : Nat) (s : State) : Bool :=
  (0xC00000 ≤ off && off < 0xD00000) || (recoveryFn s && windowBase ≤ off)
    || (!recoveryFn s && (off < 0x4000 || (0xB00000 ≤ off && off < 0xC00000))) || serving s

/-- Whether a PF write to an offset lies in the page of a partition it may not write (R37): `some none` for a FREE one, `some
(some p)` for one of the other port. -/
def closedPage (f : Fn) (off : Nat) (s : State) : Option (Option Port) :=
  if f.vf = 0 ∧ 0x100000 ≤ off ∧ off < 0x140000 then
    match servedBy ((off - 0x100000) / 0x1000) s with
    | none => some none
    | some p => if p = f.port then none else some (some p)
  else none

/-- A write by a function at a PF BAR0 offset that reaches its register, in a step of its own: `act` is the register's effect.
Whatever it reaches, the latch is emptied (R36); a write to a closed page is discarded with its record (R37). -/
def writeAt (f : Fn) (off : Nat) (act : State → State) (s : State) : State :=
  if f.vf ≠ 0 ∧ !fnLive f s then s
  else if 64 < f.vf then s
  else
    let s := flushLatch f s
    match closedPage f off s with
    | some none => fileBadAccess f 0 off s
    | some (some _) => fileForeign f 0 off s
    | none => if blockAnswers off s then act s else s

/-- Whether a function is one whose BAR0 holds an offset: a PF, or the VF of the partition whose page it is (R34). -/
def holdsPage (f : Fn) (p : Nat) : Bool := f.vf == 0 || f.vf == p + 1

end Sys2Proof.Machine
end

