-- ==== Sys2Proof/Machine/Partitions.lean ====
section
/-!
DEFINITION. PART_CONFIG: creation and destruction of partitions, units, shares, regions, ports and tables, and the changes
that wait for a commit point (R297, R321–R329, R333–R335).
-/
namespace Sys2Proof.Machine

/-! The parameter block (R323). -/

/-- OP of a PART_CONFIG. -/
def pcOp (ps : List Byte) : Nat := field ps 0 1
/-- PARTITION. -/
def pcPart (ps : List Byte) : Nat := field ps 1 1
/-- HANDLE. -/
def pcHandle (ps : List Byte) : Nat := field ps 2 2
/-- SUB. -/
def pcSub (ps : List Byte) : Nat := field ps 4 1

/-- Whether a PART_CONFIG is of an operation. -/
def pcIs (op : Nat) (ps : List Byte) : Bool := pcOp ps == op

/-- Whether a PART_CONFIG is of an operation and sub-operation. -/
def pcIsSub (op sub : Nat) (ps : List Byte) : Bool := pcOp ps == op && pcSub ps == sub

/-- What the block of every PART_CONFIG must be (R6, R323); `used` are the body fields of the operation. -/
def pcBlockBad (k : Cmd) (ps : List Byte) (used : List (Nat × Nat)) : Bool :=
  let op := pcOp ps
  !k.pptr || ps.length != 192 || 9 < op || 63 < pcPart ps || (op != 6 && op != 8 && op != 9 && pcHandle ps != 0)
    || (if op = 8 ∨ op = 9 then 3 < pcSub ps else pcSub ps != 0) || k.dataLen != 0
    || reservedSet ((0, 5) :: used) 0 ps

/-- The partition named must be served by the port the command came on (R323). -/
def pcOwner (k : Cmd) (ps : List Byte) (s : State) : Verdict :=
  match servedBy (pcPart ps) s with
  | none => .fail stBadParam 0
  | some port => if port = cmdPort k s then .go else .fail stRefused 0

/-- The checks every operation but CREATE makes first. -/
def pcCheck (used : List (Nat × Nat)) (more : Nat → List Byte → State → Verdict) (k : Cmd) (ps _inp : List Byte) (s : State) :
    Verdict :=
  if pcBlockBad k ps used then .fail stBadParam 0 else (pcOwner k ps s).andThen (more (pcPart ps) ps s)

/-! Shares (R325). -/

/-- The fields of the SHARES layout. -/
def sharesUsed : List (Nat × Nat) := [(64, 9), (74, 2), (80, 8)]

/-- Shares as the body gives them. -/
def parseShares (ps : List Byte) : Shares :=
  { shelfMib := field ps 64 4, dramMib := field ps 68 4, flashWeight := field ps 72 1, fabShare := field ps 74 2,
    flashPages := field ps 80 8 }

/-- The ranges of R325. -/
def sharesBad (h : Shares) : Bool :=
  256 < h.shelfMib || 290816 < h.dramMib || h.flashWeight == 0 || 256 < h.fabShare || 2 ^ 32 < h.flashPages

/-- Whether the sums over the partitions stay within the module with partition `p` at new shares (R325). -/
def sharesFit (p : Nat) (h : Shares) (s : State) : Bool :=
  let others := (List.range 64).filter fun q => q != p && (getPtn q s).state != .free
  h.shelfMib + sumNat (others.map fun q => (getPtn q s).shares.shelfMib) ≤ 256
    && h.fabShare + sumNat (others.map fun q => (getPtn q s).shares.fabShare) ≤ 256

/-- Slots that the runs of an index are sized for (R76). -/
def runSlots (d : IndexDesc) : Nat := max d.slotCount d.slotLimit

/-- Logical pages an index holds: its crate run and its vector run (R76). -/
def indexPages (d : IndexDesc) : Nat := runSlots d / 64 + (runSlots d + vecsPerPage d - 1) / vecsPerPage d

/-- Logical pages a partition holds. -/
def partPages (p : Nat) (s : State) : Nat :=
  sumNat ((s.srch.indexes.filter fun e => e.2.desc.part == p).map fun e => indexPages e.2.desc)

/-- The checks of new shares for a partition that exists (R325). -/
def sharesVerdict (p : Nat) (h : Shares) (s : State) : Verdict :=
  firstFail [
    (sharesBad h || h.dramMib * 2 ^ 20 < partDram p s || h.flashPages < partPages p s, stBadParam),
    (!sharesFit p h s, stNoResource)]

/-! Units (R326). -/

/-- The UNITS layout. -/
def parseUnits (ps : List Byte) : Units := { tiles := field ps 64 16, walkers := field ps 80 8, stalls := field ps 88 32 }

/-- Fields of the UNITS layout. -/
def unitsUsed : List (Nat × Nat) := [(64, 56)]

/-- The units of a mask set, with their kinds; a walker stands for its pair. -/
def unitList (u : Units) : List (UnitKind × Nat) :=
  ((List.range 128).filter fun n => bit u.tiles n).map (fun n => (UnitKind.tile, n))
    ++ ((List.range 64).filter fun n => bit u.walkers n).map (fun n => (UnitKind.walker, n))
    ++ ((List.range 256).filter fun n => bit u.stalls n).map fun n => (UnitKind.stall, n)

/-- Whether a unit is out of service and awaits its spare (R326): a pair when either half does. -/
def unitWaits (u : UnitKind × Nat) (s : State) : Bool :=
  s.err.outs.any fun o => !o.retired && o.unit == u.2 && (o.kind == u.1 || (u.1 == .walker && o.kind == .tally))

/-- Whether a unit is RETIRED (R491): a pair when either half is. -/
def unitRetired (u : UnitKind × Nat) (s : State) : Bool :=
  s.err.outs.any fun o => o.retired && o.unit == u.2 && (o.kind == u.1 || (u.1 == .walker && o.kind == .tally))

/-- The checks of GRANT (R326, R491). -/
def grantVerdict (p : Nat) (u : Units) (s : State) : Verdict :=
  let l := unitList u
  firstFail [
    (l.any (fun x => unitRetired x s), stRefused),
    (l.any (fun x => (unitOwner x.1 x.2 s).any (· != p)), stNoResource),
    (l.any fun x => unitWaits x s, stBusy)]

/-- Whether a stall holds something that keeps it in its partition: rows of a loaded model, a table's records, a region
(R326). -/
def stallKept (p n : Nat) (s : State) : Bool :=
  s.til.models.any (fun e => e.2.part == p && stallBytes e.2 n != 0)
    || s.emb.tables.any (fun e => e.2.desc.part == p && tabPin e.2.desc n != 0)
    || s.ptn.regions.any fun e => e.2.part == p && e.2.pinned && e.2.stall == n

/-- Whether a unit holds work of a context (R326). -/
def unitWorks (u : UnitKind × Nat) (s : State) : Bool :=
  match u.1 with
  | .tile => s.til.runs.any fun r => r.steps.any fun e => (tget? e.2.work u.2).any fun w => !w.ended
  | .walker => s.srch.queries.any fun q => q.admittedIn && q.walker == u.2
  | .stall => !(getStall u.2 s).jobs.isEmpty
  | _ => false

/-- The checks of WITHDRAW; those of work only at the commit point (R326). -/
def withdrawVerdict (commit : Bool) (p : Nat) (u : Units) (s : State) : Verdict :=
  let l := unitList u
  firstFail [
    (l.any (fun x => unitOwner x.1 x.2 s != some p), stBadParam),
    ((List.range 256).any (fun n => bit u.stalls n && stallKept p n s), stRefused),
    (l.any (fun x => unitWaits x s) || (commit && l.any fun x => unitWorks x s), stBusy)]

/-- Units joined. -/
def addUnits (a b : Units) : Units :=
  { tiles := a.tiles ||| b.tiles, walkers := a.walkers ||| b.walkers, stalls := a.stalls ||| b.stalls }

/-- Units taken away: those of `b` out of `a`. -/
def subUnits (a b : Units) : Units :=
  { tiles := a.tiles ^^^ (a.tiles &&& b.tiles), walkers := a.walkers ^^^ (a.walkers &&& b.walkers),
    stalls := a.stalls ^^^ (a.stalls &&& b.stalls) }

/-- Units gated again (R324). -/
def gateUnits (l : List (UnitKind × Nat)) (s : State) : State :=
  onPtn (fun x => { x with awake := x.awake.filter fun u =>
    !(l.contains u || (u.1 == .tally && l.contains (.walker, u.2))) }) s

/-- Commands that waited for a kind of unit of which a WITHDRAW leaves the partition none (R104, R342): searches, in service or
not; MODEL_RUNs that no tile is left to serve. -/
def endUnserved (p : Nat) (s : State) : State :=
  let waiting := s.srch.queries.filter fun q => q.part == p && q.phase == .waiting
  let u := (getPtn p s).units
  let bad := waiting.filter fun q => u.walkers == 0 || (0 < q.params.d && u.stalls == 0)
  let s := bad.foldl (fun s q => endQuery q.ref stRefused s) s
  let runs := if (liveTiles p s).isEmpty then s.til.runs.filter fun r => r.part == p && !r.sending else []
  pump (runs.foldl (fun s r => match getModel r.handle s with
    | some m => if (List.range m.layers).any fun i => (layerAt m i).kind == 0 && (tget? r.outs i).isNone then
        failRun r.ref stRefused 0 s else s
    | none => s) s)

/-! Staged changes (R333, R335). -/

/-- A context that comes to exist, with its scale records for every READY model (R254, R330). -/
def makeCtx (p n gang us : Nat) (s : State) : State :=
  let s := onPart p (fun x => { x with ctxs := tput x.ctxs n { gang := gang, sliceUs := us, parked := false } }) s
  let give : Model → Model := fun m => if m.part = p ∧ m.ready then { m with recs := tput m.recs n (newRecs m) } else m
  onTil (fun t => { t with models := t.models.map fun e => (e.1, give e.2) }) s

/-- The checks of a context's creation that depend on the state (R330). -/
def ctxVerdict (p n gang us : Nat) (s : State) : Verdict :=
  firstFail [
    ((tget? (getPtn p s).ctxs n).isSome, stBadParam),
    (!dramOk p (makeCtx p n gang us s), stNoResource)]

/-- A staged change's command completed. -/
def endStaged (c : CmdRef) (v : Verdict) (f : State → State) (s : State) : State :=
  match v with
  | .go => completeSt c stOk (f s)
  | .fail st detail => complete c st 0 detail [] s
  | .hold => s

/-- One staged change at the commit point (R326, R333). -/
def applyOne (p : Nat) (s : State) (g : Staged) : State :=
  match g with
  | .grant c u =>
    endStaged c (grantVerdict p u s) (onPart p fun x => { x with units := addUnits x.units u }) s
  | .withdraw c u =>
    endStaged c (withdrawVerdict true p u s) (fun s =>
      endUnserved p (gateUnits (unitList u) (onPart p (fun x => { x with units := subUnits x.units u }) s))) s
  | .shares c h => endStaged c (sharesVerdict p h s) (onPart p fun x => { x with shares := h }) s
  | .ctxGang n gang => onPart p (fun x => { x with ctxs := tmod (fun y => { y with gang := gang }) x.ctxs n }) s
  | .ctxSlice n us => onPart p (fun x => { x with ctxs := tmod (fun y => { y with sliceUs := us }) x.ctxs n }) s
  | .ctxCreate c n gang us => endStaged c (ctxVerdict p n gang us s) (makeCtx p n gang us) s

/-- The commit point of a partition (R333, R335): every staged change, in order. -/
def applyStaged (p : Nat) (s : State) : State :=
  let l := (getPtn p s).staged
  l.foldl (applyOne p) (onPart p (fun x => { x with staged := [] }) s)

/-- Whether a partition's commit point is now (R333). -/
def commitsNow (p : Nat) (s : State) : Bool := (getPtn p s).state == .idle || (getPtn p s).state == .quiesced

/-- Whether a staged change replaces another: the same field (R335). -/
def sameField (a b : Staged) : Bool :=
  match a, b with
  | .ctxGang n _, .ctxGang m _ => n == m
  | .ctxSlice n _, .ctxSlice m _ => n == m
  | _, _ => false

/-- A change staged; it takes effect at once where the commit point is now (R333). -/
def stage (p : Nat) (g : Staged) (s : State) : State :=
  let s := onPart p (fun x => { x with staged := (x.staged.filter fun h => !sameField g h) ++ [g] }) s
  if commitsNow p s then applyStaged p s else s

/-! CREATE, DESTROY, GRANT, WITHDRAW, SHARES (R324–R326). -/

/-- The checks of CREATE (R324, R325). -/
def createCheck (k : Cmd) (ps _inp : List Byte) (s : State) : Verdict :=
  let p := pcPart ps
  if pcBlockBad k ps sharesUsed then .fail stBadParam 0
  else match servedBy p s with
    | some port => if port = cmdPort k s then .fail stBadParam 0 else .fail stRefused 0
    | none => firstFail [(sharesBad (parseShares ps), stBadParam), (!sharesFit p (parseShares ps) s, stNoResource)]

/-- The PTN_ page of a partition with every field at its reset value: the partition FREE, its queue pairs as reset leaves them
(R37). -/
def freshPage (p : Nat) (s : State) : State :=
  onPart p (fun _ => ptnReset p) (onHost (fun h => { h with
    queues := h.queues.filter fun e => !(17 * p ≤ e.1 && e.1 < 17 * p + 17) }) s)

/-- PART_CONFIG CREATE (R37, R324). -/
def execPartConfigCreate (c : CmdRef) (d : CmdIn) (s : State) : Host.Outcome State Fault Refusal :=
  .next (begin 0x30 (fun ps => pcIs 0 ps || 9 < pcOp ps) c d createCheck
    (fun k ps _ s =>
      let port := cmdPort k s
      completeSt k.ref stOk (onPart (pcPart ps) (fun x => { x with state := .idle, port := port, shares := parseShares ps })
        (freshPage (pcPart ps) s))) s)

/-- Whether a partition has anything that keeps it (R324). -/
def partHolds (p : Nat) (s : State) : Bool :=
  !(getPtn p s).ctxs.isEmpty || s.ptn.regions.any (·.2.part == p) || s.srch.indexes.any (·.2.desc.part == p)
    || s.emb.tables.any (·.2.desc.part == p) || s.til.models.any (·.2.part == p)

/-- PART_CONFIG DESTROY (R37, R67, R324). -/
def execPartConfigDestroy (c : CmdRef) (d : CmdIn) (s : State) : Host.Outcome State Fault Refusal :=
  .next (begin 0x30 (pcIs 1) c d (pcCheck [] fun p _ s => firstFail [(partHolds p s, stBusy)])
    (fun k ps _ s =>
      let p := pcPart ps
      let s := resetPartition p s
      completeSt k.ref stOk (freshPage p (gateUnits (unitList (getPtn p s).units) s))) s)

/-- PART_CONFIG GRANT (R326). -/
def execPartConfigGrant (c : CmdRef) (d : CmdIn) (s : State) : Host.Outcome State Fault Refusal :=
  .next (begin 0x30 (pcIs 2) c d (pcCheck unitsUsed fun p ps s => grantVerdict p (parseUnits ps) s)
    (fun k ps _ s => stage (pcPart ps) (.grant k.ref (parseUnits ps)) s) s)

/-- PART_CONFIG WITHDRAW (R326). -/
def execPartConfigWithdraw (c : CmdRef) (d : CmdIn) (s : State) : Host.Outcome State Fault Refusal :=
  .next (begin 0x30 (pcIs 3) c d (pcCheck unitsUsed fun p ps s => withdrawVerdict false p (parseUnits ps) s)
    (fun k ps _ s => stage (pcPart ps) (.withdraw k.ref (parseUnits ps)) s) s)

/-- PART_CONFIG SHARES (R325). -/
def execPartConfigShares (c : CmdRef) (d : CmdIn) (s : State) : Host.Outcome State Fault Refusal :=
  .next (begin 0x30 (pcIs 4) c d (pcCheck sharesUsed fun p ps s => sharesVerdict p (parseShares ps) s)
    (fun k ps _ s => stage (pcPart ps) (.shares k.ref (parseShares ps)) s) s)

/-! Regions (R20, R327). -/

/-- Fields of the REGION layout. -/
def regionUsed : List (Nat × Nat) := [(64, 1), (66, 2), (72, 8)]

/-- The region a block asks for. -/
def parseRegion (ps : List Byte) (s : State) : Region :=
  let pinned := field ps 64 1 == 1
  let n := field ps 66 2
  let bytes := field ps 72 8
  { part := pcPart ps, pinned := pinned, stall := n, row := if pinned then lowestRows (pinnedRows n s) (bytes / 1024) else 0, bytes := bytes,
    mem := [] }

/-- The handle a new region gets: the lowest free one. -/
def newRegionHandle (s : State) : Option Nat := firstFrom (fun h => (tget? s.ptn.regions h).isNone) 1 0xFFFF

/-- The state with a region allocated. -/
def putRegion (h : Nat) (r : Region) (s : State) : State := onPtn (fun x => { x with regions := tput x.regions h r }) s

/-- The checks of REGION_ALLOC (R327). -/
def regionCheck (p : Nat) (ps : List Byte) (s : State) : Verdict :=
  let pinned := field ps 64 1 == 1
  let n := field ps 66 2
  let bytes := field ps 72 8
  let r := parseRegion ps s
  firstFail [
    (1 < field ps 64 1 || (if pinned then 255 < n || bytes < 1024 || pcBytes < bytes || bytes % 1024 != 0
      else n != 0 || bytes < 262144 || 304942678016 < bytes || bytes % 262144 != 0), stBadParam),
    (pinned && unitOwner .stall n s != some p, stRefused),
    ((newRegionHandle s).isNone || (pinned && pcBytes < r.row * 1024 + bytes) || !dramOk p (putRegion 0 r s), stNoResource)]

/-- PART_CONFIG REGION_ALLOC (R327). -/
def execPartConfigRegionAlloc (c : CmdRef) (d : CmdIn) (s : State) : Host.Outcome State Fault Refusal :=
  .next (begin 0x30 (pcIs 5) c d (pcCheck regionUsed regionCheck)
    (fun k ps _ s =>
      match newRegionHandle s with
      | none => completeSt k.ref stNoResource s
      | some h => complete k.ref stOk 0 h [] (putRegion h (parseRegion ps s) s)) s)

/-- Whether a window of a stall job names a region (R200). -/
def regionWindowed (h : Nat) (s : State) : Bool :=
  s.stk.stalls.any fun e => e.2.jobs.any fun j => j.wins.any fun w => w.any (·.region == h)

/-- PART_CONFIG REGION_FREE (R327). -/
def execPartConfigRegionFree (c : CmdRef) (d : CmdIn) (s : State) : Host.Outcome State Fault Refusal :=
  .next (begin 0x30 (pcIs 6) c d
    (pcCheck [] fun p ps s => match getRegion (pcHandle ps) s with
      | none => .fail stBadParam 0
      | some r => firstFail [(r.part != p, stRefused), (regionWindowed (pcHandle ps) s, stConfigBusy)])
    (fun k ps _ s => completeSt k.ref stOk (onPtn (fun x => { x with regions := tdel x.regions (pcHandle ps) }) s)) s)

/-- PART_CONFIG PORT (R329). -/
def execPartConfigPort (c : CmdRef) (d : CmdIn) (s : State) : Host.Outcome State Fault Refusal :=
  .next (begin 0x30 (pcIs 7) c d
    (pcCheck [] fun p _ s => firstFail [((partQueues p).any (fun q => (getQueue q s).state != .disabled), stConfigBusy)])
    (fun k ps _ s => completeSt k.ref stOk (onPart (pcPart ps) (fun x => { x with port := x.port.other }) s)) s)

/-! Tables (R297, R328). -/

/-- Fields of a table descriptor that input gives, at body offsets (R297). -/
def tabUsed : List (Nat × Nat) := [(64, 53), (120, 4), (128, 16)]

/-- A table descriptor of a block. -/
def parseTab (ps : List Byte) : TabDesc :=
  let f : Nat → Nat → Nat := fun o n => field ps (64 + o) n
  { part := f 2 1, elem := f 3 1, dim := f 4 2, opt := f 6 1, addr := f 7 1, rows := f 8 8, rRows := f 16 8, seed := f 24 8,
    shards := f 32 4, shard := f 36 4, fetchRows := f 40 4, ledgerRows := f 44 4, copySlots := f 56 4 }

/-- The ranges of R297. -/
def tabBad (ps : List Byte) (d : TabDesc) : Bool :=
  field ps 64 2 != pcHandle ps || d.part != pcPart ps || pcHandle ps == 0 || 1 < d.elem || d.dim < 32 || 1024 < d.dim
    || d.dim % 32 != 0 || 4 < d.opt || 3 < d.addr || d.rows < 1 || 2 ^ 40 < d.rows
    || (if 2 ≤ d.addr then d.rRows < 1 || 2 ^ 32 < d.rRows else d.rRows != 0) || (d.addr != 1 && d.seed != 0)
    || d.shards < 1 || 65536 < d.shards || d.shards ≤ d.shard || 2 ^ 26 < d.fetchRows || d.fetchRows % 256 != 0
    || 2 ^ 26 < d.ledgerRows || 1048576 < d.copySlots || d.copySlots % 256 != 0

/-- A new table: STEP 0, OPEN, records of zeros, in the lowest rows that are free (R301, R302). -/
def newTab (d : TabDesc) (s : State) : Tab :=
  { desc := d, step := 0, closing := false, recs := [], copies := [], holders := [], fetched := [], ledger := [], adds := []
    sets := [], setsDone := [], refreshed := [], pins := pinPlaces (tabRows d) s }

/-- A table with a new descriptor, in rows of its size (R297). -/
def resizeTab (h : Nat) (d : TabDesc) (t : Tab) (s : State) : Tab :=
  { t with desc := d, pins := pinPlaces (tabRows d) (onEmb (fun x => { x with tables := tdel x.tables h }) s) }

/-- The state with a table. -/
def putTab (h : Nat) (t : Tab) (s : State) : State := onEmb (fun x => { x with tables := tput x.tables h t }) s

/-- Whether the node has room for a table (R21, R297). -/
def tabFits (p h : Nat) (t : Tab) (s : State) : Bool := dramOk p (putTab h t s) && pinsFit (tabRows t.desc) t.pins

/-- PART_CONFIG TABLE CREATE (R297, R328). -/
def execPartConfigTableCreate (c : CmdRef) (d : CmdIn) (s : State) : Host.Outcome State Fault Refusal :=
  .next (begin 0x30 (fun ps => pcIsSub 9 0 ps || (pcIs 9 ps && 3 < pcSub ps)) c d
    (pcCheck tabUsed fun p ps s =>
      let t := parseTab ps
      firstFail [
        (tabBad ps t || (getTab (pcHandle ps) s).isSome, stBadParam),
        (256 ≤ s.emb.tables.length || !tabFits p (pcHandle ps) (newTab t s) s, stNoResource)])
    (fun k ps _ s => completeSt k.ref stOk (putTab (pcHandle ps) (newTab (parseTab ps) s) s)) s)

/-- Whether a command uses a table: one in progress, or one fetched and waiting. -/
def tabUsedBy (h : Nat) (s : State) : Bool :=
  s.emb.cmds.any (·.handle == h) || s.host.cmds.any fun k =>
    k.handle == h && k.opcode ∈ [0x18, 0x19, 0x1A] && k.phase != .finishing

/-- What a PART_CONFIG gets that names a table (R297, R328). -/
def tabVerdict (p : Nat) (ps : List Byte) (s : State) : Verdict :=
  match getTab (pcHandle ps) s with
  | none => .fail stBadParam 0
  | some t => if t.desc.part = p then .go else .fail stRefused 0

/-- A RESIZE raises FETCH_ROWS, LEDGER_ROWS and COPY_SLOTS only (R297). -/
def tabResizeCheck (p : Nat) (ps : List Byte) (s : State) : Verdict :=
  match getTab (pcHandle ps) s with
  | none => .fail stBadParam 0
  | some t =>
    let d := parseTab ps
    let o := t.desc
    let same : Bool := { d with fetchRows := o.fetchRows, ledgerRows := o.ledgerRows, copySlots := o.copySlots } == o
    firstFail [
      (tabBad ps d || !same || d.fetchRows < o.fetchRows || d.ledgerRows < o.ledgerRows || d.copySlots < o.copySlots,
        stBadParam),
      (t.closing || tabUsedBy (pcHandle ps) s, stConfigBusy),
      (!tabFits p (pcHandle ps) (resizeTab (pcHandle ps) d t s) s, stNoResource)]

/-- PART_CONFIG TABLE RESIZE (R297). -/
def execPartConfigTableResize (c : CmdRef) (d : CmdIn) (s : State) : Host.Outcome State Fault Refusal :=
  .next (begin 0x30 (pcIsSub 9 1) c d
    (pcCheck tabUsed fun p ps s => (tabVerdict p ps s).andThen (tabResizeCheck p ps s))
    (fun k ps _ s => completeSt k.ref stOk (onTab (pcHandle ps) (fun t => resizeTab (pcHandle ps) (parseTab ps) t s) s)) s)

/-- PART_CONFIG TABLE DESTROY (R318, R328). -/
def execPartConfigTableDestroy (c : CmdRef) (d : CmdIn) (s : State) : Host.Outcome State Fault Refusal :=
  .next (begin 0x30 (pcIsSub 9 2) c d
    (pcCheck [] fun p ps s => (tabVerdict p ps s).andThen (firstFail [(tabUsedBy (pcHandle ps) s, stBusy)]))
    (fun k ps _ s => completeSt k.ref stOk (onEmb (fun x => { x with tables := tdel x.tables (pcHandle ps) }) s)) s)

/-- A table descriptor as READ returns it (R297). -/
def tabBytes (h : Nat) (t : Tab) : List Byte :=
  let d := t.desc
  leBytes 2 h ++ leBytes 1 d.part ++ leBytes 1 d.elem ++ leBytes 2 d.dim ++ leBytes 1 d.opt ++ leBytes 1 d.addr
    ++ leBytes 8 d.rows ++ leBytes 8 d.rRows ++ leBytes 8 d.seed ++ leBytes 4 d.shards ++ leBytes 4 d.shard
    ++ leBytes 4 d.fetchRows ++ leBytes 4 d.ledgerRows ++ leBytes 4 t.step ++ leBytes 1 (b2n t.closing) ++ zeros 3
    ++ leBytes 4 d.copySlots ++ zeros 4 ++ leBytes 8 (localRows d) ++ leBytes 8 (tabDram t) ++ zeros 48

/-- PART_CONFIG TABLE READ (R328). -/
def execPartConfigTableRead (c : CmdRef) (d : CmdIn) (s : State) : Host.Outcome State Fault Refusal :=
  .next (begin 0x30 (pcIsSub 9 3) c d
    (fun k ps inp s => (pcCheck [] tabVerdict k ps inp s).andThen (firstFail [(k.resultLen < 128, stBadParam)]))
    (fun k ps _ s =>
      match getTab (pcHandle ps) s with
      | none => s
      | some t => finish k.ref d.resultOk stOk 0 0 (tabBytes (pcHandle ps) t) s) s)

end Sys2Proof.Machine
end

