-- ==== Sys2Proof/Machine/Media.lean ====
section
/-!
DEFINITION. The media commands, formatting, mount, and what loss of power leaves (R413, R414, R428, R434–R436, R439–R441,
R444–R447).
-/
namespace Sys2Proof.Machine

/-! The profile (R413). -/

/-- The ranges of a media profile, its reserved bytes and its CHECK (R413). -/
def profileBad (b : List Byte) : Bool :=
  let f : Nat → Nat → Nat := field b
  f 0 4 != 0x46504D51 || f 4 2 != 1 || 1 < f 6 1 || 15 < f 7 1 || f 8 2 < 200 || 3600 < f 8 2
    || 50 * f 8 2 < f 12 1 * (16384 + f 14 2) || f 10 1 < 1 || 8 < f 10 1 || f 11 1 < 1 || 16 < f 11 1
    || 16 < f 10 1 * f 11 1 || f 12 1 < 1 || 6 < f 12 1 || f 13 1 < 1 || 31 < f 13 1 || f 14 2 < 1536 || 4096 < f 14 2
    || f 16 4 % f 12 1 != 0 || 0xFFFFFFFE < 48 * f 10 1 * f 11 1 * f 16 4 * f 20 4 || !zeroField b 29 3
    || 450 < f 32 4 || 3000 < f 36 4 || 20000 < f 40 4 || 100 < f 44 4 || 500 < f 48 4 || !zeroField b 64 60
    || !checkOk 124 b

/-- The check every media command makes: BUSY while MOUNTING (R444). -/
def medCheck (more : Cmd → List Byte → List Byte → State → Verdict) (k : Cmd) (ps inp : List Byte)
    (s : State) : Verdict :=
  if s.med.state = .mounting ∧ k.opcode ≠ 0x44 then .fail stBusy 0
  else more k ps inp s

/-- MED_PROFILE (R413, R445): stored in NOR, in use from the next power-on. -/
def execMedProfile (c : CmdRef) (d : CmdIn) (s : State) : Host.Outcome State Fault Refusal :=
  .next (begin 0x40 (fun _ => true) c d
    (medCheck fun k _ inp s => firstFail [
      (k.dataLen != 128 || profileBad inp, stBadParam),
      (s.med.state != .unconfigured && s.med.state != .unformatted, stRefused)])
    (fun k _ inp s => completeSt k.ref stOk (onMed (fun m => { m with norProfile := some inp }) s)) s)

/-! Mount (R434–R436). -/

/-- A segment with the recovered state (R434 step 7): the map it stands for is durable. -/
def mountSegment (s : State) : State :=
  let seg := makeSegment false 0 [] s
  let now := timeUs s
  onMedCounts (fun c => { c with segments := wrap64 (c.segments + 1) }) (onMed (fun m => { m with
    nextSeg := m.nextSeg + 1, segs := m.segs ++ [seg], durMap := m.map, lastFlush := now, lastCkpt := now }) s)

/-- The good pages a format has (R446). -/
def formatBad (ps : List Byte) : Bool :=
  field ps 0 4 < 2 ^ 20 || field ps 4 1 ∉ [8, 12, 16, 24, 48] || field ps 5 1 != 0xA5 || field ps 6 2 < 64
    || 4096 < field ps 6 2

/-- The format record of a block. -/
def parseFormat (ps : List Byte) : MedFormat :=
  { logicalPages := field ps 0 4, width := field ps 4 1, journalBlocks := field ps 6 2 }

/-- The flash formatted (R446): bad blocks marked, every other block erased, an empty map mounted. Blocks RETIRED before stay
so. -/
def formatFlash (f : MedFormat) (bad : List Nat) (s : State) : State :=
  let gone := (s.med.blocks.filter fun e => e.2.state == .retired).map (·.1) ++ bad.filter fun b => b < blockCount s
  let erased := blockCount s - gone.length
  let base := s.med.eraseBase + 1
  let clean : Nat × NandBlock → Nat × NandBlock := fun e => (e.1, { state := .free, erases := e.2.erases + 1 })
  let kept := (s.med.blocks.map clean).filter fun e => e.2.erases != base
  let s := onMed (fun m => { m with
    eraseBase := base, blocks := gone.foldl (fun t b => tput t b { state := .retired, erases := (getNand b s).erases }) kept
    supers := [], streams := [], pages := [], map := [], durMap := [], trims := [], waiting := [], entries := []
    flushDue := false, writing := none, segs := [], ringPos := 0, jslot1 := [], ckpt := 0, ckptPages := [], running := none
    ckptWaiters := [], collecting := [], victims := [], coldLeft := [], flushWaits := false, gasp := none, unclean := false
    format := some f, state := .ready }) s
  mountSegment (onMedCounts (fun c => { c with erases := wrap64 (c.erases + erased) }) s)

/-- MED_FORMAT (R446): `bad` are the blocks with factory marks. -/
def execMedFormat (c : CmdRef) (d : CmdIn) (bad : List Nat) (s : State) : Host.Outcome State Fault Refusal :=
  .next (begin 0x41 (fun _ => true) c d
    (medCheck fun k ps _ s =>
      let f := parseFormat ps
      let t := formatFlash f bad s
      firstFail [
        (k.dataLen != 0 || formatBad ps, stBadParam),
        (!s.srch.indexes.isEmpty || s.med.state == .unconfigured, stRefused),
        (s.med.held, stNoResource),
        (!capacityOk f.logicalPages f.width t || !nodeDramOk t, stBadParam)])
    (fun k ps _ s => completeSt k.ref stOk (formatFlash (parseFormat ps) bad s)) s)

/-- MED_CHECKPOINT (R447): without a map there is nothing to write. -/
def execMedCheckpoint (c : CmdRef) (d : CmdIn) (s : State) : Host.Outcome State Fault Refusal :=
  .next (begin 0x42 (fun _ => true) c d
    (medCheck fun k _ _ s => firstFail [(k.dataLen != 0, stBadParam), (!mediaUp s, stRefused)])
    (fun k _ _ s => startCkpt (onMed (fun m => { m with ckptWaiters := m.ckptWaiters ++ [k.ref] }) s)) s)

/-- MED_RETIRE_LUN (R447). -/
def execMedRetireLun (c : CmdRef) (d : CmdIn) (s : State) : Host.Outcome State Fault Refusal :=
  .next (begin 0x43 (fun _ => true) c d
    (medCheck fun k ps _ s => firstFail [(k.dataLen != 0 || lunCount s ≤ field ps 0 2, stBadParam)])
    (fun k ps _ s =>
      let u := field ps 0 2
      let n := (validPages (fun ppn _ => ppnLun ppn s == u) s).length
      complete k.ref stOk n 0 [] (failLun u s)) s)

/-- The code of MED_STAT.STATE (R449). -/
def MedState.code : MedState → Nat
  | .unconfigured => 0
  | .unformatted => 1
  | .mounting => 2
  | .ready => 3
  | .readOnly => 4

/-- MED_STAT.STATE as it reads (R449, R541). -/
def medCode (s : State) : Nat := if s.med.held then 4 else s.med.state.code

/-- What MED_INFO writes (R447). -/
def infoBytes (s : State) : List Byte :=
  let failed := (s.med.luns.filter fun e => e.2.state != .ready).length
  let free := ((List.range (setCount s)).map fun i => freeSupers i s).foldl (· + ·) 0
  leBytes 1 (medCode s) ++ leBytes 1 (stripeWidth s) ++ leBytes 2 failed ++ leBytes 4 (logicalPages s)
    ++ leBytes 4 (if (s.med.format).isSome then free else 0) ++ leBytes 4 (eraseMin s) ++ leBytes 4 (eraseMax s)
    ++ leBytes 4 s.med.mountMs ++ leBytes 8 s.med.ckpt ++ zeros 32

/-- MED_INFO (R447). -/
def execMedInfo (c : CmdRef) (d : CmdIn) (s : State) : Host.Outcome State Fault Refusal :=
  .next (begin 0x44 (fun _ => true) c d
    (medCheck fun k _ _ _ => firstFail [(k.dataLen != 0, stBadParam)])
    (fun k _ _ s => finish k.ref d.resultOk stOk 0 0 (infoBytes s) s) s)

/-- Whether the scan adopts a page (R435): a DATA page whose CSN its index had reached, with a WSEQ above every TRIM of its
logical page. -/
def adopts (t : Tag) (s : State) : Bool :=
  t.kind == 1
    && (t.handle == 0 || (tget? s.grp.kept t.handle).any fun ix => t.csn ≤ ix.csn)
    && s.med.trims.all fun r => !(r.1 ≤ t.lpn && t.lpn < r.1 + r.2.1) || r.2.2 < t.wseq

/-- The pages the scan covers (R435): of the stream entries of the last committed segment, the open superblock from SCAN_FROM
and the reserved one whole. -/
def scanned (s : State) : List (Nat × Tag) :=
  match s.med.segs.getLast? with
  | none => []
  | some g => s.med.pages.filter fun e => g.streams.any fun x =>
      (x.opened == some e.2.sb && x.scanFrom ≤ e.1 % pfPages s) || x.reserved == some e.2.sb

/-- A scanned page adopted, unless the map names a page of a higher WSEQ (R435). -/
def adoptPage (s : State) (e : Nat × Tag) : State :=
  if !adopts e.2 s then s
  else
    let newer : Bool := match (tget? s.med.map e.2.lpn).bind fun p => tget? s.med.pages p with
      | some t => t.wseq < e.2.wseq
      | none => true
    if newer then onMed (fun m => { m with map := tput m.map e.2.lpn e.1 }) s else s

/-- The first mismatch that the check of R414 finds between a channel's parts and the profile, by its place in the list of R414. -/
def firstMismatch (profile : List Byte) (r : PartReport) : Option Nat :=
  [!r.onfi, (r.major, r.minor) ∉ [(4, 2), (5, 1)], r.page != 16384 || r.spare != field profile 14 2, r.lunsPerCe != field profile 11 1,
   r.planes != field profile 12 1, r.id != field profile 56 8, !r.features].findIdx? id

/-- Parts that fail the check of R414: every LUN of the channel FAILED, with a record that names the channel by its first LUN and,
in byte 11 of LOCATION, the mismatch from 1. DESIGN CHOICE (log 73). -/
def failChannel (c mismatch : Nat) (s : State) : State :=
  let n := pfLuns s
  let s := (List.range n).foldl (fun s k => onLun (n * c + k) (fun l => { l with state := .failed, ops := [] }) s) s
  fileRec (mkRec 0x1A 2 4 ((locFlash 0xFFFFFFFF 0xFFFFFFFF (n * c) 0xFF).take 11 ++ leBytes 1 (mismatch + 1) ++ zeros 4)) s

/-- The part check of power-on (R414): a channel that no report names answers as the profile says. WP_N is high from then on
(R411). -/
def checkParts (parts : List PartReport) (s : State) : State :=
  match s.med.profile with
  | none => s
  | some b =>
    let s := (parts.filter (·.channel < 48)).foldl (fun s r => match firstMismatch b r with
      | some i => failChannel r.channel i s
      | none => s) s
    onMed (fun m => { m with wpHigh := true }) s

/-- A scanned page whose tag no level decodes (R435): rebuilt and judged like the others where its stripe is closed, else garbage
with a record of class FLASH_UE. -/
def scanPage (lost : List Nat) (s : State) (e : Nat × Tag) : State :=
  if !lost.contains e.1 then adoptPage s e
  else if stripeWhole e.1 s then adoptPage (onMedCounts (fun c => { c with rebuilt := wrap64 (c.rebuilt + 1) }) s) e
  else fileRec (mkRec 0x19 2 4 (locFlash 0xFFFFFFFF e.1 (ppnLun e.1 s) 0)) s

/-- A page that the last-gasp record lists and the scan does not find, reported (R441). -/
def checkGasp (s : State) : State :=
  match s.med.gasp with
  | none => s
  | some g => g.programs.foldl (fun s e =>
      if (tget? s.med.pages e.1).any (·.wseq == e.2.2) then s
      else flashFail e.2.1 e.1 (ppnLun e.1 s) 0xFF s) s

/-- WSEQ after a mount: 2^32 above the highest value found (R418). -/
def foundWseq (s : State) : Nat :=
  let tags := (scanned s).map (·.2.wseq)
  let segs := s.med.segs.map (·.wseqFlush)
  (tags ++ segs ++ (s.med.gasp.map (·.wseq)).toList).foldl max 0

/-- Open and reserved superblocks end with the power: what they hold stays, as CLOSED (R435, R436). -/
def closeStreams (s : State) : State :=
  let sbs := s.med.streams.flatMap fun e => e.2.opened.toList ++ e.2.reserved.toList
  let s := onMed (fun m => { m with streams := [] }) s
  sbs.foldl (fun s sb => match tget? s.med.supers sb with
    | some x => setBlocks x.members .closed s
    | none => s) s

/-- DIRTY blocks, whose erase the power cut off, erased again before use (R438). -/
def eraseDirty (s : State) : State :=
  ((s.med.blocks.filter fun e => e.2.state == .dirty && lunAlive (blockLun e.1 s) s).map (·.1)).foldl
    (fun s b => issueOp (blockLun b s) (.erase b) s) s

/-- The adopted pages of a stripe without its PARITY page, copied through RELOC (R436). -/
def closeOpenStripes (s : State) : State :=
  let openPages := validPages (fun ppn t => t.kind != 4 && match tget? s.med.supers t.sb with
    | some x => (tget? s.med.pages (parityPage x (ppn % pfPages s) (blockPlane (ppnBlock ppn s) s) s)).isNone
    | none => false) s
  openPages.foldl (copyPage false false) s

/-- The media mount (R434) after the part check: the map replayed and scanned, `lost` being pages whose tag cannot be decoded,
emptied blocks DIRTY, WSEQ set, READY. The indexes come back as flash holds them and then mount one by one (R101). -/
def mountMedia (lost : List Nat) (s : State) : State :=
  let s := onMed (fun m => { m with map := m.durMap }) s
  let s := checkGasp s
  let s := (scanned s).foldl (scanPage lost) s
  let w := foundWseq s + 2 ^ 32
  let s := closeStreams (onMed (fun m => { m with wseq := w }) s)
  let ms := (Config.freeValue s.free).toNat % 2 ^ 32
  let s := takeFree 1 (onMed (fun m => { m with unclean := m.gasp.isNone, gasp := none, mountMs := ms, state := .ready }) s)
  let s := checkCapacity (mountSegment s)
  let s := onSrch (fun x => { x with indexes := s.grp.kept.map fun e => (e.1, indexAfterLoss e.2) }) s
  closeOpenStripes (sweepEmpty (eraseDirty s))

/-- The media manager's start at power-on (R414, R434): the part check once, then the mount if the flash is formatted. -/
def startMedia (parts : List PartReport) (lost : List Nat) (s : State) : State :=
  if s.board.boot.stage = .ready ∧ !s.med.wpHigh then
    let t := checkParts parts s
    if t.med.state = .mounting then mountMedia lost t else t
  else s

/-- MEDIA_MOUNT (R434). -/
def execMediaMount (parts : List PartReport) (lost : List Nat) (s : State) : Host.Outcome State Fault Refusal :=
  .next (startMedia parts lost s)

/-! Loss of power (R439–R441). -/

/-- An operation that a LUN has under way at the crossing: a program completes (R440 step 2), an erase is left unfinished. -/
def finishWork (s : State) (e : Nat × OpWork) : State :=
  match e.2 with
  | .program ppn t why => landProgram ppn t why s
  | .segPage => segPageDone e.1 true (countProgram s)
  | .anchor n => anchorDone n (countProgram s)
  | .erase _ => s

/-- What each LUN has under way. -/
def underWay (s : State) : List (Nat × OpWork) :=
  s.med.luns.filterMap fun e => (e.2.ops.head?.filter (·.started)).map fun o => (e.1, o.work)

/-- The programs under way, as the last-gasp record lists them (R441). -/
def gaspPrograms (s : State) : List (Nat × Nat × Nat) :=
  (s.med.luns.filterMap fun e => match e.2.ops with
    | { work := .program ppn t _, started := true, .. } :: _ => some (ppn, t.lpn, t.wseq)
    | _ => none).take 4000

/-- Operations of every LUN gone. -/
def dropOps (s : State) : State := onMed (fun m => { m with luns := m.luns.map fun e => (e.1, { e.2 with ops := [] }) }) s

/-- Step 2 of the hold-up (R440): programs under way end; no operation follows them, and no command completes. -/
def finishPrograms (s : State) : State :=
  let cmds := s.host.cmds
  let l := underWay s
  let t := l.foldl finishWork (dropOps (onHost (fun h => { h with cmds := [] }) s))
  dropOps (onHost (fun h => { h with cmds := cmds }) t)

/-- Steps 2 and 3 of the hold-up (R440, R441): programs under way end, then the last-gasp record is programmed. -/
def gaspFlash (s : State) : State :=
  let t := finishPrograms s
  let g : Gasp := { wseq := s.med.wseq, seq := ((t.med.segs.getLast?).map (·.seq)).getD 0, time := timeUs s,
                    programs := gaspPrograms s }
  if t.med.format.isSome then onMed (fun m => { m with gasp := some g }) t else t

/-- Blocks whose erase, or whose return to FREE, no committed entry records: DIRTY again (R438). -/
def dirtyAgain (s : State) : List Nat :=
  let es := s.med.entries ++ match s.med.writing with
    | some w => if w.committed then [] else w.seg.entries
    | none => []
  es.filterMap fun e => match e with
    | .block b .free _ => some b
    | _ => none

/-- The media manager without power (R439, R440, R451): what flash and NOR hold stays; the map, the journal in DRAM, the
queues, the registers and the counters are gone; the profile of NOR is in use and the mount is due (R414). -/
def powerCycleFlash (s : State) : State :=
  let dirty := dirtyAgain s
  let s := onMed (fun m => { m with
    luns := m.luns.map fun e => (e.1, { e.2 with reads := [], ops := [], turn := 0, left := 0 })
    blocks := dirty.foldl (fun t b => sset (blockReset m.eraseBase) t b
      { state := .dirty, erases := (sget (blockReset m.eraseBase) t b).erases }) m.blocks }) s
  onMed (fun m => { m with
    profile := m.norProfile
    state := if m.norProfile.isNone then .unconfigured else if m.format.isNone then .unformatted else .mounting
    gcLow := 4, gcHigh := 8, suspLimit := 4, ckptS := 60, wlRate := 256, wlActive := false
    wpHigh := false, coldLeft := [], coldAt := 0, flushWaits := false
    heldOps := [], hub := [], arrived := [], map := [], waiting := [], entries := [], flushDue := false, writing := none, running := none
    ckptWaiters := [], collecting := [], victims := [], counts := medCountsReset, parts := [] }) s

end Sys2Proof.Machine
end

