-- ==== Sys2Proof/Machine/Schedule.lean ====
section
/-!
DEFINITION. Contexts and gangs, the scheduler, context switches and quiescing (R330–R342, R346).
-/
namespace Sys2Proof.Machine

/-! Contexts (R330, R331). -/

/-- Whether a context is runnable: it holds a fetched command that has not completed (R331). -/
def ctxRunnable (p n : Nat) (s : State) : Bool :=
  s.host.cmds.any fun k => k.queue == { scope := .part p, q := n } && !k.remote

/-- CTX_CREATE's checks, for both operations (R330). -/
def ctxHead (k : Cmd) (ps : List Byte) (s : State) : Verdict :=
  let op := field ps 0 1
  let p := field ps 2 1
  if 1 < op || 15 < field ps 1 1 || 63 < p || k.dataLen != 0
      || (op == 0 && (15 < field ps 3 1 || field ps 4 4 < 50 || 10000 < field ps 4 4)) then .fail stBadParam 0
  else match k.queue.scope with
    | .part q => if p = q then .go else .fail stRefused 0
    | .pf port => match servedBy p s with
      | none => .fail stBadParam 0
      | some x => if x = port then .go else .fail stRefused 0

/-- Whether a gang of a partition runs. -/
def gangRuns (p gang : Nat) (s : State) : Bool :=
  let x := getPtn p s
  (x.state == .running || x.state == .quiescing) && x.gang == gang

/-- CTX_CREATE (R330, R333). -/
def execCtxCreate (c : CmdRef) (d : CmdIn) (s : State) : Host.Outcome State Fault Refusal :=
  .next (begin 0x31 (fun ps => !opIs 1 ps) c d
    (fun k ps _ s => (ctxHead k ps s).andThen
      (ctxVerdict (field ps 2 1) (field ps 1 1) (field ps 3 1) (field ps 4 4) s))
    (fun k ps _ s =>
      let p := field ps 2 1
      let n := field ps 1 1
      let gang := field ps 3 1
      let us := field ps 4 4
      if gangRuns p gang s then stage p (.ctxCreate k.ref n gang us) s
      else completeSt k.ref stOk (makeCtx p n gang us s)) s)

/-- CTX_CREATE with OP DESTROY: the checks of the state (R330, R342). -/
def ctxDestroyVerdict (p n : Nat) (s : State) : Verdict :=
  match tget? (getPtn p s).ctxs n with
  | none => .fail stBadParam 0
  | some x => firstFail [
      (gangRuns p x.gang s || (getQueue { scope := .part p, q := n } s).state != .disabled || ctxRunnable p n s, stBusy)]

/-- CTX_CREATE with OP DESTROY (R330). -/
def execCtxDestroy (c : CmdRef) (d : CmdIn) (s : State) : Host.Outcome State Fault Refusal :=
  .next (begin 0x31 (opIs 1) c d
    (fun k ps _ s => (ctxHead k ps s).andThen (ctxDestroyVerdict (field ps 2 1) (field ps 1 1) s))
    (fun k ps _ s =>
      let p := field ps 2 1
      let n := field ps 1 1
      let s := onPart p (fun x => { x with ctxs := tdel x.ctxs n }) s
      let drop : Model → Model := fun m => if m.part = p then { m with recs := tdel m.recs n } else m
      completeSt k.ref stOk (onTil (fun t => { t with models := t.models.map fun e => (e.1, drop e.2) }) s)) s)

/-- GANG as PTN_CTX reads it: a staged value, else the one in effect (R9, R346). -/
def ctxGangField (x : Ptn) (n : Nat) : Nat :=
  (x.staged.findSome? fun g => match g with
    | .ctxGang m v => if m = n then some v else none
    | _ => none).getD (((tget? x.ctxs n).map (·.gang)).getD 0)

/-- SLICE_US as PTN_CTX reads it. -/
def ctxSliceField (x : Ptn) (n : Nat) : Nat :=
  (x.staged.findSome? fun g => match g with
    | .ctxSlice m v => if m = n then some v else none
    | _ => none).getD (((tget? x.ctxs n).map (·.sliceUs)).getD 0)

/-- A register write refused by R334, counted. -/
def countPtnBusy (p : Nat) (s : State) : State :=
  onPart p (fun x => { x with counts := { x.counts with cfgBusy := wrap64 (x.counts.cfgBusy + 1) } }) s

/-- A write of PTN_CTX n (R342, R346). -/
def writeCtx (p n v : Nat) (s : State) : State :=
  let gang := bits v 27 24
  let us := bits v 13 0
  let x := getPtn p s
  if (tget? x.ctxs n).isNone || us < 50 || 10000 < us then s
  else
    let s := if gang = ctxGangField x n then s
      else if ctxRunnable p n s then countPtnBusy p s else stage p (.ctxGang n gang) s
    if us = ctxSliceField x n then s else stage p (.ctxSlice n us) s

/-! Gangs (R331, R332). -/

/-- Whether a gang is ready: any of its contexts is runnable (R331). -/
def gangReady (p gang : Nat) (s : State) : Bool := (getPtn p s).ctxs.any fun e => e.2.gang == gang && ctxRunnable p e.1 s

/-- The slice of a gang: the smallest of its contexts (R331). -/
def gangSlice (p gang : Nat) (s : State) : Nat :=
  ((((getPtn p s).ctxs.filter fun e => e.2.gang == gang).map (·.2.sliceUs)).foldl
    (fun (a : Option Nat) b => some (match a with
      | none => b
      | some x => min x b)) none).getD 50

/-- The next gang: the first ready one in ascending order after the outgoing one, wrapping (R332). -/
def nextGang (p after : Nat) (s : State) : Option Nat :=
  ((List.range 16).map fun i => (after + 1 + i) % 16).find? fun g => gangReady p g s

/-- Whether a partition is to quiesce: QUIESCE is set, or a substitution waits with AUTO_SUBST set (R339, R341). -/
def wantsQuiesce (x : Ptn) : Bool := x.quiesce || (x.substWait && x.autoSubst)

/-- The contexts of a gang. -/
def gangCtxs (p gang : Nat) (s : State) : List Nat := ((getPtn p s).ctxs.filter fun e => e.2.gang == gang).map (·.1)

/-- The tiles of the parked steps of some contexts taken again, and their late stops over (R275, R338 step 6). -/
def resumeTiles (p : Nat) (cs : List Nat) (s : State) : State :=
  let mine := s.til.runs.filter fun r => r.part == p && cs.contains r.ctx
  let wake : Step → Step := fun st => { st with work := st.work.map fun e => (e.1, { e.2 with late := false }) }
  let runs := updWhere (fun r : Run => r.part == p && cs.contains r.ctx)
    (fun r => { r with steps := r.steps.map fun e => (e.1, wake e.2) }) s.til.runs
  let busy := mine.foldl (fun b r => r.steps.foldl (fun b e => e.2.tiles.foldl (fun b t => tput b t (r.ref, e.1)) b) b) s.til.busy
  onTil (fun t => { t with runs := runs, busy := busy }) s

/-- The commands whose parked step has state of a tile saved: those of PARKED contexts (R331, R336). -/
def savedOn (p : Nat) (cs : List Nat) (t : Nat) (s : State) : List CmdRef :=
  let parked := cs.filter fun n => ((tget? (getPtn p s).ctxs n).map (·.parked)).getD false
  (s.til.runs.filter fun r => r.part == p && parked.contains r.ctx
    && r.steps.any fun e => (tget? e.2.work t).any fun w => !w.ended).map (·.ref)

/-- The saved state of a tile read with an uncorrectable word as it is restored: the parked step ends UNCORRECTABLE, and its MODEL_RUN
with it (R261, R342). -/
def loseSaved (p : Nat) (cs : List Nat) (s : State) (x : Nat × MemPlace) : State :=
  (savedOn p cs x.1 s).foldl (fun s c =>
    let (s, seq, dropped) := dramLost (findCmd c s) x.2.stack x.2.pc x.2.bank x.2.row x.2.unit s
    completeRec c stUncorrectable 0 seq dropped (dropModelRun c s)) s

/-- A gang starts: its queries and tiles go on, its slice begins (R332, R338 step 6). `lost` are the tiles whose saved state is lost
(R342). -/
def startGang (p gang : Nat) (lost : List (Nat × MemPlace)) (s : State) : State :=
  let cs := gangCtxs p gang s
  let now := timeUs s
  let slice := gangSlice p gang s
  let s := lost.foldl (loseSaved p cs) s
  let s := resumeTiles p cs (resumeQueries p (fun q => cs.contains q.ctx) s)
  onPart p (fun x => { x with
    state := .running, gang := gang, sliceEnd := now + slice, stop := none
    ctxs := x.ctxs.map fun e => if cs.contains e.1 then (e.1, { e.2 with parked := false }) else e }) s

/-- GANG_START (R332): a ready gang of an IDLE partition. -/
def execGangStart (p : Nat) (now : Nat) (lost : List (Nat × MemPlace)) (s : State) : Host.Outcome State Fault Refusal :=
  let s := atTime now s
  let x := getPtn p s
  .next (if p < 64 ∧ x.state = .idle then
      match nextGang p x.gang s with
      | some g => startGang p g lost s
      | none => s
    else s)

/-- SLICE_END (R332): the slice renews when no other gang is ready and nothing is staged. -/
def execSliceEnd (p : Nat) (now : Nat) (s : State) : Host.Outcome State Fault Refusal :=
  let s := atTime now s
  let x := getPtn p s
  let now := timeUs s
  .next (if p < 64 && x.state == .running && x.stop.isNone && x.sliceEnd ≤ now && gangReady p x.gang s
        && nextGang p x.gang s == some x.gang && x.staged.isEmpty then
      let slice := gangSlice p x.gang s
      onPart p (fun x => { x with sliceEnd := now + slice }) s
    else s)

/-- STOP_POSTED (R332, R338 step 1): 5 µs before the end of the slice when another gang is ready or a change is staged; or at
once when the gang is no longer ready, whose slice then ends 5 µs later. -/
def execStopPosted (p : Nat) (now : Nat) (s : State) : Host.Outcome State Fault Refusal :=
  let s := atTime now s
  let x := getPtn p s
  let now := timeUs s
  .next (if p < 64 && x.state == .running && x.stop.isNone then
      if !gangReady p x.gang s then onPart p (fun x => { x with stop := some now, sliceEnd := now + 5 }) s
      else if x.sliceEnd ≤ now + 5 && (nextGang p x.gang s != some x.gang || !x.staged.isEmpty) then
        onPart p (fun x => { x with stop := some now, sliceEnd := now + 5 }) s
      else s
    else s)

/-! The switch (R336–R338). -/

/-- Whether every tile of the outgoing gang stands at a BAR, has ended, or has stopped for a rerun (R338 step 3). -/
def tilesStopped (p : Nat) (cs : List Nat) (s : State) : Bool :=
  s.til.runs.all fun r => !(r.part == p && cs.contains r.ctx) || r.steps.all fun e =>
    e.2.work.all fun w => w.2.ended || w.2.fresh || w.2.late

/-- The DMA of a step's tiles brought to its end before their state is saved (R275). -/
def drainTile (s : State) (t : Nat) : State :=
  match tileCtx t s with
  | none => s
  | some x => x.work.dmas.foldl (fun s d => tileDmaDone t d.token .clean ⟨0, 0, 0, 0, 0⟩ s) s

/-- The tile state of the outgoing gang saved, its tiles freed (R275, R338 step 5). -/
def saveTiles (p : Nat) (cs : List Nat) (s : State) : State :=
  let mine := s.til.runs.filter fun r => r.part == p && cs.contains r.ctx
  let tiles := (s.til.busy.filter fun e => mine.any fun r => r.ref == e.2.1).map (·.1)
  let s := tiles.foldl drainTile s
  let save : Step → Step := fun st => { st with work := st.work.map fun e => (e.1, if e.2.ended then e.2 else keepResident e.2) }
  onTil (fun t => { t with
    runs := updWhere (fun r : Run => r.part == p && cs.contains r.ctx)
      (fun r => { r with steps := r.steps.map fun e => (e.1, save e.2) }) t.runs
    busy := t.busy.filter fun e => !tiles.contains e.1 }) s

/-- Whether the stall jobs of some contexts stand at a segment boundary (R222, R338 step 2); a stall that awaits a spare runs nothing. -/
def jobsStopped (p : Nat) (cs : List Nat) (s : State) : Bool :=
  s.stk.stalls.all fun e => stallHeld e.1 s || !(runningJob e.2).any fun j => !j.gone && j.part == p && cs.contains j.ctx

/-- The contexts that hold unfinished work as their gang is switched out are PARKED (R331). -/
def parkCtxs (p : Nat) (cs : List Nat) (s : State) : State :=
  let hold := cs.filter fun n => ctxRunnable p n s
  onPart p (fun x => { x with ctxs := x.ctxs.map fun e => if hold.contains e.1 then (e.1, { e.2 with parked := true }) else e }) s

/-- A partition QUIESCED, with the sub-searches of other nodes parked too (R339, log 111). -/
def enterQuiesced (p : Nat) (s : State) : State :=
  onPart p (fun x => { x with
    state := .quiesced, stop := none, counts := { x.counts with quiesces := wrap64 (x.counts.quiesces + 1) } })
    (parkQueries p (fun q => q.ctx == 16) s)

/-- What follows a switch: QUIESCED, the next gang, or IDLE (R332, R338, R339). -/
def afterSwitch (p : Nat) (was : PState) (lost : List (Nat × MemPlace)) (s : State) : State :=
  let x := getPtn p s
  if wantsQuiesce x then enterQuiesced p s
  else if was = .quiescing then onPart p (fun x => { x with state := .idle, stop := none }) s
  else match nextGang p x.gang s with
    | some g => startGang p g lost s
    | none => onPart p (fun x => { x with state := .idle, stop := none }) s

/-- A context switch of a partition (R338 steps 2 to 6), once the slice has ended and the stall jobs and tiles have stopped; `ns` is the
time from step 4 to step 5. -/
def switchGang (p ns : Nat) (lost : List (Nat × MemPlace)) (s : State) : State :=
  let x := getPtn p s
  let cs := gangCtxs p x.gang s
  if x.stop.isNone || timeUs s < x.sliceEnd || !jobsStopped p cs s || !tilesStopped p cs s
      || !(x.state == .running || x.state == .quiescing) then s
  else
    let s := parkQueries p (fun q => cs.contains q.ctx) s
    let s := parkCtxs p cs (saveTiles p cs s)
    let s := onPart p (fun y => { y with counts := { y.counts with
      switches := wrap64 (y.counts.switches + 1), switchNsMax := max y.counts.switchNsMax ns } }) s
    afterSwitch p x.state lost (applyStaged p s)

/-- CONTEXT_SWITCH (R338). -/
def execContextSwitch (p : Nat) (now ns : Nat) (lost : List (Nat × MemPlace)) (s : State) : Host.Outcome State Fault Refusal :=
  let s := atTime now s
  .next (if p < 64 then switchGang p ns lost s else s)

/-! Quiescing (R339). -/

/-- A partition that is to quiesce: its slice ends, or it is QUIESCED at once (R339). -/
def startQuiesce (p : Nat) (s : State) : State :=
  let x := getPtn p s
  let now := timeUs s
  match x.state with
  | .idle => applyStaged p (enterQuiesced p s)
  | .running => onPart p (fun x => { x with
      state := .quiescing, stop := some (x.stop.getD now), sliceEnd := match x.stop with
        | some _ => min x.sliceEnd (now + 5)
        | none => now + 5 }) s
  | _ => s

/-- A partition that no longer is to quiesce returns to the scheduler (R339); one still QUIESCING ends its switch first. -/
def endQuiesce (p : Nat) (s : State) : State :=
  if (getPtn p s).state = .quiesced then
    resumeQueries p (fun q => q.ctx == 16) (onPart p (fun x => { x with state := .idle }) s)
  else s

/-- The state of a partition brought in line with its wish to quiesce. -/
def settleQuiesce (p : Nat) (s : State) : State :=
  if wantsQuiesce (getPtn p s) then startQuiesce p s else endQuiesce p s

/-- A write of PTN_CTRL (R339, R344). -/
def writePtnCtrl (p v : Nat) (s : State) : State :=
  settleQuiesce p (onPart p (fun x => { x with autoSubst := bit v 1, quiesce := bit v 0 }) s)

end Sys2Proof.Machine
end

