-- ==== Sys2Proof/Machine/Resilience.lean ====
section
/-!
DEFINITION. Errors that scrubs, watchdogs and the network find, the units they take out of service, substitution and retirement,
the halt, and the retirement of records (R341, R474–R477, R482, R483, R487–R495).
-/
namespace Sys2Proof.Machine

/-! Units (R17, R18, R489, R493). -/

/-- The KIND code of a removable unit (R493). -/
def unitCode : UnitKind → Nat
  | .tile => 1
  | .walker => 2
  | .tally => 3
  | .stall => 4
  | .selector => 5
  | .fwCore => 6
  | .quadrantNet => 7

/-- How many logical units of a kind there are; networks are no removable unit. -/
def unitTotal : UnitKind → Nat
  | .tile => 128
  | .walker | .tally => 64
  | .stall => 256
  | .selector => 16
  | .fwCore => 8
  | .quadrantNet => 0

/-- The quadrant of a hub unit, the stack of a stall (R17, R493). -/
def unitPlace (kind : UnitKind) (n : Nat) : Nat :=
  match kind with
  | .tile | .stall => n / 32
  | .walker | .tally => n / 16
  | .selector => n / 4
  | .fwCore | .quadrantNet => n / 2

/-- A block of R17's table with its logical number; the shelf and the query SRAM by byte. -/
inductive HubBlock where
  | unit (kind : UnitKind) (n : Nat)
  | shelf (byte : Nat)
  | querySram (byte : Nat)
  | stack (n : Nat)
  | flashChannel (n : Nat)
  | lane (n : Nat)
  | pcie (p : Port)
  | shared
deriving DecidableEq, Repr

/-- The quadrant of a block (R17): none for one that serves all. -/
def blockQuadrant : HubBlock → Option Nat
  | .unit .stall n => some (n / 64)
  | .unit .quadrantNet n => some n
  | .unit k n => some (unitPlace k n)
  | .shelf b => some (b / 2 ^ 26)
  | .querySram b => some (b / (24 * 2 ^ 20))
  | .stack n => some (n / 2)
  | .flashChannel n => some (n / 12)
  | .lane n => some (n / 9)
  | .pcie p => some (2 * p.num)
  | .shared => none

/-- Key of the spares that serve a unit; selectors and cores have none (R17, R18). -/
def spareKey (kind : UnitKind) (n : Nat) : Option Nat :=
  match kind with
  | .tile => some (n / 32)
  | .walker => some (4 + n / 16)
  | .tally => some (8 + n / 16)
  | .stall => some (12 + n / 32)
  | .selector | .fwCore | .quadrantNet => none

/-- Unused spares for a unit. -/
def sparesLeft (kind : UnitKind) (n : Nat) (s : State) : Nat :=
  match spareKey kind n with
  | some k => sget sparesReset s.err.spares k
  | none => 0

/-- One spare used up. -/
def useSpare (kind : UnitKind) (n : Nat) (s : State) : State :=
  match spareKey kind n with
  | some k => onErr (fun e => { e with spares := smod sparesReset e.spares k (· - 1) }) s
  | none => s

/-- The entry of a logical unit out of service. -/
def findOut (kind : UnitKind) (n : Nat) (s : State) : Option UnitOut :=
  s.err.outs.find? fun u => u.kind == kind && u.unit == n

/-- Whether a unit can be taken out of service: it exists, it is in service, and of the firmware cores two remain (R489). -/
def removable (kind : UnitKind) (n : Nat) (s : State) : Bool :=
  n < unitTotal kind && (findOut kind n s).isNone
    && (kind != .fwCore || (s.err.outs.filter fun u => u.kind == .fwCore).length ≤ 6)

/-- A record of a unit: its kind, number and owner (R479). -/
def unitRec (cls sev : Nat) (kind : UnitKind) (n : Nat) (s : State) : Rec :=
  { mkRec cls sev 0 (zeros 16) with unit := n, unitKind := unitCode kind, part := (unitOwner kind n s).getD 0xFF }

/-! The work of a unit that goes out of service (R488, R490). -/

/-- A command ended UNCORRECTABLE with a record that is filed already (R488). -/
def endUncorr (seq : Nat) (dropped : Bool) (s : State) (c : CmdRef) : State :=
  match findCmd c s with
  | none => s
  | some k =>
    if pastEnd k then s
    else settleAllEmb (completeRec c stUncorrectable 0 seq dropped (releaseCmd c s))

/-- The commands whose work a unit holds; without `parked`, only those that run (R490). -/
def unitCmds (kind : UnitKind) (n : Nat) (parked : Bool) (s : State) : List CmdRef :=
  match kind with
  | .tile =>
    (s.til.runs.filter fun r => r.steps.any fun e =>
      (tget? e.2.work n).any (!·.ended) && (parked || tget? s.til.busy n == some (r.ref, e.1))).map (·.ref)
  | .walker | .tally =>
    (s.srch.queries.filter fun q => q.admittedIn && q.walker == n && (parked || !q.parked)).map (·.ref)
  | .stall =>
    let runs : Nat → Nat → Bool := fun p ctx =>
      16 ≤ ctx || gangRuns p (((tget? (getPtn p s).ctxs ctx).map (·.gang)).getD 16) s
    ((getStall n s).jobs.filter fun j => !j.gone && (parked || runs j.part j.ctx)).map (·.ref)
      ++ (s.srch.queries.filter fun q => q.phase == .rerank && (nextEntry q n).isSome && (parked || !q.parked)).map (·.ref)
  | .selector | .fwCore | .quadrantNet => []

/-- The work of a unit ended (R490). -/
def endWork (kind : UnitKind) (n : Nat) (parked : Bool) (seq : Nat) (dropped : Bool) (s : State) : State :=
  pump ((unitCmds kind n parked s).eraseDups.foldl (endUncorr seq dropped) s)

/-! Retirement and substitution (R341, R490, R491, R493). -/

/-- A repair-table entry of a unit (R493). -/
def unitRepair (kind : UnitKind) (n state seq : Nat) : Repair :=
  { kind := unitCode kind, origin := 2, state := state, place := unitPlace kind n, logical := n, row := 0,
    cause := seq % 2 ^ 32 }

/-- SUBST_WAIT as the units of the partition out of service make it (R341), and the wish to quiesce with it. -/
def settleWait (p : Nat) (s : State) : State :=
  if 64 ≤ p then s
  else
    let waits := s.err.outs.any fun u => !u.retired && unitOwner u.kind u.unit s == some p
    settleQuiesce p (onPart p (fun x => { x with substWait := waits }) s)

/-- A unit without a spare stays OUT_OF_SERVICE, RETIRED (R491): its entry, a SPARES_OUT record, and its work ends (R490). -/
def retireUnit (kind : UnitKind) (n seq : Nat) (dropped : Bool) (s : State) : State :=
  let p := (unitOwner kind n s).getD 64
  let mark : UnitOut → Bool := fun u => u.kind == kind && u.unit == n
  let s := onErr (fun e => { e with outs := updWhere mark (fun u => { u with retired := true }) e.outs }) s
  let s := fileRec (unitRec 0x22 2 kind n s) (logRepair (unitRepair kind n 1 seq) s)
  settleWait p (endWork kind n true seq dropped s)

/-- A selector leaves: its row goes back into the queue; with no selector left for rows, the commands whose rows wait end (R157, R490). -/
def loseSelector (n seq : Nat) (dropped : Bool) (s : State) : State :=
  let s := returnRow n s
  if (List.range 16).any fun m => servesRows m s then s
  else pump (((s.sel.queue.map (·.ref)).eraseDups).foldl (endUncorr seq dropped) s)

/-- A unit taken out of service (R489): UNIT_OUT, its work ends at once where the trigger is FATAL, and its owner waits for
the spare (R341 step 1); without a spare it retires. -/
def takeOut (kind : UnitKind) (n : Nat) (fatal : Bool) (s : State) : State :=
  if !removable kind n s then s
  else
    let p := (unitOwner kind n s).getD 64
    let (s, seq, dropped) := fileErr (unitRec 0x20 2 kind n s) none false s
    let u : UnitOut := { kind := kind, unit := n, retired := false, seq := seq, fatal := fatal }
    let s := onErr (fun e => { e with outs := e.outs ++ [u] }) s
    let s := if kind = .selector then loseSelector n seq dropped s else s
    let s := if fatal then endWork kind n false seq dropped s else s
    if sparesLeft kind n s = 0 then retireUnit kind n seq dropped s else settleWait p s

/-- Whether the substitution of a unit may run: its owner is QUIESCED, or it has none (R341). -/
def substReady (kind : UnitKind) (n : Nat) (s : State) : Bool :=
  match unitOwner kind n s with
  | none => true
  | some p => (getPtn p s).state == .quiesced

/-- Steps 3 and 4 of a substitution (R341): the spare takes the logical number; a spare that fails its initialisation is
entered as SPARE_BAD, its error escalates, and the next one is tried (R493). DESIGN CHOICE (log 106): a spare that fails no longer
counts as unused in GLB_INVENTORY, though no substitution takes effect with it (R30). -/
def substitute (kind : UnitKind) (n : Nat) (spareOk : Bool) (s : State) : State :=
  match findOut kind n s with
  | none => s
  | some u =>
    if u.retired || !substReady kind n s || sparesLeft kind n s = 0 then s
    else
      let p := (unitOwner kind n s).getD 64
      let s := useSpare kind n s
      if spareOk then
        let s := logRepair (unitRepair kind n 0 u.seq) s
        let s := fileRec { unitRec 0x21 0 kind n s with nestedSeq := u.seq } s
        let s := onErr (fun e => { e with outs := e.outs.filter fun x => !(x.kind == kind && x.unit == n) }) s
        let s := if p < 64 then onPart p (fun x => { x with counts := { x.counts with substs := wrap64 (x.counts.substs + 1) } }) s
          else s
        settleWait p s
      else
        let bad : Repair := { unitRepair kind n 0 u.seq with kind := 9, logical := 0xFFFF }
        let s := logRepair bad s
        let s := (fileErr (unitRec 0x20 2 kind n s) (some u.seq) false s).1
        if sparesLeft kind n s = 0 then retireUnit kind n u.seq false s else s

/-! The halt (R487). -/

/-- The HALT record's SEQ and whether it was dropped: the newest record but for what followed it. -/
def haltSeq (s : State) : Nat × Bool :=
  match (getErrQueue 3 s).recs.find? fun r => r.cls == 0x3F with
  | some r => (r.seq, false)
  | none => (s.err.nextSeq - 1, true)

/-- What a halt does beyond its record (R487): commands end, lanes are disabled, the media manager writes its last gasp. -/
def haltModule (s : State) : State :=
  let (seq, dropped) := haltSeq s
  let s := (s.host.cmds.map (·.ref)).foldl (endUncorr seq dropped) s
  let s := (List.range 36).foldl (fun s n => laneFails resendOf n .disabled (onLane n (fun x => { x with enable := false }) s)) s
  gaspFlash s

/-- A step that may have halted the module: the halt's consequences follow once. -/
def settleHalt (f : State → State) (s : State) : State :=
  let t := f s
  if t.err.halted && !s.err.halted then haltModule t else t

/-! Scrubs (R474–R476, R494). -/

/-- A patrol read: what it finds, and what the read after the write-back finds (R476, R494). -/
def patrolRead (stack pc bank row unit : Nat) (found again : EccOutcome) (s : State) : State :=
  match found with
  | .clean => noteRead { stack := stack, pc := pc, bank := bank, row := row, unit := unit } s
  | .uncorrectable => (dramLost none stack pc bank row unit s).1
  | .corrected n =>
    let p : MemPlace := { stack := stack, pc := pc, bank := bank, row := row, unit := unit }
    let s := dramCorrected stack pc bank row unit n s
    let s := if n < 2 then
        onErr (fun e => { e with rewritten := p :: e.rewritten }) (onDram stack (fun d => { d with fixed := wrap64 (d.fixed + 1) }) s)
      else s
    (dramRead none again p s).1

/-- The patrol scrub of one codeword (R191, R476, R500): rows in a running write set are skipped; with SCRUB_H 0 there is
none; the stack's last codeword ends a pass. -/
def patrol (stack pc bank row unit : Nat) (found again : EccOutcome) (s : State) : State :=
  if 8 ≤ stack || 32 ≤ pc || 1179648 ≤ row || bank != row % 32 || 16 ≤ unit || s.err.scrubH == 0
      || inWriteSet (32 * stack + pc) row s then s
  else
    let s := patrolRead stack pc bank row unit found again s
    if pc = 31 ∧ row = 1179647 ∧ unit = 15 then onDram stack (fun d => { d with passes := wrap64 (d.passes + 1) }) s else s

/-- Key of a unit among the counts of corrected errors (R489). -/
def ceKey (kind : UnitKind) (n : Nat) : Nat := 1024 * unitCode kind + n

/-- A corrected error in a unit's own SRAM counted within its second; at CE_LIMIT the unit goes out of service (R489). -/
def countCe (kind : UnitKind) (n : Nat) (s : State) : State :=
  let second := timeUs s / 1000000
  let old := sget (fun _ => (0, 0)) s.err.ceCounts (ceKey kind n)
  let count := if old.1 = second then old.2 + 1 else 1
  let s := onErr (fun e => { e with ceCounts := sset (fun _ => (0, 0)) e.ceCounts (ceKey kind n) (second, count) }) s
  if s.err.ceLimit ≤ count then takeOut kind n false s else s

/-- Severity of an SRAM word that is uncorrectable: FATAL in register and accumulator files, program stores and remap tables
(R481). -/
def sramSev (struct : Nat) : Nat := if struct = 1 ∨ struct = 2 ∨ struct = 7 then 3 else 2

/-- A record in an error-queue slot lost: the slot reads as zero, LOST sets, and its setting interrupts (R485, R495). -/
def loseRecord (word : Nat) (s : State) : State :=
  let sev := word / 32
  let slot := word % 32
  let q := getErrQueue sev s
  let i := (slot + 32 - q.head % 32) % 32
  match if sev < 4 then q.recs[i]? else none with
  | none => s
  | some old =>
    let blank : Rec := { mkRec 0 0 0 (zeros 16) with handled := true, count := 0, part := 0, queue := 0, unit := 0 }
    pfInterrupt old (onErr (fun e => { e with lost := wrap64 (e.lost + 1) })
      (onErrQueue sev (fun q => { q with recs := updAt (fun _ => blank) i q.recs, lost := true }) s))

/-- The open record of a remap table whose reload an error in that table of the quadrant strikes (R486, R495). -/
def remapStruck (struct place : Nat) (s : State) : Option Nat :=
  if struct = 7 then
    (newestOpen ((allRecs s).filter fun r => r.cls == 0x13 && r.loc.take 2 == leBytes 1 7 ++ leBytes 1 place)).map (·.seq)
  else none

/-- An SRAM word that a scrub finds uncorrectable (R474, R481, R489, R495). DEDUCED (log 77): the remap table is reloaded after its
first error, so that only an error while that record is open, a reload that failed, halts. -/
def sramLost (struct place unit word : Nat) (owner : Option UnitKind) (s : State) : State :=
  let s := onErr (fun e => { e with sramUe := wrap64 (e.sramUe + 1) }) s
  let s := if struct = 8 then loseRecord word s else s
  let sev := sramSev struct
  let base := mkRec 0x13 sev 2 (locSram struct place unit word 0)
  match owner with
  | some kind =>
    let e := { base with unit := unit, unitKind := unitCode kind, part := (unitOwner kind unit s).getD 0xFF }
    let s := (fileErr e none (sev == 3 && !removable kind unit s) s).1
    if sev = 3 then takeOut kind unit true s else s
  | none => (fileErr base (remapStruck struct place s) (sev == 3 && struct != 7) s).1

/-- The scrub of one SRAM word (R474, R476): `owner` is the kind of the unit whose own SRAM it is. -/
def sramRead (struct place unit word : Nat) (owner : Option UnitKind) (found : EccOutcome) (s : State) : State :=
  match found with
  | .clean => s
  | .uncorrectable => sramLost struct place unit word owner s
  | .corrected n =>
    let s := onErr (fun e => { e with sramCe := wrap64 (e.sramCe + 1) }) s
    let s := fileRec (mkRec 0x12 1 2 (locSram struct place unit word n)) s
    match owner with
    | some kind => countCe kind unit s
    | none => s

/-! The network and the watchdog (R477, R489). -/

/-- A flit that fails decoding (R477): resent once; a second failure ends its transaction and takes the link out. -/
def flitFails (boundary link : Nat) (again : Bool) (c : Option CmdRef) (s : State) : State :=
  if 4 ≤ boundary || 16 ≤ link || s.err.nocOut.contains (boundary, link) then s
  else
    let s := onErr (fun e => { e with nocRetry := wrap64 (e.nocRetry + 1) }) s
    if !again then s
    else
      let s := onErr (fun e => { e with nocUe := wrap64 (e.nocUe + 1), nocOut := e.nocOut ++ [(boundary, link)] }) s
      let base := mkRec 0x14 2 3 (locNoc boundary link)
      let e := match c.bind fun c => findCmd c s with
        | some k => cmdRec k base
        | none => base
      let (s, seq, dropped) := fileErr e none false s
      match c with
      | some c => endUncorr seq dropped s c
      | none => s

/-- A unit that has not reached its stop point within twice its bound (R489). -/
def watchdog (kind : UnitKind) (n : Nat) (s : State) : State :=
  if !removable kind n s then s
  else
    let s := (fileErr (unitRec 0x23 3 kind n s) none false s).1
    takeOut kind n true (onErr (fun e => { e with watchdog := wrap64 (e.watchdog + 1) }) s)

/-! Records (R482, R483). -/

/-- HANDLED set (R483): MERGE_MS after its creation for NOTICE and CORRECTED, else when firmware has carried out the
consequence. -/
def handleRec (sev seq : Nat) (s : State) : State :=
  let now := timeUs s
  let due : Rec → Bool := fun r => r.seq == seq && (2 ≤ sev || r.timeFirst + 1000 * s.err.mergeMs ≤ now)
  onErrQueue sev (fun q => { q with recs := updWhere due (fun r => { r with handled := true }) q.recs }) s

/-- Records that a write of HEAD retires (R482). -/
def retireCount (q : ErrQueue) (h : Nat) : Nat := if q.recs.length = 32 ∧ h = q.head then 32 else (h + 32 - q.head) % 32

/-- A write of ERR_QSTAT (R482, R498): LOST is W1C; HEAD retires handled records, for the owner port's PF. -/
def writeErrQstat (f : Fn) (sev v : Nat) (s : State) : State :=
  let s := if bit v 31 then onErrQueue sev (fun q => { q with lost := false }) s else s
  let q := getErrQueue sev s
  let n := retireCount q (v % 32)
  if f.vf != 0 || f.port.num != s.err.owner || q.recs.length < n || (q.recs.take n).any (!·.handled) then s
  else onErrQueue sev (fun q => { q with recs := q.recs.drop n, head := v % 32 }) s

/-- The owner port passes to the other when its heartbeat is lost (R482, R495). -/
def passOwner (lost : Port) (s : State) : State :=
  if s.err.owner = lost.num then onErr (fun e => { e with owner := lost.other.num }) s else s

/-! Rows. -/

/-- SUBSTITUTION (R341). -/
def execSubstitution (kind : UnitKind) (unit : Nat) (spareOk : Bool) (s : State) : Host.Outcome State Fault Refusal :=
  .next (settleHalt (substitute kind unit spareOk) s)

/-- UNIT_WATCHDOG (R489). -/
def execUnitWatchdog (kind : UnitKind) (unit : Nat) (s : State) : Host.Outcome State Fault Refusal :=
  .next (settleHalt (watchdog kind unit) s)

/-- RECORD_HANDLED (R483). -/
def execRecordHandled (sev seq : Nat) (now : Nat) (s : State) : Host.Outcome State Fault Refusal :=
  .next (if sev < 4 then handleRec sev seq (atTime now s) else s)

/-- ERROR_QUEUE_RETIRE (R482). -/
def execErrorQueueRetire (f : Fn) (sev : Nat) (value : W32) (s : State) : Host.Outcome State Fault Refusal :=
  .next (if sev < 4 then writeErrQstat f sev value.toNat s else s)

/-- PATROL_SCRUB (R476). -/
def execPatrolScrub (stack pc bank row unit : Nat) (first again : EccOutcome) (s : State) :
    Host.Outcome State Fault Refusal := .next (patrol stack pc bank row unit first again s)

/-- SRAM_SCRUB (R476). -/
def execSramScrub (struct place unit word : Nat) (owner : Option UnitKind) (found : EccOutcome) (s : State) :
    Host.Outcome State Fault Refusal := .next (settleHalt (sramRead struct place unit word owner found) s)

/-- NOC_FLIT_FAILURE (R477). -/
def execNocFlitFailure (boundary link : Nat) (again : Bool) (c : Option CmdRef) (s : State) :
    Host.Outcome State Fault Refusal := .next (settleHalt (flitFails boundary link again c) s)

end Sys2Proof.Machine
end

