-- ==== Sys2Proof/Machine/Mailboxes.lean ====
section
/-!
DEFINITION. Criers and heartbeats, PCIe links, the gating and waking of units, and the local counters (chapter 15; R68, R508,
R542).
-/
namespace Sys2Proof.Machine

/-! Criers (R452–R460). -/

/-- A crier. -/
def getCrier (n : Nat) (s : State) : Crier := sget crierReset s.board.mbx.criers n

/-- A crier changed by `f`. -/
def onCrier (n : Nat) (f : Crier → Crier) (s : State) : State :=
  onMbx (fun m => { m with criers := smod crierReset m.criers n f }) s

/-- PF BAR0 offset of a register of a crier (R466, R467). -/
def crierOff (n k : Nat) : Nat := 0x900000 + 0x20 * n + k

/-- The code of an endpoint (R452). -/
def endpointCode : Endpoint → Nat
  | .core n => n
  | .aoc => 8
  | .host .a => 9
  | .host .b => 10

/-- Whether an endpoint exists. -/
def endpointOk : Endpoint → Bool
  | .core n => n < 8
  | _ => true

/-- The port of a host endpoint's code. -/
def hostPort (code : Nat) : Option Port := if code = 9 then some .a else if code = 10 then some .b else none

/-- Vector 2 of a host endpoint's PF (R458); a firmware endpoint is woken by other means. -/
def notifyEndpoint (code : Nat) (s : State) : State :=
  match hostPort code with
  | some p => emit (.msix { port := p, vf := 0 } 2) s
  | none => s

/-- A write by an endpoint to a crier register: through BAR0 for a host, direct for firmware (R452). -/
def endpointWrite (e : Endpoint) (off : Nat) (act : State → State) (s : State) : State :=
  match e with
  | .host p => writeAt { port := p, vf := 0 } off act s
  | _ => if endpointOk e then act s else s

/-- A post, take or withdrawal discarded (R455): REJECTED, counted, a record. -/
def rejectCrier (e : Endpoint) (n off : Nat) (s : State) : State :=
  let s := onCrier n (fun c => { c with rejected := true }) s
  let s := onMbx (fun m => { m with rejects := wrap64 (m.rejects + 1) }) s
  let loc : List Byte := match e with
    | .host p => locReg { port := p, vf := 0 } 0 off
    | _ => locRegInner off
  fileRec (mkRec 0x05 0 6 loc) s

/-- A crier without its notice: its timer stops (R455). -/
def emptied (c : Crier) : Crier := { c with full := false, notice := 0, timer := none }

/-- One more notice held (R469). -/
def countPost (s : State) : State := onMbx (fun m => { m with posts := wrap64 (m.posts + 1) }) s

/-- The port whose heartbeat a crier watches (R453). -/
def heartbeatPort (n : Nat) : Option Port := if n = 126 then some .a else if n = 127 then some .b else none

/-- A heartbeat post (R459): the AOC takes it at once. It arms the watch while the port's link is up, clears LOST, and restarts
the timer. -/
def heartbeatPost (p : Port) (n : Nat) (s : State) : State :=
  let s := countPost s
  if !s.host.linkUp.contains p && !s.host.hbArmed.contains p then s
  else
    let armed := if s.host.hbArmed.contains p then s.host.hbArmed else s.host.hbArmed ++ [p]
    let s := onHost (fun h => { h with hbArmed := armed, hbLost := h.hbLost.filter (· != p) }) s
    let now := timeUs s
    onCrier n (fun c => { c with timer := some (now, c.timeoutUs) }) s

/-- MBX_CPOST written (R455, R459). -/
def postCrier (e : Endpoint) (n notice : Nat) (s : State) : State :=
  let c := getCrier n s
  if c.sender ≠ endpointCode e ∨ c.enable = false then rejectCrier e n (crierOff n 4) s
  else match heartbeatPort n with
    | some p => heartbeatPost p n s
    | none =>
      if c.full then rejectCrier e n (crierOff n 4) s
      else
        let now := timeUs s
        let s := onCrier n (fun c => { c with full := true, notice := notice, timer := some (now, c.timeoutUs) }) s
        notifyEndpoint c.receiver (countPost s)

/-- MBX_CCTRL.TAKE written (R455): also of a notice that timed out. -/
def takeCrier (e : Endpoint) (n : Nat) (s : State) : State :=
  let c := getCrier n s
  if c.receiver ≠ endpointCode e then rejectCrier e n (crierOff n 0x10) s
  else if c.full then notifyEndpoint c.sender (onCrier n (fun c => { emptied c with emptied := true }) s)
  else s

/-- MBX_CCTRL.WITHDRAW written (R455). -/
def withdrawCrier (e : Endpoint) (n : Nat) (s : State) : State :=
  let c := getCrier n s
  if c.sender ≠ endpointCode e then rejectCrier e n (crierOff n 0x10) s
  else if c.full then onCrier n emptied s
  else s

/-- The timer of a FULL crier reaches its timeout (R455, R456): it stays FULL. -/
def timeoutCrier (n : Nat) (s : State) : State :=
  let c := getCrier n s
  match c.timer with
  | none => s
  | some (t, us) =>
    if c.full = false ∨ timeUs s < t + us then s
    else
      let s := onCrier n (fun c => { c with timedOut := true, timer := none }) s
      notifyEndpoint c.sender (onMbx (fun m => { m with timeouts := wrap64 (m.timeouts + 1) }) s)

/-- CRIER_POST (R455, R459). -/
def execCrierPost (e : Endpoint) (n : Nat) (notice : W32) (s : State) : Host.Outcome State Fault Refusal :=
  .next (if n < 128 then endpointWrite e (crierOff n 4) (postCrier e n notice.toNat) s else s)

/-- CRIER_TAKE (R455). -/
def execCrierTake (e : Endpoint) (n : Nat) (s : State) : Host.Outcome State Fault Refusal :=
  .next (if n < 128 then endpointWrite e (crierOff n 0x10) (takeCrier e n) s else s)

/-- CRIER_WITHDRAW (R455). -/
def execCrierWithdraw (e : Endpoint) (n : Nat) (s : State) : Host.Outcome State Fault Refusal :=
  .next (if n < 128 then endpointWrite e (crierOff n 0x10) (withdrawCrier e n) s else s)

/-- CRIER_TIMEOUT (R455, R456). -/
def execCrierTimeout (n : Nat) (now : Nat) (s : State) : Host.Outcome State Fault Refusal :=
  .next (if n < 126 then timeoutCrier n (atTime now s) else s)

/-! Configuration (R452, R453, R466, R468). -/

/-- The value of MBX_CCFG (R466). -/
def ccfgValue (n : Nat) (s : State) : Nat :=
  let c := getCrier n s
  2 ^ 31 * b2n c.enable + 2 ^ 30 * b2n (126 ≤ n) + 2 ^ 24 * c.sender + 2 ^ 20 * c.receiver + c.timeoutUs

/-- TIMEOUT_US written: a value out of range is discarded (R466). -/
def setTimeout (us : Nat) (c : Crier) : Crier := if 1 ≤ us ∧ us ≤ 1000000 then { c with timeoutUs := us } else c

/-- The fields of MBX_CCFG written by one who may (R460, R468): ENABLE clears first, and discards a notice; SENDER and RECEIVER
change only while the crier is neither enabled nor FULL. -/
def writeCcfgFields (n v : Nat) (s : State) : State :=
  let c := getCrier n s
  let en := bit v 31
  let snd := bits v 27 24
  let rcv := bits v 23 20
  let changes := snd != c.sender || rcv != c.receiver
  let busy := changes && if c.enable then en else c.full
  let c := setTimeout (bits v 19 0) (if c.enable && !en then emptied c else c)
  let c := { c with enable := en }
  let c := if changes && !busy then { c with sender := snd, receiver := rcv } else c
  let s := onCrier n (fun _ => c) s
  if busy then onMbx (fun m => { m with cfgBusy := wrap64 (m.cfgBusy + 1) }) s else s

/-- Whether a value names a reserved endpoint (R452). -/
def namesReserved (v : Nat) : Bool :=
  (11 ≤ bits v 27 24 && bits v 27 24 ≤ 14) || (11 ≤ bits v 23 20 && bits v 23 20 ≤ 14)

/-- A write of MBX_CCFG (R453, R468): firmware configures criers 0–95, a PF 96–125, and of its own heartbeat crier the timeout. -/
def writeCcfg (e : Endpoint) (n v : Nat) (s : State) : State :=
  match e with
  | .host p =>
    if n < 96 then s
    else if 126 ≤ n then
      if heartbeatPort n = some p then onCrier n (setTimeout (bits v 19 0)) s else s
    else if namesReserved v then s else writeCcfgFields n v s
  | _ => if n < 96 ∧ !namesReserved v then writeCcfgFields n v s else s

/-- MBX_CCFG_WRITE (R468). -/
def execMbxCcfgWrite (e : Endpoint) (n : Nat) (value : W32) (s : State) : Host.Outcome State Fault Refusal :=
  .next (if n < 128 then endpointWrite e (crierOff n 0) (writeCcfg e n value.toNat) s else s)

/-- A host's write of MBX_CSTAT (R467): its sender clears EMPTIED and TIMED_OUT, either endpoint REJECTED. -/
def writeCstat (p : Port) (n v : Nat) (s : State) : State :=
  let code := endpointCode (.host p)
  onCrier n (fun c =>
    let own := c.sender == code
    { c with
      emptied := c.emptied && !(bit v 28 && own), timedOut := c.timedOut && !(bit v 27 && own)
      rejected := c.rejected && !(bit v 26 && (own || c.receiver == code)) }) s

/-- A host's write of MBX_CCTRL outside the rows of its own: TAKE before WITHDRAW, which then finds nothing (R460). -/
def writeCctrl (p : Port) (n v : Nat) (s : State) : State :=
  let e := Endpoint.host p
  let held := (getCrier n s).full
  let s := if bit v 31 then takeCrier e n s else s
  if bit v 30 && !(bit v 31 && held && !(getCrier n s).full) then withdrawCrier e n s else s

/-- Whether a crier shows an event for a host (R469). -/
def pends (code n : Nat) (s : State) : Bool :=
  let c := getCrier n s
  (c.full && c.receiver == code) || ((c.emptied || c.timedOut) && c.sender == code)

/-- MBX_HPEND of a port (R469). -/
def hpend (p : Port) (s : State) : Nat :=
  ((List.range 32).map fun i => if pends (endpointCode (.host p)) (96 + i) s then 2 ^ i else 0).foldl (· + ·) 0

/-! Heartbeats and links (R68, R459, R508, R542). -/

/-- The heartbeat of a port lost (R68, R459, R482). -/
def loseHeartbeat (p : Port) (s : State) : State :=
  let s := onHost (fun h => { h with
    hbArmed := h.hbArmed.filter (· != p), hbLost := h.hbLost.filter (· != p) ++ [p] }) s
  let s := onMbx (fun m => { m with timeouts := wrap64 (m.timeouts + 1) }) s
  let s := onCrier (126 + p.num) (fun c => { c with timer := none }) s
  let s := emit (.msix { port := p.other, vf := 0 } 3) s
  passOwner p (fileRec (mkRec 0x06 2 5 (locHost { port := p, vf := 0 } 0)) s)

/-- The watch on a heartbeat runs out (R459). -/
def heartbeatTimeout (p : Port) (s : State) : State :=
  match (getCrier (126 + p.num) s).timer with
  | none => s
  | some (t, us) => if s.host.hbArmed.contains p && t + us ≤ timeUs s then loseHeartbeat p s else s

/-- HEARTBEAT_TIMEOUT (R459). -/
def execHeartbeatTimeout (port : Port) (now : Nat) (s : State) : Host.Outcome State Fault Refusal :=
  .next (heartbeatTimeout port (atTime now s))

/-- Whether the always-on domain and the PCIe endpoints are powered (R508, R521). -/
def portsPowered (s : State) : Bool :=
  match s.board.boot.phase with
  | .starting _ | .up => true
  | .off | .heldUp | .tripped => false

/-- A link trains (R508 step 3): its PERST_N is high and the endpoint is powered. -/
def linkUp (p : Port) (s : State) : State :=
  if s.host.perst.contains p || s.host.linkUp.contains p || !portsPowered s then s
  else onHost (fun h => { h with
    linkUp := h.linkUp ++ [p], linkTrained := h.linkTrained.filter (· != p) ++ [p] }) s

/-- A trained link goes down (R68, R459). -/
def linkDown (p : Port) (s : State) : State :=
  if s.host.linkUp.contains p then
    loseHeartbeat p (onHost (fun h => { h with linkUp := h.linkUp.filter (· != p) }) s)
  else s

/-- PCIE_LINK_UP (R508). -/
def execPcieLinkUp (port : Port) (s : State) : Host.Outcome State Fault Refusal := .next (linkUp port s)

/-- PCIE_LINK_DOWN (R68). -/
def execPcieLinkDown (port : Port) (s : State) : Host.Outcome State Fault Refusal := .next (linkDown port s)

/-- PERST_ASSERT (R542): low for at least 100 µs. -/
def execPerstAssert (port : Port) (us : Nat) (s : State) : Host.Outcome State Fault Refusal :=
  .next (if us < 100 then s
    else linkDown port (onHost (fun h => { h with perst := h.perst.filter (· != port) ++ [port] }) s))

/-- PERST_DEASSERT (R508, R542): the port may train. -/
def execPerstDeassert (port : Port) (s : State) : Host.Outcome State Fault Refusal :=
  .next (onHost (fun h => { h with perst := h.perst.filter (· != port) }) s)

/-- Whether every queue of a function is disabled (R32): of a PF its control queue, of a VF the 17 of its partition. -/
def queuesOff (f : Fn) (s : State) : Bool :=
  if f.vf = 0 then (getQueue { scope := .pf f.port, q := 16 } s).state == .disabled
  else (partQueues (f.vf - 1)).all fun q => (getQueue q s).state == .disabled

/-- D3HOT_TRANSITION (R32): D3hot is accepted only while every queue of the function is disabled. -/
def execD3hotTransition (f : Fn) (d3 : Bool) (s : State) : Host.Outcome State Fault Refusal :=
  .next (if 64 < f.vf then s
    else if !d3 then leaveD3 f s
    else if queuesOff f s then onHost (fun h => { h with d3 := h.d3.filter (· != f) ++ [f] }) s else s)

/-! Gating (R22, R23, R462, R463). -/

/-- How many logical units of a kind can be gated; a tally unit goes with its walker. -/
def gateTotal : UnitKind → Nat
  | .quadrantNet => 4
  | .tally => 0
  | k => unitTotal k

/-- The units of a quadrant whose powering keeps its network up (R17, R22). -/
def quadrantUnits (q : Nat) : List (UnitKind × Nat) :=
  ((List.range 32).map fun i => (UnitKind.tile, 32 * q + i)) ++ ((List.range 16).map fun i => (UnitKind.walker, 16 * q + i))
    ++ ((List.range 4).map fun i => (UnitKind.selector, 4 * q + i)) ++ ((List.range 2).map fun i => (UnitKind.fwCore, 2 * q + i))
    ++ (List.range 64).map fun i => (UnitKind.stall, 64 * q + i)

/-- The quadrant of a unit (R17). -/
def unitQuadrant (kind : UnitKind) (n : Nat) : Nat := (blockQuadrant (.unit kind n)).getD 0

/-- Whether a doorbell has covered entries of a queue that the module has not fetched (R45). -/
def bellWaits (q : QRef) (s : State) : Bool :=
  let x := getQueue q s
  x.state == .running && x.sqHead != x.sqTail

/-- Whether a partition has a runnable context (R331), or a doorbell has announced work for one (R23). -/
def partRunnable (p : Nat) (s : State) : Bool :=
  (s.host.cmds.any fun k => k.queue.scope == .part p && (k.queue.q < 16 || k.remote))
    || (List.range 16).any fun n => bellWaits ⟨.part p, n⟩ s

/-- The control queues of the module: one per partition, one per PF (R38). -/
def controlQueues : List QRef := ⟨.pf .a, 16⟩ :: ⟨.pf .b, 16⟩ :: (List.range 64).map fun p => ⟨.part p, 16⟩

/-- Whether firmware has a control command to run (R66 step 1): one fetched and not completed, or announced by a doorbell. -/
def controlWork (s : State) : Bool :=
  (s.host.cmds.any fun k => k.queue.q == 16 && !k.remote) || controlQueues.any fun q => bellWaits q s

/-- Whether the gating condition of a unit holds (R22, R140, R197, R462). DESIGN CHOICE (log 107): a firmware core is idle while no
control command waits or runs; the manual does not say which core runs which. -/
def gateCondition (kind : UnitKind) (n : Nat) (s : State) : Bool :=
  match kind with
  | .tile | .walker | .tally => (unitOwner kind n s).all fun p => !partRunnable p s
  | .stall => (getStall n s).jobs.isEmpty
  | .selector =>
    (tget? s.sel.busy n).isNone && !(servesRows n s && !s.sel.queue.isEmpty) && !searchWaits n s && !mergeWaits n s
  | .fwCore => !controlWork s && !(List.range 126).any fun c => (getCrier c s).full && (getCrier c s).receiver == n
  | .quadrantNet => (quadrantUnits n).all fun u => !unitAwake u.1 u.2 s

/-- A unit powered or gated. -/
def setAwake (kind : UnitKind) (n : Nat) (on : Bool) (s : State) : State :=
  match kind with
  | .stall => onStall n (fun x => { x with gated := !on }) s
  | k => onPtn (fun x => { x with awake := x.awake.filter (· != (k, n)) ++ if on then [(k, n)] else [] }) s

/-- GATE_DELAY_US as it applied to a condition that began at a time (R470). -/
def gateDelay (since : Nat) (s : State) : Nat :=
  match s.board.pwr.delays.find? fun e => e.1 ≤ since with
  | some e => e.2
  | none => 50

/-- A unit whose condition has held since a time gated (R463). -/
def gateUnit (kind : UnitKind) (n since : Nat) (s : State) : State :=
  if n < gateTotal kind && unitAwake kind n s && !s.board.pwr.noGate && gateCondition kind n s
      && since + gateDelay since s ≤ timeUs s then setAwake kind n false s
  else s

/-- GATING_ENTRY (R463): the condition has held from `since` to `now`. -/
def execGatingEntry (kind : UnitKind) (unit : Nat) (since now : Nat) (s : State) : Host.Outcome State Fault Refusal :=
  .next (gateUnit kind unit since (atTime now s))

/-- A gated unit woken, with its quadrant's network (R463): by an event that needs it, or because NO_GATE is set; a core by any
event of its own. -/
def wakeUnit (kind : UnitKind) (n ns : Nat) (s : State) : State :=
  if n < gateTotal kind && !unitAwake kind n s && (s.board.pwr.noGate || kind == .fwCore || !gateCondition kind n s) then
    let s := setAwake kind n true s
    let q := unitQuadrant kind n
    let s := if kind == .quadrantNet || unitAwake .quadrantNet q s then s else setAwake .quadrantNet q true s
    onPwr (fun p => { p with wakes := wrap64 (p.wakes + 1), wakeNsMax := max p.wakeNsMax ns }) s
  else s

/-- UNIT_WAKE (R463): `ns` is how long the wake took. -/
def execUnitWake (kind : UnitKind) (unit : Nat) (ns : Nat) (s : State) : Host.Outcome State Fault Refusal :=
  .next (wakeUnit kind unit ns s)

/-! PLLs (R461). -/

/-- The PLLs of the module: the arithmetic and the network one of a quadrant, and that of the firmware cores. -/
inductive Pll where
  | arithmetic (q : Nat)
  | network (q : Nat)
  | firmware
deriving DecidableEq, Repr

/-- The units of a quadrant that its arithmetic PLL clocks and that can be gated (R22). DEDUCED (log 123): the shelf and query SRAM,
never gated, do not keep it running, since R472 resets ARITH_PLL to 0. -/
def arithmeticUnits (q : Nat) : List (UnitKind × Nat) := (quadrantUnits q).filter fun u => u.1 != .fwCore

/-- The units whose powering keeps a PLL running (R461). -/
def Pll.units : Pll → List (UnitKind × Nat)
  | .arithmetic q => arithmeticUnits q
  | .network q => quadrantUnits q
  | .firmware => (List.range 8).map fun i => (.fwCore, i)

/-- Whether a PLL runs: while any of its units is powered (R461). -/
def pllRuns (p : Pll) (s : State) : Bool := p.units.any fun u => unitAwake u.1 u.2 s

/-! Local counters (R464, R465). -/

/-- A 64-bit counter of the always-on domain. -/
def counterValue (cycles : Bool) (s : State) : Nat := wrap64 (if cycles then s.cycles else timeUs s)

/-- Whether a reader reaches the counters: a VF's BAR holds no PWR_ block, and a PF's answers only when the module serves. -/
def counterAnswers (r : Reader) (s : State) : Bool :=
  match r with
  | .fn f => f.vf == 0 && serving s
  | .core n => n < 8
  | .aoc => true

/-- A read of a counter (R465), its value and what it leaves: the low half fills the reader's latch, the high half empties it. -/
def latchCounter (r : Reader) (cycles : Bool) (half : Half) (s : State) : Nat × State :=
  let v := counterValue cycles s
  let mine : CountLatch → Bool := fun l => l.reader == r && l.cycles == cycles
  match half with
  | .whole => (v, s)
  | .low =>
    let l : CountLatch := { reader := r, cycles := cycles, high := v / 2 ^ 32 }
    (v % 2 ^ 32, onPwr (fun p => { p with latches := l :: p.latches.filter (!mine ·) }) s)
  | .high =>
    (((s.board.pwr.latches.find? mine).map (·.high)).getD (v / 2 ^ 32),
      onPwr (fun p => { p with latches := p.latches.filter (!mine ·) }) s)

/-- A read of a counter, its value given out. -/
def readCounter (r : Reader) (cycles : Bool) (half : Half) (s : State) : State :=
  let x := latchCounter r cycles half s
  emit (.counter r x.1) x.2

/-- COUNTER_READ (R465). -/
def execCounterRead (r : Reader) (cycles : Bool) (half : Half) (s : State) : Host.Outcome State Fault Refusal :=
  .next (if counterAnswers r s then readCounter r cycles half s else emit (.counter r 0) s)

end Sys2Proof.Machine
end

