-- ==== Sys2Proof/Machine/Power.lean ====
section
/-!
DEFINITION. The hold-up bank and the sequence it covers, resets, management signals, power and thermal limits, and the SMBus
endpoint (R26, R440–R442, R509, R533, R538–R545, R548, R553).
-/
namespace Sys2Proof.Machine

/-! The hold-up bank (R540, R541). -/

/-- Energy usable from the bank, in nJ (R540): half its capacitance times V² less 36². -/
def bankNj (s : State) : Nat := s.board.island.bankNf * (s.board.island.bankV ^ 2 - 144 ^ 2) / 32

/-- HOLDUP_PCT (R540): the usable energy as a percentage of what the bank would hold at 60 V; its capacitance cancels. -/
def holdupPct (s : State) : Nat := min 100 (100 * (s.board.island.bankV ^ 2 - 144 ^ 2) / (240 ^ 2 - 144 ^ 2))

/-- Whether the usable energy covers the reserve of 0.62 J (R541). -/
def bankCovers (s : State) : Bool := 620000000 ≤ bankNj s

/-- Operations that LUNs have not started held back (R541). -/
def holdWrites (s : State) : State :=
  let tails := s.med.luns.flatMap fun e => (e.2.ops.filter fun o => !o.started).map fun o => (e.1, o.work)
  onMed (fun m => { m with
    held := true, heldOps := m.heldOps ++ tails, luns := m.luns.map fun e => (e.1, { e.2 with ops := e.2.ops.filter (·.started) }) }) s

/-- Held operations issued. -/
def releaseWrites (s : State) : State :=
  let l := s.med.heldOps
  l.foldl (fun s e => issueOp e.1 e.2 s) (onMed (fun m => { m with held := false, heldOps := [] }) s)

/-- Programs and erases held while the usable energy is below the reserve, until it covers it at 90 % charge (R541). -/
def settleHeld (s : State) : State :=
  if !bankCovers s then if s.med.held then s else holdWrites s
  else if s.med.held && 90 ≤ holdupPct s then releaseWrites s else s

/-- BANK_MEASUREMENT (R540). -/
def execBankMeasurement (quarterVolts : Nat) (s : State) : Host.Outcome State Fault Refusal :=
  .next (settleHeld (onIsland (fun i => { i with bankV := min 255 quarterVolts }) s))

/-- BANK_CAPACITANCE_TEST (R540). -/
def execBankCapacitanceTest (nF : Nat) (s : State) : Host.Outcome State Fault Refusal :=
  .next (settleHeld (onIsland (fun i => { i with bankNf := nF }) s))

/-! Loss of what no reset and no loss of power leaves (R439, R440, R509). -/

/-- The unit that a repair-table KIND names (R493). -/
def unitOfCode (k : Nat) : Option UnitKind :=
  match k with
  | 1 => some .tile
  | 2 => some .walker
  | 3 => some .tally
  | 4 => some .stall
  | 5 => some .selector
  | 6 => some .fwCore
  | _ => none

/-- Units that repair-table entries give as RETIRED (R491–R493). -/
def retiredUnits (l : List Repair) : List UnitOut :=
  l.filterMap fun r => if r.state = 1 then (unitOfCode r.kind).map fun k =>
    { kind := k, unit := r.logical, retired := true, seq := r.cause, fatal := false } else none

/-- Spares with those given back that only a boot substitution used: the next self-test decides anew (R492). -/
def sparesKept (e : ErrSt) : Table Nat :=
  e.bootRepairs.foldl (fun t r =>
    if r.state = 0 then
      match (unitOfCode r.kind).bind fun k => spareKey k r.logical with
      | some k => smod sparesReset t k (· + 1)
      | none => t
    else t) e.spares

/-- The error collector after a reset: the factory entries, the field log, the spares and the row repairs of each bank stay
(R492–R494). -/
def errAfterReset (e : ErrSt) : ErrSt :=
  { errReset with factory := e.factory, field := e.field, rowRepairs := e.rowRepairs, spares := sparesKept e,
                  outs := retiredUnits (e.factory ++ e.field) }

/-- The boot block after a reset: what NOR and fuses hold stays (R501, R520, R524, R528). -/
def bootAfterReset (b : BootSt) (p : Phase) : BootSt :=
  { bootReset with
    phase := p, cause := b.cause, rootHash := b.rootHash, identity := b.identity, slotA := b.slotA, slotB := b.slotB, slot := b.slot
    record := b.record, minSvn := b.minSvn, owner := b.owner, attNext := b.attNext }

/-- Steps 1 to 3 of the hold-up, then everything volatile gone (R439, R440, R509): commands in flight never complete. What
flash, NOR, fuses and the standby island hold stays. -/
def goDown (p : Phase) (s : State) : State :=
  let t := powerCycleFlash (gaspFlash s)
  { State.reset with
    pending := t.pending, out := t.out, free := t.free
    host := { hostReset with perst := t.host.perst }
    grp := { mutReset with kept := t.grp.kept }
    err := errAfterReset t.err
    med := t.med
    board := { boardReset with island := t.board.island, boot := bootAfterReset t.board.boot p } }

/-- Whether the main regulators are up and the module is not held in reset: past step 1 of the power-on sequence (R508). -/
def powerGood (s : State) : Bool := s.board.island.pg && portsPowered s

/-- A reset without removal of power (R509): also in the middle of the power-on sequence, which restarts at step 2. -/
def resetModule (c : ResetCause) (s : State) : State := if powerGood s then goDown (.starting c) s else s

/-- A hold-up sequence or its like, after which the module is off or held in reset (R440, R542, R548): MOD_PG falls. -/
def shutDown (p : Phase) (s : State) : State := onIsland (fun i => { i with pg := false }) (goDown p s)

/-- HOLDUP_START (R440): below 44 V for 2 µs. During a thermal trip the sequence is the trip's (R553). -/
def execHoldupStart (mv us : Nat) (s : State) : Host.Outcome State Fault Refusal :=
  .next (if mv < 44000 ∧ 2 ≤ us ∧ portsPowered s then
    onIsland (fun i => { i with inputMv := mv / 10 }) (shutDown .heldUp s) else s)

/-- INPUT_RESTORED (R442): 46 V for 100 ms. -/
def execInputRestored (mv ms : Nat) (s : State) : Host.Outcome State Fault Refusal :=
  .next (if 46000 ≤ mv ∧ 100 ≤ ms then
    let s := onIsland (fun i => { i with inputMv := mv / 10 }) s
    match s.board.boot.phase with
    | .heldUp => onBoot (fun b => { b with phase := .starting .holdup }) s
    | .off => if s.board.island.modEn && s.board.island.powered then
        onBoot (fun b => { b with phase := .starting .powerOn }) s else s
    | .starting _ | .tripped | .up => s
  else s)

/-- INPUT_FAULT (R538): the disconnect opens and the hold-up sequence runs, for overvoltage and for overcurrent alike. -/
def execInputFault (_overvoltage : Bool) (s : State) : Host.Outcome State Fault Refusal :=
  let s := onIsland (fun i => { i with inputFault := i.powered }) s
  .next (if portsPowered s then shutDown .heldUp s else s)

/-! Resets (R509, R530, R533, R542). -/

/-- MODULE_RESET (R509): a reset that a completed command or download asked for. -/
def execModuleReset (cause : ResetCause) (s : State) : Host.Outcome State Fault Refusal :=
  .next (if s.board.boot.resetReq = some cause then resetModule cause s else s)

/-- PIN_RESET (R542): MOD_RST_N low for at least 10 µs; ignored during a hold-up (R553). -/
def execPinReset (us : Nat) (s : State) : Host.Outcome State Fault Refusal :=
  .next (if us < 10 then s else resetModule .pin s)

/-- FIRMWARE_WATCHDOG (R530). -/
def execFirmwareWatchdog (s : State) : Host.Outcome State Fault Refusal :=
  .next (if s.board.boot.stage = .ready then resetModule .watchdog s else s)

/-- PF BAR0 offset of BOOT_CTRL (R533). -/
def bootCtrlOff : Nat := 0xC0000C

/-- A LOCKED_WRITE record (R11). -/
def fileLocked (f : Fn) (off : Nat) (s : State) : State := fileRec (mkRec 0x03 0 6 (locReg f 0 off)) s

/-- A write of BOOT_CTRL (R11, R533). -/
def writeBootCtrl (f : Fn) (v : Nat) (s : State) : State :=
  let b := s.board.boot
  let changes := bit v 30 != b.smbResetEn || bit v 29 != b.smbRecoveryEn
  let off := if recoveryFn s then 0xC else bootCtrlOff
  let s := if b.owner.locked then if changes then fileLocked f off s else s
    else onBoot (fun b => { b with smbResetEn := bit v 30, smbRecoveryEn := bit v 29 }) s
  if !bit v 31 then s
  else if v % 2 ^ 16 = 0x5253 then resetModule .host s
  else fileBadValue f 0 off 0xFF 0xFF s

/-- BOOT_CTRL_RESET (R533). -/
def execBootCtrlReset (f : Fn) (value : W32) (s : State) : Host.Outcome State Fault Refusal :=
  .next (if f.vf = 0 then writeAt f bootCtrlOff (writeBootCtrl f value.toNat) s else s)

/-- MOD_EN_RISE (R508, R542): starts the power-on sequence, unless the input stands below 46 V; then INPUT_RESTORED does. -/
def execModEnRise (s : State) : Host.Outcome State Fault Refusal :=
  let s := onIsland (fun i => { i with modEn := true }) s
  .next (if s.board.boot.phase = .off ∧ s.board.island.powered = true ∧ 4600 ≤ s.board.island.inputMv then
    onBoot (fun b => { b with phase := .starting .powerOn }) s else s)

/-- MOD_EN_FALL (R542): low for 10 µs runs the hold-up steps and turns the main regulators off. -/
def execModEnFall (us : Nat) (s : State) : Host.Outcome State Fault Refusal :=
  .next (if us < 10 then s
    else
      let s := onIsland (fun i => { i with modEn := false, pg := false }) s
      if portsPowered s then goDown .off s else onBoot (fun b => { b with phase := .off }) s)

/-! The standby island (R539, R545). -/

/-- STANDBY_ISLAND_POWER_UP (R539): VIN_52 reaches 36 V. -/
def execStandbyIslandPowerUp (s : State) : Host.Outcome State Fault Refusal :=
  .next (if s.board.island.powered then s
    else onIsland (fun i => { islandReset with modEn := i.modEn, bankV := i.bankV, bankNf := i.bankNf }) s)

/-- STANDBY_ISLAND_POWER_LOSS (R539, R545): the sticky bits, the armed recovery and the copies are lost, and the module is
off. -/
def execStandbyIslandPowerLoss (s : State) : Host.Outcome State Fault Refusal :=
  let s := if portsPowered s then goDown .off s else onBoot (fun b => { b with phase := .off }) s
  .next (onIsland (fun i => { islandReset with powered := false, modEn := i.modEn, bankV := i.bankV, bankNf := i.bankNf }) s)

/-! Power and heat (R26, R548). -/

/-- The sample of a microsecond put in front of those of the 100 ms that end with it, newest first. -/
def addSample (us w : Nat) (l : List (Nat × Nat)) : List (Nat × Nat) := (us, w) :: l.filter fun e => e.1 < us && us < e.1 + 100000

/-- A 1 µs sample (R26): an excursion begins above 850 W; throttling begins above 1,000 W, after 5 ms of excursion, or when the
100,000 samples of 100 ms exceed 850 W on average, and ends at or below 850 W. -/
def powerSample (w : Nat) (s : State) : State :=
  let now := timeUs s
  onPwr (fun p =>
    let high : Bool := 850 < w
    let start : Option Nat := if high then some (p.excStart.getD now) else none
    let recent := addSample now w p.recent
    let sum := (recent.map (·.2)).foldl (· + ·) 0
    let heavy : Bool := 850 * 100000 < sum
    let enter := 1000 < w || (start.any fun t => t + 5000 ≤ now) || heavy
    let throttle := enter || (p.throttle && high)
    { p with
      inputW := min 1023 w, excursion := high, excStart := start, recent := recent, throttle := throttle
      excursions := wrap64 (p.excursions + b2n (high && !p.excursion))
      throttles := wrap64 (p.throttles + b2n (throttle && !p.throttle)) }) s

/-- POWER_SAMPLE (R26). -/
def execPowerSample (watts mv : Nat) (now : Nat) (s : State) : Host.Outcome State Fault Refusal :=
  .next (powerSample watts (onIsland (fun i => { i with inputMv := min 65535 (mv / 10) }) (atTime now s)))

/-- The hottest of some temperatures. -/
def hottest (l : List Nat) : Nat := l.foldl max 0

/-- A reading of the sensors (R548): throttling from 100 °C until each is 3 K below; a trip at 110 °C of the hub or 105 °C of a
stack die, which during a hold-up only sets THERM_TRIP (R553). -/
def thermalSample (hub : Nat) (dies : List Nat) (lid : Nat) (s : State) : State :=
  let hot := hottest dies
  let s := onPwr (fun p => { p with
    hubTemp := min 255 hub, stackTemp := min 255 hot, lidTemp := min 255 lid
    tThrottle := 100 ≤ hub || 100 ≤ hot || (p.tThrottle && (97 < hub || 97 < hot)) }) s
  if hub < 110 && hot < 105 then s
  else
    let s := onIsland (fun i => { i with thermTrip := i.powered }) s
    if portsPowered s then shutDown .tripped s else s

/-- THERMAL_SAMPLE (R548). -/
def execThermalSample (hub : Nat) (stackTemps : List Nat) (lid : Nat) (s : State) : Host.Outcome State Fault Refusal :=
  .next (thermalSample hub stackTemps lid s)

/-! SMBus (R544, R545). -/

/-- The answer of the endpoint, which is silent while VIN_52 is below 36 V. -/
def smbAnswer (r : Option (List Byte)) (s : State) : State := if s.board.island.powered then emit (.smbus r) s else s

/-- MOD_READY (R542). -/
def modReady (s : State) : Bool := s.board.boot.phase == .up && s.board.boot.stage == .ready && !s.err.halted

/-- MOD_THERM_N (R542): low while a thermal trip holds. -/
def modThermN (s : State) : Bool := s.board.boot.phase != .tripped

/-- SMB_ALERT_N (R544): low while STATUS bit 3 or bit 7 is set. -/
def smbAlertN (s : State) : Bool := !(s.board.island.thermTrip || s.board.island.inputFault)

/-- STATUS (R545); a bank too small for the reserve leaves bit 4 clear (R541). -/
def smbStatusByte (s : State) : Nat :=
  let i := s.board.island
  b2n i.pg + 2 * b2n (modReady s) + 4 * b2n s.board.pwr.tThrottle + 8 * b2n i.thermTrip
    + 16 * b2n (90 ≤ holdupPct s && 538000 ≤ i.bankNf) + 32 * b2n s.err.halted
    + 64 * b2n (s.board.boot.stage == .recovery) + 128 * b2n i.inputFault

/-- SMB_STATUS (R545). -/
def execSmbStatus (s : State) : Host.Outcome State Fault Refusal := .next (smbAnswer (some (leBytes 1 (smbStatusByte s))) s)

/-- SMB_INPUT_MV (R545). -/
def execSmbInputMv (s : State) : Host.Outcome State Fault Refusal :=
  .next (smbAnswer (some (leBytes 2 s.board.island.inputMv)) s)

/-- SMB_INPUT_W (R545). -/
def execSmbInputW (s : State) : Host.Outcome State Fault Refusal :=
  .next (smbAnswer (some (leBytes 2 s.board.pwr.inputW)) s)

/-- SMB_TEMPS (R545). -/
def execSmbTemps (s : State) : Host.Outcome State Fault Refusal :=
  let p := s.board.pwr
  .next (smbAnswer (some (leBytes 1 p.hubTemp ++ leBytes 1 p.stackTemp ++ leBytes 1 p.lidTemp ++ zeros 1)) s)

/-- SMB_HOLDUP (R545). -/
def execSmbHoldup (s : State) : Host.Outcome State Fault Refusal := .next (smbAnswer (some (leBytes 1 (holdupPct s))) s)

/-- GLB_PART_ID.HUB_GEN (R29). -/
def hubGen : Nat := 0x07

/-- STEPPING of the identity block (R29, R506). -/
def stepping (s : State) : Nat := readLe s.board.boot.identity 6 1 % 16

/-- GLB_PART_ID (R29): FAMILY, HUB_GEN, FORM, STEPPING. -/
def partId (s : State) : Nat := 0x5651 * 2 ^ 16 + hubGen * 2 ^ 8 + 0x1 * 2 ^ 4 + stepping s

/-- SERIAL of the identity block (R506). -/
def serialBytes (s : State) : List Byte := readBytes s.board.boot.identity 8 16

/-- SMB_SERIAL (R545): zero before the first READY since VIN_52 came. -/
def execSmbSerial (s : State) : Host.Outcome State Fault Refusal :=
  .next (smbAnswer (some (if s.board.island.ready then serialBytes s else zeros 16)) s)

/-- SMB_CAUSE (R545). -/
def execSmbCause (s : State) : Host.Outcome State Fault Refusal :=
  .next (smbAnswer (some (leBytes 1 s.board.boot.cause.code)) s)

/-- A CONTROL write (R544, R545): NACKed when its PEC fails or its copy of the enable is 0. -/
def smbControl (allowed : Bool) (act : State → State) (s : State) : State :=
  if !s.board.island.powered then s
  else if allowed then act (emit (.smbus (some [])) s) else emit (.smbus none) s

/-- SMB_CLEAR_STICKY (R545). -/
def execSmbClearSticky (pecOk : Bool) (s : State) : Host.Outcome State Fault Refusal :=
  .next (smbControl pecOk (onIsland fun i => { i with thermTrip := false, inputFault := false }) s)

/-- SMB_RESET (R545). -/
def execSmbReset (pecOk : Bool) (s : State) : Host.Outcome State Fault Refusal :=
  .next (smbControl (pecOk && s.board.island.resetEn) (resetModule .smbus) s)

/-- SMB_ARM_RECOVERY (R545). -/
def execSmbArmRecovery (pecOk : Bool) (s : State) : Host.Outcome State Fault Refusal :=
  .next (smbControl (pecOk && s.board.island.recoveryEn) (onIsland fun i => { i with armedRecovery := true }) s)

/-- SMB_ALERT_RESPONSE (R544): while SMB_ALERT_N is low, the endpoint's address in the upper seven bits. -/
def execSmbAlertResponse (s : State) : Host.Outcome State Fault Refusal :=
  .next (smbAnswer (if !smbAlertN s then some (leBytes 1 (2 * (0x60 + Config.smbAddr.toNat))) else none) s)

end Sys2Proof.Machine
end

