-- ==== Sys2Proof/Machine/Sha.lean ====
section
/-!
DEFINITION. SHA-256, of which the attestation report gives digests (R527). The manual takes the function from outside; this is
the one of FIPS 180-4 (PRESUMED, log entry 48).
-/
namespace Sys2Proof.Machine.Sha

/-- The first 64 primes, from which FIPS 180-4 takes the constants. -/
def primes : List Nat :=
  [2, 3, 5, 7, 11, 13, 17, 19, 23, 29, 31, 37, 41, 43, 47, 53, 59, 61, 67, 71, 73, 79, 83, 89, 97, 101, 103, 107, 109, 113, 127, 131] ++
  [137, 139, 149, 151, 157, 163, 167, 173, 179, 181, 191, 193, 197, 199, 211, 223, 227, 229, 233, 239, 241, 251, 257, 263, 269, 271,
   277, 281, 283, 293, 307, 311]

/-- The largest `r + x`, with `x` below 2^n, whose power `k` does not pass `v`: one bit after the other. -/
def rootFrom (k v : Nat) : Nat → Nat → Nat
  | 0, r => r
  | n + 1, r => rootFrom k v n (if (r + 2 ^ n) ^ k ≤ v then r + 2 ^ n else r)

/-- The first 32 bits after the point of the root `k` of a number below 512. -/
def rootBits (k p : Nat) : BitVec 32 := BitVec.ofNat 32 (rootFrom k (p * 2 ^ (32 * k)) 37 0)

/-- The 64 round constants: bits of the cube roots of the primes. -/
def roundConsts : List (BitVec 32) := primes.map (rootBits 3)

/-- The initial hash value: bits of the square roots of the first eight primes. -/
def start : List (BitVec 32) := (primes.take 8).map (rootBits 2)

/-- A rotation to the right. -/
def rotr (x : BitVec 32) (n : Nat) : BitVec 32 := x.rotateRight n

/-- One more word of the message schedule in front of the words so far, newest first. -/
def nextWord (w : List (BitVec 32)) : List (BitVec 32) :=
  let a := w.getD 1 0
  let b := w.getD 14 0
  let s1 := rotr a 17 ^^^ rotr a 19 ^^^ (a >>> 10)
  let s0 := rotr b 7 ^^^ rotr b 18 ^^^ (b >>> 3)
  (s1 + w.getD 6 0 + s0 + w.getD 15 0) :: w

/-- The schedule grown by `n` words. -/
def grow : Nat → List (BitVec 32) → List (BitVec 32)
  | 0, w => w
  | n + 1, w => grow n (nextWord w)

/-- One round on the eight working words. -/
def round (v : List (BitVec 32)) (kw : BitVec 32) : List (BitVec 32) :=
  match v with
  | [a, b, c, d, e, f, g, h] =>
    let t1 := h + (rotr e 6 ^^^ rotr e 11 ^^^ rotr e 25) + ((e &&& f) ^^^ (~~~e &&& g)) + kw
    let t2 := (rotr a 2 ^^^ rotr a 13 ^^^ rotr a 22) + ((a &&& b) ^^^ (a &&& c) ^^^ (b &&& c))
    [t1 + t2, a, b, c, d + t1, e, f, g]
  | v => v

/-- A big-endian number of bytes. -/
def beNat (bs : List Byte) : Nat := bs.foldl (fun n b => 256 * n + b.toNat) 0

/-- A number as `n` big-endian bytes. -/
def beBytes (n v : Nat) : List Byte := (leBytes n v).reverse

/-- One block of 64 bytes taken in. -/
def block (h : List (BitVec 32)) (bs : List Byte) : List (BitVec 32) :=
  let w := (chunks 4 16 bs).map fun c => BitVec.ofNat 32 (beNat c)
  let ws := (grow 48 w.reverse).reverse
  let v := (List.zipWith (· + ·) ws roundConsts).foldl round h
  List.zipWith (· + ·) h v

/-- A message with its padding. -/
def pad (bs : List Byte) : List Byte :=
  let n := bs.length
  bs ++ [0x80#8] ++ zeros ((119 - n % 64) % 64) ++ beBytes 8 (8 * n)

/-- The digest of a message. -/
def sha256 (bs : List Byte) : List Byte :=
  let p := pad bs
  ((chunks 64 (p.length / 64) p).foldl block start).flatMap fun w => beBytes 4 w.toNat

end Sys2Proof.Machine.Sha
end

