-- ==== Sys2Proof/Machine/Certs.lean ====
section
/-!
DEFINITION. Keys, signatures and certificates, and the checks of the identity block and of a firmware slot (R503–R507, R511–R513).
What the verification of a signature gives is an outcome of the command that asks for it.
-/
namespace Sys2Proof.Machine

/-- The commit flag (R502). -/
def commitFlag : Nat := 0x544D4D43

/-- Four bytes of an HSS structure, which RFC 8554 lays out big-endian. -/
def hssWord (bs : List Byte) (off : Nat) : Nat := Sha.beNat ((bs.drop off).take 4)

/-- Whether 60 bytes are a public key that R503 admits: L = 2 and the two typecodes. -/
def keyOk (bs : List Byte) : Bool := bs.length == 60 && hssWord bs 0 == 2 && hssWord bs 4 == 6 && hssWord bs 8 == 4

/-- Whether the typecodes of an LMS signature, of 1,452 bytes from `off` on, are those of R503. -/
def lmsForm (bs : List Byte) (off : Nat) : Bool := hssWord bs (off + 4) == 4 && hssWord bs (off + 1128) == 6

/-- Whether 2,964 bytes have the form of a signature that R503 admits: one signed key, of those typecodes, between two LMS signatures.
PRESUMED (log 122): the places are those of RFC 8554. -/
def hssForm (bs : List Byte) : Bool :=
  bs.length == 2964 && hssWord bs 0 == 1 && lmsForm bs 4 && hssWord bs 1456 == 6 && hssWord bs 1460 == 4 && lmsForm bs 1512

/-! Certificates (R504, R505). -/

/-- SUBJECT_KEY. -/
def certSubject (bs : List Byte) : List Byte := (bs.drop 8).take 60

/-- ISSUER_KEY. -/
def certIssuer (bs : List Byte) : List Byte := (bs.drop 68).take 60

/-- Whether the fields of a certificate are those of R503 and R504, for a purpose. -/
def certForm (purpose : Nat) (bs : List Byte) : Bool :=
  field bs 0 4 == 0x54524543 && field bs 4 2 == 1 && field bs 6 1 == purpose && field bs 7 1 == 0
    && keyOk (certSubject bs) && keyOk (certIssuer bs) && hssForm ((bs.drop 128).take 2964) && zeroField bs 3092 1004

/-- Whether a certificate is valid (R505): its fields, its signature, and its issuer. -/
def certOk (purpose : Nat) (issuer : List Byte → Bool) (verifies : Bool) (bs : List Byte) : Bool :=
  certForm purpose bs && verifies && issuer (certIssuer bs)

/-- Whether a key is the root key: its SHA-256 is the hash held in the ROM (R505). -/
def isRoot (s : State) (key : List Byte) : Bool := Sha.sha256 key == s.board.boot.rootHash

/-! The identity block (R506, R507). -/

/-- The FACTORY and the ATTEST certificate of an identity block. -/
def factoryCert (m : Memory) : List Byte := readBytes m 0x1000 4096
/-- See `factoryCert`. -/
def attestCert (m : Memory) : List Byte := readBytes m 0x2000 4096

/-- Whether a copy of the identity block is valid (R507). -/
def copyOk (m : Memory) (v : IdSigs) (s : State) : Bool :=
  readLe m 0xFFFC 4 == commitFlag && certOk 2 (isRoot s) v.factory (factoryCert m)
    && certOk 3 (· == certSubject (factoryCert m)) v.attest (attestCert m)
    && hssForm (readBytes m 0xF000 2964) && v.block

/-- The copy that the ROM uses: copy 0 if it is valid, else copy 1 (R507). -/
def chosenCopy (f : BootFindings) (s : State) : Option Memory :=
  if copyOk f.copy0 f.sigs0 s then some f.copy0 else if copyOk f.copy1 f.sigs1 s then some f.copy1 else none

/-- A repair-table entry of 16 bytes (R493). -/
def parseRepair (bs : List Byte) : Repair :=
  { kind := field bs 0 1, origin := field bs 1 1, state := field bs 2 1, place := field bs 3 1, logical := field bs 4 2,
    row := field bs 8 4, cause := field bs 12 4 }

/-- The factory repair entries of an identity block (R493, R506). -/
def factoryRepairs (m : Memory) : List Repair :=
  ((List.range 256).map fun i => parseRepair (readBytes m (0x5000 + 16 * i) 16)).filter (·.kind != 0)

/-- The bytes of a memory from outside, put into canonical form. -/
def storeMem (m : Memory) : Memory := m.foldl (fun t e => writeByte t e.1 e.2) []

/-- The identity block in use: STEPPING, SERIAL and the other fields marked ID are read from it from now on (R507). -/
def useIdentity (m : Memory) (s : State) : State := onBoot (fun b => { b with identity := storeMem m }) s

/-! Slots (R511–R513). -/

/-- A firmware slot, 0 A or 1 B. -/
def getFwSlot (n : Nat) (s : State) : FwSlot := if n = 0 then s.board.boot.slotA else s.board.boot.slotB

/-- A field of a slot's manifest (R512). -/
def manifest (x : FwSlot) (off len : Nat) : Nat := readLe x.bytes off len

/-- SVN of a slot's manifest. -/
def slotSvn (x : FwSlot) : Nat := manifest x 6 1

/-- Whether a manifest meets R512, and its hub generation and steppings match the module. -/
def manifestOk (x : FwSlot) (s : State) : Bool :=
  manifest x 0 4 == 0x4D574651 && manifest x 4 2 == 1 && slotSvn x ≤ 63 && manifest x 7 1 ≤ 1
    && 1 ≤ manifest x 12 4 && manifest x 12 4 ≤ 25145344 && manifest x 16 1 == hubGen
    && manifest x 17 1 ≤ stepping s && stepping s ≤ manifest x 18 1
    && manifest x 19 1 == 0 && zeroField (readBytes x.bytes 56 456) 0 456

/-- The FIRMWARE certificate of a slot. -/
def firmwareCert (x : FwSlot) : List Byte := readBytes x.bytes 0x1000 4096

/-- Whether the certificate, the Mehrura signature and the body hash of a slot hold (R511, R513). -/
def imageHolds (x : FwSlot) (v : SlotSigs) (s : State) : Bool :=
  certOk 1 (isRoot s) v.cert (firmwareCert x) && hssForm (readBytes x.bytes 0x2000 2964) && v.image
    && Sha.sha256 (readBytes x.bytes 0x4000 (manifest x 12 4)) == readBytes x.bytes 24 32

/-- Whether the owner countersignature of a slot verifies under the owner key (R511, R513). -/
def countersigned (x : FwSlot) (verifies : Bool) (s : State) : Bool :=
  s.board.boot.owner.key.isSome && hssForm (readBytes x.bytes 0x3000 2964) && verifies

/-- Whether a slot's image passes R513 but for its commit record and its countersignature. -/
def imagePasses (n : Nat) (v : SlotSigs) (s : State) : Bool :=
  let x := getFwSlot n s
  manifestOk x s && imageHolds x v s && s.board.boot.minSvn ≤ slotSvn x

/-- Whether a slot carries the countersignature that the owner lock asks for (R513). -/
def ownerAgrees (n : Nat) (v : SlotSigs) (s : State) : Bool :=
  !s.board.boot.owner.locked || countersigned (getFwSlot n s) v.owner s

/-- Whether a slot is valid (R513). -/
def slotValid (n : Nat) (v : SlotSigs) (s : State) : Bool := (getFwSlot n s).commit && imagePasses n v s && ownerAgrees n v s

end Sys2Proof.Machine
end

