-- ==== Sys2Proof/Machine/Boot.lean ====
section
/-!
DEFINITION. The power-on sequence, firmware slots and updates, recovery, the owner lock and attestation (chapter 17; R442, R492,
R494).
-/
namespace Sys2Proof.Machine

/-! Slots (R511–R513). -/

/-- A firmware slot changed by `f`. -/
def onFwSlot (n : Nat) (f : FwSlot → FwSlot) (s : State) : State :=
  onBoot (fun b => if n = 0 then { b with slotA := f b.slotA } else { b with slotB := f b.slotB }) s

/-- A boot record appended in place of the one in force (R502, R514). -/
def appendRec (r : BootRec) : BootRec := { r with seq := r.seq + 1 }

/-- The choice of a slot without a trial (R515): the record in force, the slot, and whether this boot falls back. -/
def chooseConfirmed (valid : Nat → Bool) (r : BootRec) (fell : Bool) : BootRec × Option Nat × Bool :=
  let o := 1 - r.active
  if valid r.active then (r, some r.active, fell)
  else if valid o then (appendRec { r with active := o, last := 1 }, some o, true)
  else (r, none, fell)

/-- The choice of a slot (R515): a trial boot spends a try; a trial without tries or a valid image is dropped. -/
def chooseSlot (valid : Nat → Bool) (r : BootRec) : BootRec × Option Nat × Bool :=
  if r.trial = 0xFF then chooseConfirmed valid r false
  else if 0 < r.tries ∧ valid r.trial then (appendRec { r with tries := r.tries - 1 }, some r.trial, false)
  else chooseConfirmed valid (appendRec { r with trial := 0xFF, last := 1 }) true

/-! The power-on sequence (R508). -/

/-- Pending row repairs applied (R494). -/
def applyRows (s : State) : State :=
  let apply : Repair → Repair := fun r => if r.kind = 8 ∧ r.state = 2 then { r with state := 3 } else r
  onErr (fun e => { e with field := e.field.map apply }) s

/-- A unit that the self-test fails (R492, R493): substituted, or retired with a SPARES_OUT record when no spare is left; one that
the table names already makes no further entry. -/
def selfTest (s : State) (u : UnitKind × Nat) : State :=
  let (kind, n) := u
  let code := unitCode kind
  if (spareKey kind n).isNone || unitTotal kind ≤ n
      || (s.err.factory ++ s.err.bootRepairs ++ s.err.field).any (fun r => r.kind == code && r.logical == n) then s
  else
    let out := sparesLeft kind n s == 0
    let r : Repair := { unitRepair kind n (b2n out) 0 with origin := 1, cause := 0 }
    let s := onErr (fun e => { e with bootRepairs := e.bootRepairs ++ [r] }) s
    if !out then useSpare kind n s
    else
      let (s, seq, _) := fileErr (unitRec 0x22 2 kind n s) none false s
      onErr (fun e => { e with outs := e.outs ++ [{ kind := kind, unit := n, retired := true, seq := seq, fatal := false }] }) s

/-- The factory entries of the identity block entered (R492): each new one has used a spare, or retired its unit. -/
def loadFactory (m : Memory) (s : State) : State :=
  let new := (factoryRepairs m).filter fun r => !s.err.factory.contains r
  let s := onErr (fun e => { e with factory := factoryRepairs m, outs := e.outs ++ retiredUnits new }) s
  new.foldl (fun s r =>
    match unitOfCode r.kind with
    | some k => if r.state = 0 then useSpare k r.logical s else s
    | none => s) s

/-- Fuses blown so that MIN_SVN equals the SVN of a confirmed slot that asks for it (R520). -/
def raiseSvn (n : Nat) (s : State) : State :=
  let x := getFwSlot n s
  if bit (manifest x 7 1) 0 then onBoot (fun b => { b with minSvn := max b.minSvn (slotSvn x) }) s else s

/-- Firmware brings the module to READY (R508 steps 5 to 7): the media mount is due. -/
def bringUp (n : Nat) (trial fell : Bool) (f : BootFindings) (s : State) : State :=
  let s := f.selfTestFails.foldl selfTest (applyRows s)
  let spares := !(allRecs s).any fun r => r.cls == 0x22
  let now := timeUs s
  let s := onBoot (fun b => { b with
    phase := .up, stage := .ready, slot := n, trial := trial, fallback := fell, stacksOk := f.stacksTrained, sparesOk := spares
    trialEnd := if trial then some (now + 600000000) else none }) s
  let en := s.board.boot.smbResetEn
  let rec' := s.board.boot.smbRecoveryEn
  let s := onIsland (fun i => { i with resetEn := en, recoveryEn := rec', ready := true }) s
  if trial then s else raiseSvn n s

/-- The module past the sequence in a stage without firmware (R507, R521). -/
def stopAt (st : Stage) (s : State) : State := onBoot (fun b => { b with phase := .up, stage := st }) s

/-- Steps 4 to 7 (R507, R508, R515, R521). -/
def runRom (removed : Bool) (f : BootFindings) (s : State) : State :=
  let i := s.board.island
  match chosenCopy f s with
  | none => stopAt .noIdentity s
  | some m =>
    let s := useIdentity m s
    let s := if removed then onIsland (fun i => { i with armedRecovery := false }) s else s
    if removed && i.armedRecovery && i.recoveryEn then stopAt .recovery s
    else
      let valid : Nat → Bool := fun n => if n = 0 then slotValid 0 f.slotA s else slotValid 1 f.slotB s
      let r := s.board.boot.record
      let (r', slot, fell) := chooseSlot valid r
      let s := onBoot (fun b => { b with record := r' }) s
      match slot with
      | none => stopAt .recovery s
      | some n => bringUp n (!fell && r.trial != 0xFF) fell f (loadFactory m s)

/-- The power-on sequence (R508): where power was removed, MOD_PG waits for the bank (R541); then the counters start at 0
(R464). -/
def powerOn (f : BootFindings) (s : State) : State :=
  match s.board.boot.phase with
  | .starting c =>
    let removed := c == .powerOn || c == .holdup
    if removed && !(90 ≤ holdupPct s && bankCovers s) then s
    else
      let s := onBoot (fun b => { b with cause := c }) (onIsland (fun i => { i with pg := true }) { s with cycles := 0 })
      runRom removed f s
  | .off | .heldUp | .tripped | .up => s

/-- POWER_ON (R508). -/
def execPowerOn (b : BootFindings) (s : State) : Host.Outcome State Fault Refusal := .next (powerOn b s)

/-! Updates (R516–R520). -/

/-- The inactive slot. -/
def inactiveSlot (s : State) : Nat := 1 - s.board.boot.slot

/-- Whether a composition migration holds (R516). -/
def migrating (s : State) : Bool :=
  s.fab.comps.any fun c => c.2.prev.isSome || c.2.slots.any fun x => x.2.state == .offering || x.2.state == .receiving

/-- The states in which an update is refused (R516), but for the owner lock. -/
def updateRefused (s : State) : Bool := migrating s || holdupPct s < 90 || s.board.boot.trial

/-- A slot invalid and erased, with a session for a port (R517, R523). -/
def openSession (n : Nat) (p : Port) (s : State) : State :=
  onBoot (fun b => { b with session := some { port := p, done := [] } }) (onFwSlot n (fun _ => fwSlotEmpty) s)

/-- FW_STAGE with OP BEGIN (R517); an OP that is none is BAD_PARAM. -/
def execFwStageBegin (c : CmdRef) (d : CmdIn) (s : State) : Host.Outcome State Fault Refusal :=
  .next (begin 0x50 (fun ps => !opIs 1 ps) c d
    (fun k ps _ s => firstFail [
      (field ps 0 1 != 0 || k.dataLen != 0, stBadParam),
      (updateRefused s, stRefused)])
    (fun k _ _ s => completeSt k.ref stOk (openSession (inactiveSlot s) (cmdPort k s) s)) s)

/-- Whether a range touches bytes programmed since the session began. -/
def programmed (x : StageSession) (off len : Nat) : Bool := x.done.any fun r => off < r.1 + r.2 && r.1 < off + len

/-- Bytes programmed into a slot of the session. -/
def programSlot (n off : Nat) (bs : List Byte) (s : State) : State :=
  let s := onFwSlot n (fun x => { x with bytes := writeBytes x.bytes off bs }) s
  let add : StageSession → StageSession := fun x => { x with done := x.done ++ [(off, bs.length)] }
  onBoot (fun b => { b with session := b.session.map add }) s

/-- The checks of CHUNK (R517). -/
def chunkCheck (k : Cmd) (ps inp : List Byte) (s : State) : Verdict :=
  let off := field ps 8 4
  if off % 4096 != 0 || k.dataLen == 0 || 1048576 < k.dataLen
      || 0x17FF000 < off + k.dataLen then .fail stBadParam 0
  else match s.board.boot.session with
    | none => .fail stBadParam 0
    | some x => firstFail [
        (x.port != cmdPort k s, stRefused),
        (programmed x off k.dataLen || crc32c inp != field ps 4 4, stBadParam)]

/-- FW_STAGE with OP CHUNK (R517). -/
def execFwStageChunk (c : CmdRef) (d : CmdIn) (s : State) : Host.Outcome State Fault Refusal :=
  .next (begin 0x50 (opIs 1) c d chunkCheck
    (fun k ps inp s => completeSt k.ref stOk (programSlot (inactiveSlot s) (field ps 8 4) inp s)) s)

/-- A slot's commit record, then the boot record that puts it on trial (R518, R523). -/
def armSlot (n : Nat) (f : BootRec → BootRec) (s : State) : State :=
  let s := onFwSlot n (fun x => { x with commit := true }) s
  onBoot (fun b => { b with record := appendRec { f b.record with trial := n, tries := 3 }, session := none }) s

/-- FW_ARM (R516, R518). -/
def execFwArm (c : CmdRef) (d : CmdIn) (v : SlotSigs) (s : State) : Host.Outcome State Fault Refusal :=
  .next (begin 0x51 (fun _ => true) c d
    (fun k _ _ s => firstFail [
      (k.dataLen != 0, stBadParam),
      (updateRefused s || !ownerAgrees (inactiveSlot s) v s
        || s.board.boot.session.any (fun x => x.port != cmdPort k s), stRefused),
      (!imagePasses (inactiveSlot s) v s, stBadParam)])
    (fun k ps _ s =>
      let n := inactiveSlot s
      let version := manifest (getFwSlot n s) 8 4
      let s := armSlot n id s
      let s := if bit (field ps 0 1) 0 then onBoot (fun b => { b with resetReq := some .fwArm }) s else s
      complete k.ref stOk 0 version [] s) s)

/-- Whether the health checks of FW_CONFIRM pass (R519). -/
def healthy (s : State) : Bool :=
  s.board.boot.stage == .ready && s.err.fatals == 0 && s.board.boot.stacksOk && s.board.boot.sparesOk

/-- FW_CONFIRM (R519, R520). -/
def execFwConfirm (c : CmdRef) (d : CmdIn) (s : State) : Host.Outcome State Fault Refusal :=
  .next (begin 0x52 (fun _ => true) c d
    (fun k _ _ s => firstFail [
      (k.dataLen != 0, stBadParam),
      (s.board.boot.trial && s.med.state == .mounting, stBusy),
      (s.board.boot.trial && !healthy s, stRefused)])
    (fun k _ _ s =>
      if !s.board.boot.trial then completeSt k.ref stOk s
      else
        let n := s.board.boot.slot
        let s := onBoot (fun b => { b with
          record := appendRec { b.record with active := n, trial := 0xFF, last := 0 }, trial := false, trialEnd := none }) s
        complete k.ref stOk 1 0 [] (raiseSvn n s)) s)

/-- The trial window ends (R519): TRIES 0, then a reset. -/
def expireTrial (s : State) : State :=
  match s.board.boot.trialEnd with
  | none => s
  | some t =>
    if timeUs s < t then s
    else resetModule .trialExpired (onBoot (fun b => { b with record := appendRec { b.record with tries := 0 } }) s)

/-- TRIAL_EXPIRY (R519). -/
def execTrialExpiry (now : Nat) (s : State) : Host.Outcome State Fault Refusal := .next (expireTrial (atTime now s))

/-! Recovery (R521–R523, R535). -/

/-- BOOT_RCV_STAT after an operation: DONE, or FAILED with an error. -/
def rcvEnds (error : Nat) (s : State) : State :=
  onBoot (fun b => { b with rcv := { state := if error = 0 then 2 else 3, error := error } }) s

/-- An operation of the recovery function (R522, R523): without an identity it is refused; one from the other port than the
session's fails. -/
def rcvOp (p : Port) (needs : Bool) (act : State → State) (s : State) : State :=
  match s.board.boot.stage with
  | .noIdentity =>
    let e := (Config.freeValue s.free).toNat % 64
    onBoot (fun b => { b with rcv := { state := 3, error := e } }) (takeFree 1 s)
  | .recovery =>
    match s.board.boot.session with
    | none => if needs then rcvEnds 1 s else act s
    | some x => if x.port = p then act s else rcvEnds 1 s
  | .rom | .fwInit | .ready => s

/-- ERASE in recovery (R523): takes the session. -/
def rcvErase (port : Port) (s : State) : State := rcvOp port false (fun s => rcvEnds 0 (openSession 0 port s)) s

/-- RESET in recovery (R523): within 10 ms a reset with cause RECOVERY_DONE. -/
def rcvReset (port : Port) (s : State) : State :=
  rcvOp port false (fun s => onBoot (fun b => { b with resetReq := some .recoveryDone }) s) s

/-- RCV_ERASE (R523). -/
def execRcvErase (port : Port) (s : State) : Host.Outcome State Fault Refusal := .next (rcvErase port s)

/-- Bytes written to the DATA window (R522). -/
def fillWindow (off : Nat) (bs : List Byte) (s : State) : State :=
  onBoot (fun b => { b with window := writeBytes b.window off bs }) s

/-- The DATA window programmed as a chunk (R523): as chunk 383 its first 60 KiB. -/
def rcvProgram (chunk : Nat) (s : State) : State :=
  let bs := readBytes s.board.boot.window 0 (if chunk = 383 then 61440 else 65536)
  let off := 65536 * chunk
  if 383 < chunk || s.board.boot.session.any (fun x => programmed x off bs.length) then rcvEnds 1 s
  else rcvEnds 0 (programSlot 0 off bs s)

/-- WRITE in recovery (R523). -/
def rcvWrite (port : Port) (chunk : Nat) (s : State) : State := rcvOp port true (rcvProgram chunk) s

/-- RCV_WRITE (R523): the DATA window filled, then the operation. -/
def execRcvWrite (port : Port) (chunk : Nat) (data : List Byte) (s : State) : Host.Outcome State Fault Refusal :=
  .next (if recoveryFn s then rcvWrite port chunk (fillWindow 0 (fit 65536 data) s) else s)

/-- ARM in recovery (R523, R535). -/
def rcvArm (v : SlotSigs) (s : State) : State :=
  let x := getFwSlot 0 s
  if holdupPct s < 90 then rcvEnds 5 s
  else if !ownerAgrees 0 v s then rcvEnds 4 s
  else if !(manifestOk x s && imageHolds x v s) then rcvEnds 2 s
  else if slotSvn x < s.board.boot.minSvn then rcvEnds 3 s
  else rcvEnds 0 (armSlot 0 (fun r => { r with active := 0, last := 2 }) s)

/-- RCV_ARM (R523). -/
def execRcvArm (port : Port) (v : SlotSigs) (s : State) : Host.Outcome State Fault Refusal :=
  .next (rcvOp port true (rcvArm v) s)

/-- RCV_RESET (R523). -/
def execRcvReset (port : Port) (s : State) : Host.Outcome State Fault Refusal := .next (rcvReset port s)

/-! The owner lock (R524, R525). -/

/-- The owner record appended with a change (R502, R524). -/
def onOwner (f : OwnerRec → OwnerRec) (s : State) : State :=
  onBoot (fun b => { b with owner := { f b.owner with seq := b.owner.seq + 1 } }) s

/-- The block of an OWNER command: only OP is given (R524). -/
def ownerBad (k : Cmd) (ps : List Byte) (len : Nat) : Bool :=
  3 < field ps 0 1 || k.dataLen != len

/-- What READ writes (R524). -/
def ownerBytes (o : OwnerRec) (challenge : List Byte) : List Byte :=
  fit 128 (leBytes 1 (b2n o.locked) ++ zeros 3 ++ leBytes 4 o.seq ++ fit 60 (o.key.getD []) ++ challenge)

/-- OWNER with OP READ (R524): a fresh challenge takes the place of the last; an OP that is none is BAD_PARAM. -/
def execOwnerRead (c : CmdRef) (d : CmdIn) (s : State) : Host.Outcome State Fault Refusal :=
  .next (begin 0x54 (fun ps => opIs 0 ps || 3 < field ps 0 1) c d
    (fun k ps _ _ => firstFail [(ownerBad k ps 0, stBadParam)])
    (fun k _ _ s =>
      let ch := (List.range 32).map (Config.freeByte s.free)
      let s := takeFree 1 (onBoot (fun b => { b with challenge := some ch }) s)
      finish k.ref d.resultOk stOk 0 0 (ownerBytes s.board.boot.owner ch) s) s)

/-- OWNER with OP INSTALL_KEY (R524). -/
def execOwnerInstallKey (c : CmdRef) (d : CmdIn) (s : State) : Host.Outcome State Fault Refusal :=
  .next (begin 0x54 (opIs 1) c d
    (fun k ps inp s => firstFail [
      (ownerBad k ps 60, stBadParam), (s.board.boot.owner.locked, stRefused), (!keyOk inp, stBadParam)])
    (fun k _ inp s => completeSt k.ref stOk (onOwner (fun o => { o with key := some inp }) s)) s)

/-- OWNER with OP LOCK (R524): `verifies` is what the verification of the running slot's countersignature under the key gives. -/
def execOwnerLock (c : CmdRef) (d : CmdIn) (verifies : Bool) (s : State) : Host.Outcome State Fault Refusal :=
  .next (begin 0x54 (opIs 2) c d
    (fun k ps _ s => firstFail [
      (ownerBad k ps 0, stBadParam), (!countersigned (getFwSlot s.board.boot.slot s) verifies s, stRefused)])
    (fun k _ _ s => completeSt k.ref stOk (onOwner (fun o => { o with locked := true }) s)) s)

/-- The message that UNLOCK's input signs (R524). -/
def unlockMessage (ch : List Byte) (s : State) : List Byte := leBytes 4 0x4B4C4E55 ++ serialBytes s ++ fit 32 ch ++ zeros 12

/-- OWNER with OP UNLOCK (R524): `verifies` is what the verification of the input over `unlockMessage` under the owner key gives; the
challenge is spent whatever comes of it. -/
def execOwnerUnlock (c : CmdRef) (d : CmdIn) (verifies : Bool) (s : State) : Host.Outcome State Fault Refusal :=
  .next (begin 0x54 (opIs 3) c d
    (fun k ps _ _ => firstFail [(ownerBad k ps 2964, stBadParam)])
    (fun k _ inp s =>
      let ok := verifies && hssForm inp && s.board.boot.challenge.isSome && s.board.boot.owner.key.isSome
      let s := onBoot (fun b => { b with challenge := none }) s
      if ok then completeSt k.ref stOk (onOwner (fun o => { o with locked := false }) s)
      else completeSt k.ref stRefused s) s)

/-! Attestation (R526–R528). -/

/-- Spares of a kind that remain, over its keys. -/
def spareSum (lo n : Nat) (s : State) : Nat := ((List.range n).map fun i => sget sparesReset s.err.spares (lo + i)).foldl (· + ·) 0

/-- GLB_INVENTORY (R30). -/
def inventoryValue (s : State) : Nat :=
  2 ^ 24 * spareSum 0 4 s + 2 ^ 16 * spareSum 4 4 s + 2 ^ 8 * spareSum 8 4 s + spareSum 12 8 s

/-- The report over a nonce with an index (R527). -/
def reportBytes (index : Nat) (nonce : List Byte) (s : State) : List Byte :=
  let b := s.board.boot
  let x := getFwSlot b.slot s
  fit 256 (leBytes 4 0x50524151 ++ leBytes 2 1 ++ leBytes 1 (stepping s)
    ++ leBytes 1 (b2n b.owner.locked + 2 * b2n b.trial + 4 * b2n b.fallback) ++ serialBytes s ++ leBytes 8 index ++ fit 32 nonce
    ++ Sha.sha256 (readBytes x.bytes 0 512) ++ leBytes 4 (manifest x 8 4) ++ leBytes 1 (slotSvn x) ++ leBytes 1 b.minSvn
    ++ leBytes 1 b.slot ++ zeros 1 ++ (match b.owner.key with | some k => Sha.sha256 k | none => zeros 32)
    ++ Sha.sha256 (readBytes b.identity 0 0xF000) ++ leBytes 2 s.nodeId ++ zeros 2 ++ leBytes 4 (inventoryValue s)
    ++ leBytes 8 (timeUs s))

/-- What ATTEST writes (R526): the report, its signature, the two certificates. -/
def attestBytes (index : Nat) (nonce : List Byte) (s : State) : List Byte :=
  let r := reportBytes index nonce s
  r ++ fit 3072 ((List.range 2964).map (Config.attestSign index r)) ++ attestCert s.board.boot.identity
    ++ factoryCert s.board.boot.identity

/-- An ATTEST that starts (R526, R528): the state record first, then the signature of that index. -/
def runAttest (c : CmdRef) (nonce : List Byte) (resultOk : Bool) (s : State) : State :=
  let now := timeUs s
  let s := onBoot (fun b => { b with attLast := some now }) s
  match s.board.boot.attNext with
  | none =>
    let cls := (Config.freeValue s.free).toNat % 256
    completeSt c stRefused (fileRec (mkRec cls 2 0 (zeros 16)) (takeFree 1 s))
  | some q =>
    if 2 ^ 20 ≤ q then completeSt c stNoResource s
    else
      let s := onBoot (fun b => { b with attNext := some (q + 1) }) s
      finish c resultOk stOk 0 0 (attestBytes q nonce s) s

/-- Whether an ATTEST may start: 5 ms after the last start (R526). -/
def attestFree (s : State) : Bool := s.board.boot.attLast.all fun t => t + 5000 ≤ timeUs s

/-- ATTEST (R526): it starts, or waits for its turn. -/
def execAttest (c : CmdRef) (d : CmdIn) (s : State) : Host.Outcome State Fault Refusal :=
  .next (begin 0x53 (fun _ => true) c d
    (fun k _ _ _ => firstFail [
      (k.dataLen != 32, stBadParam)])
    (fun k _ inp s =>
      if attestFree s && s.board.boot.attWaiting.isEmpty then runAttest k.ref inp d.resultOk s
      else onBoot (fun b => { b with attWaiting := b.attWaiting ++ [(k.ref, inp, d.resultOk)] }) s) s)

/-- ATTEST_START (R526). -/
def execAttestStart (now : Nat) (s : State) : Host.Outcome State Fault Refusal :=
  let s := atTime now s
  .next (match s.board.boot.attWaiting with
    | [] => s
    | (c, nonce, ok) :: rest =>
      if attestFree s then runAttest c nonce ok (onBoot (fun b => { b with attWaiting := rest }) s) else s)

end Sys2Proof.Machine
end

