-- ==== Sys2Proof/Machine/Boundary.lean ====
section
/-!
DEFINITION. An activation boundary with all that follows from it in commands: searches, steps of models, tables (R215, R261, R318).
-/
namespace Sys2Proof.Machine

/-- A MODEL_RUN that a stall has met an uncorrectable word for ends (R261). -/
def endBadRun (s : State) (r : Run) : State :=
  match r.bad with
  | none => s
  | some (seq, dropped) => completeRec r.ref stUncorrectable 0 seq dropped (dropModelRun r.ref s)

/-- A command on a table that a stall has met an uncorrectable word for ends, but for a close past its commit point (R318). -/
def endBadEmb (s : State) (e : EmbCmd) : State :=
  match e.bad with
  | none => s
  | some (seq, dropped) =>
    if e.kind = .close ∧ (e.phase = .commit ∨ e.phase = .refresh) then s
    else completeRec e.ref stUncorrectable 0 seq dropped (endEmb e.ref s)

/-- What service jobs have done or met, carried to their commands: the rows they reached are worked on, and the commands whose jobs have
ended go on. -/
def settleJobs (s : State) : State :=
  let s := workRows s
  let s := s.emb.cmds.foldl endBadEmb (s.til.runs.foldl endBadRun s)
  settleAllEmb s

/-- ACTIVATION_BOUNDARY (R215). -/
def execActivationBoundary (stall : Nat) (ns : Nat) (hub : List (Nat × Nat)) (ecc : EccOutcome) (row unit : Nat) (s : State) :
    Host.Outcome State Fault Refusal := .next (pump (settleJobs (boundary stall ns hub ecc row unit s)))

end Sys2Proof.Machine
end

