-- ==== Sys2Proof/Machine/IndexConfig.lean ====
section
/-!
DEFINITION. PART_CONFIG of indexes: creation, growth, destruction and read-back (R73–R77, R328).
-/
namespace Sys2Proof.Machine

/-- The body fields of a descriptor that an input gives or that the module ignores (R73). -/
def idxUsed : List (Nat × Nat) := [(64, 26), (92, 52)]

/-- An index descriptor of a block (R73). -/
def parseIdx (ps : List Byte) : IndexDesc :=
  let f : Nat → Nat → Nat := fun o n => field ps (64 + o) n
  { part := f 2 1, traverseDead := bit (f 3 1) 0, code4 := bit (f 3 1) 1, dim := f 4 2, vecFormat := f 6 1, metric := f 7 1
    m := f 8 1, maxDegree := f 9 1, upperLevels := f 10 1, upperDegree := f 11 1, slotCount := f 12 4, upperRecords := f 16 4
    cacheFrames := f 20 4, attrCount := f 24 1, filterCount := f 25 1, slotLimit := f 28 4 }

/-- The ranges of R73 but that of SLOT_LIMIT, and the agreement of R328. -/
def idxBad (ps : List Byte) (d : IndexDesc) : Bool :=
  field ps 64 2 != pcHandle ps || d.part != pcPart ps || pcHandle ps == 0 || 4 ≤ field ps 67 1
    || d.m ∉ [8, 16, 24, 32, 48, 64] || d.dim < 8 || 2048 < d.dim || d.dim % 8 != 0 || d.dim % d.m != 0
    || 4 < d.vecFormat || 2 < d.metric || d.maxDegree < 8 || 40 < d.maxDegree || 15 < d.upperLevels
    || (if d.upperLevels = 0 then d.upperDegree != 0 || d.upperRecords != 0
        else d.upperDegree < 4 || 28 < d.upperDegree || 2 ^ 28 < d.upperRecords)
    || d.slotCount < 64 || 0xFFFFFFC0 < d.slotCount || d.slotCount % 64 != 0
    || d.cacheFrames < 131072 || 2 ^ 24 < d.cacheFrames || 64 < d.attrCount || 16 < d.filterCount

/-- The range of SLOT_LIMIT (R73). -/
def limitBad (d : IndexDesc) : Bool :=
  d.slotLimit != 0 && (d.slotLimit < d.slotCount || 0xFFFFFFC0 < d.slotLimit || d.slotLimit % 64 != 0)

/-- Pages of the vector run of a descriptor (R76). -/
def vecRun (d : IndexDesc) : Nat := (runSlots d + vecsPerPage d - 1) / vecsPerPage d

/-- The runs of logical pages in use, as (base, length) (R76). -/
def usedRuns (s : State) : List (Nat × Nat) :=
  s.srch.indexes.flatMap fun e =>
    [(e.2.crateBase, runSlots e.2.desc / 64), (e.2.vecBase, vecRun e.2.desc)]

/-- The lowest free range of `n` logical pages below `limit` beside some runs (R76). -/
def lowestRun (runs : List (Nat × Nat)) (limit n : Nat) : Option Nat :=
  let starts := (0 :: runs.map fun r => r.1 + r.2).filter fun a =>
    a + n ≤ limit && runs.all fun r => a + n ≤ r.1 || r.1 + r.2 ≤ a
  match starts with
  | [] => none
  | a :: as => some (as.foldl min a)

/-- Crate run and vector run of a new index, in that order (R76). -/
def placeRuns (d : IndexDesc) (s : State) : Option (Nat × Nat) :=
  match lowestRun (usedRuns s) (logicalPages s) (runSlots d / 64) with
  | none => none
  | some c =>
    match lowestRun ((c, runSlots d / 64) :: usedRuns s) (logicalPages s) (vecRun d) with
    | none => none
    | some v => some (c, v)

/-- Where the bitmaps of a descriptor go (R193). -/
def bitmapPins (d : IndexDesc) (s : State) : List Nat := pinPlaces (fun _ => bitmapsRows d) s

/-- A new index: CSN 0, no codebook, every slot FREE, no entry point (R81, R93, R99). -/
def newIndex (d : IndexDesc) (crateBase vecBase : Nat) (pins : List Nat) : Index where
  desc := d
  csn := 0
  curGen := 0
  oldGen := 0
  curBook := []
  oldBook := []
  oldRefs := 0
  curRefs := 0
  crateBase := crateBase
  vecBase := vecBase
  entry := none
  entryLevel := 0
  codes := []
  live := []
  attrs := []
  filters := []
  filterRows := []
  ring := []
  crates := []
  upper := []
  vectors := []
  frames := []
  retiring := []
  orphans := []
  failed := []
  pins := pins
  upperFull := 0
  mounting := false

/-- The state with an index. -/
def putIndex (h : Nat) (ix : Index) (s : State) : State := onSrch (fun x => { x with indexes := tput x.indexes h ix }) s

/-- The checks of INDEX CREATE (R73, R75, R76). -/
def idxCreateCheck (p : Nat) (ps : List Byte) (s : State) : Verdict :=
  let d := parseIdx ps
  let h := pcHandle ps
  firstFail [
    (idxBad ps d || limitBad d || (d.upperLevels != 0 && d.upperRecords < 64) || (getIndex h s).isSome, stBadParam),
    (256 ≤ s.srch.indexes.length || !medReady s || (placeRuns d s).isNone
      || (getPtn p s).shares.flashPages < partPages p s + indexPages d || !dramOk p (putIndex h (newIndex d 0 0 []) s)
        || !pinsFit (fun _ => bitmapsRows d) (bitmapPins d s),
      stNoResource)]

/-- PART_CONFIG INDEX CREATE (R75, R76, R328): its metadata record goes to the journal (R430). -/
def execPartConfigIndexCreate (c : CmdRef) (d : CmdIn) (s : State) : Host.Outcome State Fault Refusal :=
  .next (begin 0x30 (fun ps => pcIsSub 8 0 ps || (pcIs 8 ps && 3 < pcSub ps)) c d (pcCheck idxUsed idxCreateCheck)
    (fun k ps _ s =>
      match placeRuns (parseIdx ps) s with
      | none => completeSt k.ref stNoResource s
      | some (cb, vb) =>
        let ix := newIndex (parseIdx ps) cb vb (bitmapPins (parseIdx ps) s)
        let s := onMut (fun m => { m with kept := tput m.kept (pcHandle ps) ix }) (putIndex (pcHandle ps) ix s)
        completeSt k.ref stOk (writeMeta (metaBytes ix.desc) s)) s)

/-- What a PART_CONFIG gets that names an index (R75, R328); BUSY while it mounts (R84, R101). -/
def idxVerdict (p : Nat) (ps : List Byte) (s : State) : Verdict :=
  match getIndex (pcHandle ps) s with
  | none => .fail stBadParam 0
  | some ix => firstFail [(ix.desc.part != p, stRefused), (ix.mounting, stBusy)]

/-- The highest upper record in use. -/
def topUpper (ix : Index) : Nat := (ix.upper.map (·.1)).foldl max 0

/-- Frames that cannot be dropped at once: being filled, or with references, or overtaken by a rewrite and still being read (R90, R91,
R328). -/
def busyFrames (h : Nat) (ix : Index) (s : State) : Nat := usedFrames ix - (evictable h ix s).length

/-- The index after a RESIZE: bitmaps that need more rows are placed anew (R95, R328). -/
def resized (d : IndexDesc) (ix : Index) (s : State) : Index :=
  if bitmapsRows d = bitmapsRows ix.desc then { ix with desc := d }
  else
    let others := onSrch (fun x => { x with indexes := x.indexes.filter fun e => e.2.crateBase != ix.crateBase }) s
    { ix with desc := d, pins := bitmapPins d others }

/-- The checks of INDEX RESIZE (R328); it waits while more frames fill than will remain. -/
def idxResizeCheck (p : Nat) (ps : List Byte) (s : State) : Verdict :=
  match getIndex (pcHandle ps) s with
  | none => .fail stBadParam 0
  | some ix =>
    let d := parseIdx ps
    let o := ix.desc
    let same : Bool := { d with cacheFrames := o.cacheFrames, upperRecords := o.upperRecords, slotCount := o.slotCount } == o
    let lower := d.upperRecords < o.upperRecords
    match firstFail [
      (idxBad ps d || !same || d.slotCount < o.slotCount, stBadParam),
      (lower && (d.upperRecords < 64 || d.upperRecords ≤ topUpper ix), stRefused),
      ((o.slotCount < d.slotCount && runSlots o < d.slotCount) || (o.slotCount < d.slotCount && !medReady s)
        || !dramOk p (putIndex (pcHandle ps) { ix with desc := d } s)
        || !pinsFit (fun _ => bitmapsRows d) (resized d ix s).pins, stNoResource)] with
    | .go => if d.cacheFrames < busyFrames (pcHandle ps) ix s then .hold else .go
    | v => v

/-- VALID frames without references dropped until `n` are left beside the others; a free value picks each (R91, R328). -/
def dropFrames (h keep : Nat) : Nat → State → State
  | 0, s => s
  | n + 1, s =>
    match getIndex h s with
    | none => s
    | some ix =>
      if usedFrames ix ≤ keep then s
      else
        let l := evictable h ix s
        match l[(Config.freeValue s.free).toNat % l.length]? with
        | none => s
        | some victim => dropFrames h keep n (takeFree 1 (onIndex h (fun ix => { ix with frames := tdel ix.frames victim }) s))

/-- PART_CONFIG INDEX RESIZE (R328). -/
def execPartConfigIndexResize (c : CmdRef) (d : CmdIn) (s : State) : Host.Outcome State Fault Refusal :=
  .next (begin 0x30 (pcIsSub 8 1) c d
    (pcCheck idxUsed fun p ps s => (idxVerdict p ps s).andThen (idxResizeCheck p ps s))
    (fun k ps _ s =>
      let h := pcHandle ps
      let d := parseIdx ps
      let n := ((getIndex h s).map (·.frames.length)).getD 0
      let s := dropFrames h d.cacheFrames n s
      let grow : Index → Index := fun ix => resized d ix s
      completeSt k.ref stOk (onMeta h grow (onIndex h grow s))) s)

/-- Whether a command uses an index (R328): a search or mutation in progress, or a command fetched that names it. -/
def idxUsedBy (h : Nat) (s : State) : Bool :=
  s.srch.queries.any (·.handle == h) || s.grp.groups.any (·.handle == h)
    || (s.grp.published.any fun p => p.handle == h && p.waiter.isSome)
    || s.host.cmds.any fun k => k.handle == h && k.phase != .finishing
      && k.opcode ∈ [0x01, 0x02, 0x03, 0x08, 0x09, 0x0A, 0x0B, 0x29]

/-- A run of logical pages unmapped and journalled (R431). -/
def trimRun (base n : Nat) (s : State) : State :=
  let w := s.med.wseq
  journal (.trim base n w) (onMed (fun m => { m with map := m.map.filter fun e => !(base ≤ e.1 && e.1 < base + n) }) s)

/-- Everything of an index gone: its structures, its pages, its metadata record. -/
def dropIndex (h : Nat) (ix : Index) (s : State) : State :=
  let s := trimRun ix.vecBase (vecRun ix.desc) (trimRun ix.crateBase (runSlots ix.desc / 64) s)
  let s := onSrch (fun x => { x with indexes := tdel x.indexes h, batches := x.batches.filter (·.handle != h) }) s
  let ofIt : ReadFor → Bool := fun w => match w with
    | .crate g _ => g == h
    | .rerank _ _ | .copy _ _ => false
  let s := onMed (fun m => { m with arrived := m.arrived.filter fun a => !ofIt a.who }) s
  onMut (fun m => { m with
    kept := tdel m.kept h, lazy := m.lazy.filter (·.1 != h), published := m.published.filter (·.handle != h)
    sweepAt := if m.passes.head? = some h then 0 else m.sweepAt
    sweepRewrite := m.sweepRewrite.filter (·.1 != h)
    passes := m.passes.filter (· != h) }) s

/-- PART_CONFIG INDEX DESTROY (R328). -/
def execPartConfigIndexDestroy (c : CmdRef) (d : CmdIn) (s : State) : Host.Outcome State Fault Refusal :=
  .next (begin 0x30 (pcIsSub 8 2) c d
    (pcCheck [] fun p ps s => (idxVerdict p ps s).andThen (firstFail [(idxUsedBy (pcHandle ps) s, stBusy)]))
    (fun k ps _ s =>
      match getIndex (pcHandle ps) s with
      | none => completeSt k.ref stBadParam s
      | some ix => completeSt k.ref stOk (dropIndex (pcHandle ps) ix s)) s)

/-- An index descriptor as READ returns it (R73). -/
def idxBytes (h : Nat) (ix : Index) : List Byte :=
  let d := ix.desc
  leBytes 2 h ++ leBytes 1 d.part ++ leBytes 1 (b2n d.traverseDead + 2 * b2n d.code4) ++ leBytes 2 d.dim
    ++ leBytes 1 d.vecFormat ++ leBytes 1 d.metric ++ leBytes 1 d.m ++ leBytes 1 d.maxDegree ++ leBytes 1 d.upperLevels
    ++ leBytes 1 d.upperDegree ++ leBytes 4 d.slotCount ++ leBytes 4 d.upperRecords ++ leBytes 4 d.cacheFrames
    ++ leBytes 1 d.attrCount ++ leBytes 1 d.filterCount ++ zeros 2 ++ leBytes 4 d.slotLimit ++ leBytes 8 ix.csn
    ++ leBytes 4 ix.curGen ++ leBytes 4 ix.oldGen ++ leBytes 4 ix.crateBase ++ leBytes 4 ix.vecBase
    ++ leBytes 4 (ix.entry.getD 0xFFFFFFFF) ++ leBytes 1 ix.entryLevel ++ zeros 3 ++ leBytes 8 (liveCount ix)
    ++ leBytes 8 (indexDram ix) ++ zeros 48

/-- PART_CONFIG INDEX READ (R328). -/
def execPartConfigIndexRead (c : CmdRef) (d : CmdIn) (s : State) : Host.Outcome State Fault Refusal :=
  .next (begin 0x30 (pcIsSub 8 3) c d
    (fun k ps inp s => (pcCheck [] idxVerdict k ps inp s).andThen (firstFail [(k.resultLen < 128, stBadParam)]))
    (fun k ps _ s =>
      match getIndex (pcHandle ps) s with
      | none => completeSt k.ref stBadParam s
      | some ix => finish k.ref d.resultOk stOk 0 0 (idxBytes (pcHandle ps) ix) s) s)

end Sys2Proof.Machine
end

