-- ==== Sys2Proof/Machine/Shaping.lean ====
section
/-!
DEFINITION. Policers and shapers in time, their commits, and the sampling ring (R394, R395, R398, R400, R403–R409).
-/
namespace Sys2Proof.Machine

/-! Ticks (R394, R395, R400). -/

/-- The refill of every enabled policer (R395); one that its table does not list is not enabled. -/
def refillPolicers (s : State) : State :=
  (s.tm.policers.map (·.1)).foldl (fun s n => onPolicer n refillPolicer s) s

/-- What waits for the host goes out as far as shapers and deficits allow (R400, R402). -/
def drainPorts (s : State) : State := hostDrain .b (hostDrain .a s)

/-- The credit of every enabled shaper raised (R400). -/
def refillShapers (s : State) : State :=
  drainPorts ((s.tm.shapers.map (·.1)).foldl (fun s n => onShaper n refillShaper s) s)

/-- POLICER_REFILL (R395). -/
def execPolicerRefill (s : State) : Host.Outcome State Fault Refusal := .next (refillPolicers s)

/-- SHAPER_REFILL (R400). -/
def execShaperRefill (s : State) : Host.Outcome State Fault Refusal := .next (refillShapers s)

/-! Staging and commit (R9, R398, R400, R407, R409). -/

/-- The staged fields of a policer, or those in effect. -/
def polStaged (p : Policer) : PolCfg := p.staged.getD p.cfg

/-- Fields of a policer staged: giving them the values they hold stages nothing (R9, R10). -/
def stagePolicer (n : Nat) (f : PolCfg → PolCfg) (s : State) : State :=
  onPolicer n (fun p => if f (polStaged p) = polStaged p then p else { p with staged := some (f (polStaged p)) }) s

/-- Whether a policer's fields may be committed (R398). -/
def polCfgOk (c : PolCfg) : Bool :=
  if c.twoRate then c.cir ≤ c.pir && c.cbs != 0 && c.ebs != 0 else c.cbs != 0 || c.ebs != 0

/-- The commit of a policer (R398): with `zero` its buckets become empty, else full. -/
def commitPolicer (zero : Bool) (p : Policer) : Policer :=
  let c := polStaged p
  if polCfgOk c then
    { p with cfg := c, staged := none, tc := if zero then 0 else c.cbs, te := if zero then 0 else c.ebs }
  else { p with cfgErr := true }

/-- A write of TM_PCTRL (R407): CFG_ERR is W1C, and stays set when this commit sets it (R8). -/
def writePctrl (n v : Nat) (s : State) : State :=
  onPolicer n (fun p =>
    let p := { p with cfgErr := p.cfgErr && !bit v 28 }
    if bit v 31 then commitPolicer (bit v 30) p else p) s

/-- The staged fields of a shaper, or those in effect. -/
def shapeStaged (p : Shaper) : ShapeCfg := p.staged.getD p.cfg

/-- Fields of a shaper staged. -/
def stageShaper (n : Nat) (f : ShapeCfg → ShapeCfg) (s : State) : State :=
  onShaper n (fun p => if f (shapeStaged p) = shapeStaged p then p else { p with staged := some (f (shapeStaged p)) }) s

/-- The least BURST of a shaper (R400): a whole frame for REQ and BULK, a whole write for HOST. -/
def leastBurst (n : Nat) : Nat := if n % 3 = 2 then 512 else 4864

/-- The commit of a shaper (R398, R400). -/
def commitShaper (n : Nat) (zero : Bool) (p : Shaper) : Shaper :=
  let c := shapeStaged p
  if leastBurst n ≤ c.burst then { p with cfg := c, staged := none, credit := if zero then 0 else c.burst }
  else { p with cfgErr := true }

/-- A write of TM_SCTRL (R409). -/
def writeSctrl (n v : Nat) (s : State) : State :=
  drainPorts (onShaper n (fun p =>
    let p := { p with cfgErr := p.cfgErr && !bit v 28 }
    if bit v 31 then commitShaper n (bit v 30) p else p) s)

/-- POLICER_COMMIT (R398). -/
def execPolicerCommit (f : Fn) (n : Nat) (value : W32) (s : State) : Host.Outcome State Fault Refusal :=
  .next (if f.vf = 0 ∧ n < 192 then writeAt f (0x201010 + 0x20 * n) (writePctrl n value.toNat) s else s)

/-- SHAPER_COMMIT (R400). -/
def execShaperCommit (f : Fn) (n : Nat) (value : W32) (s : State) : Host.Outcome State Fault Refusal :=
  .next (if f.vf = 0 ∧ n < 192 then writeAt f (0x205008 + 0x10 * n) (writeSctrl n value.toNat) s else s)

/-! Sampling (R403–R406). -/

/-- What one entry reports: items queued, their charged bytes, the age of the oldest, the credit. -/
structure Depth where
  items : Nat
  bytes : Nat
  age : Nat
  credit : Nat
deriving DecidableEq, Repr

/-- A depth of items given by the time they came and their bytes, oldest first. -/
def depthOf (l : List (Nat × Nat)) (credit : Nat) (s : State) : Depth where
  items := l.length
  bytes := min 0xFFFFFFFF (l.map (·.2)).sum
  age := (l.head?.map fun e => min 0xFFFFFFFF (timeUs s - e.1)).getD 0
  credit := credit

/-- The frames of a partition's queue that wait on any lane or for one (R399). -/
def queuedFrames (p cls : Nat) (s : State) : List Frame :=
  let all := (s.fab.lanes.flatMap fun e => e.2.txq) ++ s.fab.waiting
  sortBy (fun a b => a.at0 < b.at0) (all.filter fun f => f.part == p && f.cls == cls)

/-- The depth of one kind of a partition (R403, R404): 0 REQ, 1 BULK, 2 HOST, 3 ADMIT. -/
def sampleDepth (p kind : Nat) (s : State) : Depth :=
  let credit := twos 32 (getShaper (3 * p + kind) s).credit
  match kind with
  | 0 => depthOf ((queuedFrames p 0 s).map fun f => (f.at0, 256 * cellCount f)) credit s
  | 1 => depthOf ((queuedFrames p 2 s).map fun f => (f.at0, 256 * cellCount f)) credit s
  | 2 => depthOf ((hostq p s).map fun i => (i.1, itemBytes i.2)) credit s
  | _ =>
    let waiting := s.srch.queries.filter fun q => q.part == p && q.phase == .waiting
    depthOf (waiting.map fun q => (q.fetched, ((findCmd q.ref s).map cmdCharge).getD 0)) 0 s

/-- The partitions and kinds of a round, in its order (R403). -/
def roundEntries (s : State) : List (Nat × Nat) :=
  ((List.range 64).filter fun p => bit s.tm.sampleEn p).flatMap fun p =>
    ((List.range 4).filter fun k => bit s.tm.kinds k).map fun k => (p, k)

/-- The 32 bytes of an entry (R404). -/
def sampleBytes (time kind part round : Nat) (d : Depth) (phase : Bool) : List Byte :=
  leBytes 8 time ++ leBytes 1 kind ++ leBytes 1 part ++ leBytes 2 round ++ leBytes 4 d.items ++ leBytes 4 d.bytes
    ++ leBytes 4 d.age ++ leBytes 4 d.credit ++ zeros 3 ++ leBytes 1 (b2n phase)

/-- One entry written at TAIL; the phase flips as TAIL wraps (R48, R404). -/
def putSample (s : State) (e : Nat × Nat) : State :=
  let t := s.tm
  let bs := sampleBytes (timeUs s) e.2 e.1 (t.round % 2 ^ 16) (sampleDepth e.1 e.2 s) t.ringPhase
  let tail := (t.ringTail + 1) % 2 ^ t.ringLog2
  let s := emit (.sample t.ringPort (t.ringBase + 32 * t.ringTail) bs) s
  onTm (fun t => { t with ringTail := tail, ringPhase := t.ringPhase != (tail == 0) }) s

/-- Entries the ring has room for, counting from TAIL to HEAD: one slot stays empty. -/
def sampleRoom (s : State) : Nat :=
  let n := 2 ^ s.tm.ringLog2
  n - 1 - (s.tm.ringTail + n - s.tm.ringHead) % n

/-- A sampling round (R403–R405): written whole, dropped for want of room, or failed in its ring write. -/
def samplingRound (writeOk : Bool) (s : State) : State :=
  let now := timeUs s
  if !s.tm.ringEnable || now < s.tm.lastRound + s.tm.intervalUs then s
  else
    let es := roundEntries s
    let t :=
      if sampleRoom s < es.length then onTm (fun t => { t with samplesLost := wrap64 (t.samplesLost + es.length) }) s
      else if es.isEmpty || writeOk then es.foldl putSample s
      else
        let addr := s.tm.ringBase + 32 * s.tm.ringTail
        let s := onTm (fun t => { t with ringEnable := false, ringDmaErr := true }) s
        fileRec (mkRec 0x08 2 5 (locHost { port := s.tm.ringPort, vf := 0 } addr)) s
    onTm (fun t => { t with round := t.round + 1, lastRound := now }) t

/-- SAMPLING_ROUND (R403). -/
def execSamplingRound (now : Nat) (writeOk : Bool) (s : State) : Host.Outcome State Fault Refusal :=
  .next (samplingRound writeOk (atTime now s))

/-- A write counted as discarded under R405. -/
def countTmBusy (s : State) : State := onTm (fun t => { t with cfgBusy := wrap64 (t.cfgBusy + 1) }) s

/-- A write of TM_RING_CFG (R10, R405, R406): while sampling, a change of PORT or LOG2 is refused and counted, and the live-safe
fields of the write take effect; setting ENABLE starts the ring at TAIL 0. -/
def writeRingCfg (v : Nat) (s : State) : State :=
  let t := s.tm
  let port := if bit v 30 then Port.b else Port.a
  let log2 := if 8 ≤ bits v 29 25 ∧ bits v 29 25 ≤ 20 then bits v 29 25 else t.ringLog2
  let interval := if bits v 15 0 = 0 then t.intervalUs else bits v 15 0
  let s := if t.ringEnable && (port != t.ringPort || log2 != t.ringLog2) then countTmBusy s
    else onTm (fun t => { t with ringPort := port, ringLog2 := log2 }) s
  let now := timeUs s
  let s := onTm (fun t => { t with ringEnable := bit v 31, kinds := bits v 24 21, intervalUs := interval }) s
  if bit v 31 && !t.ringEnable then onTm (fun t => { t with ringTail := 0, ringPhase := true, lastRound := now }) s else s

/-- A write of TM_RING_BASE (R405, R406). -/
def writeRingBase (v : Nat) (s : State) : State :=
  let v := v / 4096 * 4096
  if v = s.tm.ringBase then s
  else if s.tm.ringEnable then countTmBusy s
  else onTm (fun t => { t with ringBase := v }) s

/-- A write of TM_RING_PTR (R405, R406): HEAD moves up to TAIL at most. -/
def writeRingPtr (f : Fn) (v : Nat) (s : State) : State :=
  let h := bits v 19 0
  let n := 2 ^ s.tm.ringLog2
  if h < n ∧ (h + n - s.tm.ringHead) % n ≤ (s.tm.ringTail + n - s.tm.ringHead) % n then
    onTm (fun t => { t with ringHead := h }) s
  else fileBadValue f 0 0x200028 0xFF 0xFF s

/-- SAMPLING_ENABLE (R406). -/
def execSamplingEnable (f : Fn) (value : W32) (s : State) : Host.Outcome State Fault Refusal :=
  .next (if f.vf = 0 then writeAt f 0x200018 (writeRingCfg value.toNat) s else s)

/-- RING_HEAD_WRITE (R405). -/
def execRingHeadWrite (f : Fn) (value : W64) (s : State) : Host.Outcome State Fault Refusal :=
  .next (if f.vf = 0 then writeAt f 0x200028 (writeRingPtr f value.toNat) s else s)

end Sys2Proof.Machine
end

