-- ==== Sys2Proof/Machine/Registers.lean ====
section
/-!
DEFINITION. The register map of BAR0 as writes see it, the split-write rules (R36), and the rows that write one register
(R42, R43, R189, R339, R346, R351, R383, R391).
-/
namespace Sys2Proof.Machine

/-! Where registers lie. -/

/-- An array of register groups: its base, the distance of its groups, their number, the bytes of each that registers use. -/
structure RegArray where
  base : Nat
  stride : Nat
  count : Nat
  used : Nat
deriving DecidableEq, Repr

/-- Index and inner offset of an offset that an array uses. -/
def RegArray.find (a : RegArray) (off : Nat) : Option (Nat × Nat) :=
  if off < a.base then none
  else
    let i := (off - a.base) / a.stride
    let k := (off - a.base) % a.stride
    if i < a.count ∧ k < a.used then some (i, k) else none

/-- Counters and other 64-bit registers outside the PTN_ pages, block by block: PF control queues (R38), TM_ (R406, R408, R410),
XQ_ (R388–R391), MED_ (R451), STK_ (R236), TIL_ (R263), SHF_ (R296), WLK_ (R136, R190), SEL_ (R160), EMB_ (R319, R320), MBX_
(R469), PWR_ (R464, R473), ERR_ (R497, R500). -/
def wideArrays : List RegArray :=
  [⟨0x1000, 0x1000, 2, 0x10⟩,
   ⟨0x200010, 8, 1, 8⟩, ⟨0x200028, 8, 2, 8⟩, ⟨0x200040, 8, 2, 8⟩, ⟨0x204000, 8, 64, 8⟩, ⟨0x208000, 0x20, 192, 0x20⟩,
   ⟨0x302000, 0x40, 36, 0x30⟩, ⟨0x303000, 0x20, 1, 0x20⟩, ⟨0x304000, 0x40, 64, 0x30⟩, ⟨0x380000, 8, 65536, 8⟩,
   ⟨0x404000, 0x48, 1, 0x48⟩, ⟨0x408000, 0x40, 64, 0x20⟩, ⟨0x501000, 0x10000, 8, 0x40⟩, ⟨0x60E000, 0x40, 64, 0x40⟩,
   ⟨0x881000, 0x40, 64, 0x30⟩, ⟨0x704000, 0x80, 64, 0x60⟩, ⟨0x708000, 0x40, 64, 0x30⟩, ⟨0x781000, 0x40, 64, 0x30⟩,
   ⟨0x800000, 8, 1, 8⟩, ⟨0x801000, 0x40, 64, 0x40⟩, ⟨0x902000, 0x20, 1, 0x20⟩, ⟨0xA00100, 8, 2, 8⟩,
   ⟨0xA01000, 0x20, 1, 0x20⟩, ⟨0xB00008, 8, 1, 8⟩, ⟨0xB08000, 0x20, 8, 0x20⟩, ⟨0xB09000, 0x40, 1, 0x40⟩]

/-- Partition and page offset of an offset in the PTN_ pages (R37). -/
def ptnOffset (off : Nat) : Option (Nat × Nat) := RegArray.find ⟨0x100000, 0x1000, 64, 0x1000⟩ off

/-- Queue and register offset of a page offset in the queue registers (R38, R39). -/
def queueOffset (k : Nat) : Option (Nat × Nat) := RegArray.find ⟨0x100, 0x40, 17, 0x1C⟩ k

/-- Whether a 64-bit register starts at a PF BAR0 offset that is a multiple of 8 (R36). -/
def wideAt (off : Nat) : Bool :=
  match ptnOffset off with
  | some (_, k) => (0x80 ≤ k && k < 0xB0) || (queueOffset k).any fun e => e.2 < 0x10
  | none => wideArrays.any fun a => (a.find off).isSome

/-- The queue whose registers an offset lies in, with the register offset (R38, R39). -/
def queueAt (off : Nat) : Option (QRef × Nat) :=
  match ptnOffset off with
  | some (p, k) => (queueOffset k).map fun e => ({ scope := .part p, q := e.1 }, e.2)
  | none =>
    match RegArray.find ⟨0x1000, 0x1000, 2, 0x1C⟩ off with
    | some (i, k) => some ({ scope := .pf (if i = 0 then .a else .b), q := 16 }, k)
    | none => none

/-- PF BAR0 offset of a register of a queue (R38, R39). -/
def queueReg (q : QRef) (k : Nat) : Nat :=
  match q.scope with
  | .part p => ptnPage p + 0x100 + 0x40 * q.q + k
  | .pf port => 0x1000 + 0x1000 * port.num + k

/-! Effects of 32-bit writes, block by block. A reserved or RO bit has no effect (R6, R7), a field its rule discards keeps its
value (R10). -/

/-- A 32-bit register of a queue (R40, R41). -/
def putQueueReg (q : QRef) (k v : Nat) (s : State) : State :=
  if k = 0x10 then writeQcfg q v s else if k = 0x14 then writeQstat q v s else s

/-- A 32-bit register of a PTN_ page (R344, R346). -/
def putPtnReg (p k v : Nat) (s : State) : State :=
  if k = 4 then writePtnCtrl p v s
  else if 0x40 ≤ k ∧ k < 0x80 then writeCtx p ((k - 0x40) / 4) v s
  else match queueOffset k with
    | some (q, j) => putQueueReg { scope := .part p, q := q } j v s
    | none => s

/-- A register of a policer (R407). -/
def putPolicerReg (n k v : Nat) (s : State) : State :=
  match k with
  | 0x00 => stagePolicer n (fun c => { c with
      enable := bit v 31, twoRate := bit v 30, aware := bit v 29, yellowThrottle := bit v 28, redThrottle := bit v 27,
      cir := bits v 19 0 }) s
  | 0x04 => stagePolicer n (fun c => { c with pir := bits v 19 0 }) s
  | 0x08 => stagePolicer n (fun c => { c with cbs := v }) s
  | 0x0C => stagePolicer n (fun c => { c with ebs := v }) s
  | 0x10 => writePctrl n v s
  | _ => s

/-- A register of a shaper (R409). -/
def putShaperReg (n k v : Nat) (s : State) : State :=
  match k with
  | 0x0 => stageShaper n (fun c => { c with enable := bit v 31, quantum := bits v 27 20, slope := bits v 19 0 }) s
  | 0x4 => stageShaper n (fun c => { c with burst := v }) s
  | 0x8 => writeSctrl n v s
  | _ => s

/-- A 32-bit register of the TM_ block (R406, R407, R409). -/
def putTmReg (off v : Nat) (s : State) : State :=
  if off = 0x200008 then onTm (fun t => { t with transitReqQ := bits v 15 8, transitBulkQ := bits v 7 0 }) s
  else if off = 0x200018 then writeRingCfg v s
  else if off = 0x200020 then onTm (fun t => { t with ringDmaErr := t.ringDmaErr && !bit v 31 }) s
  else match RegArray.find ⟨0x201000, 0x20, 192, 0x1C⟩ off, RegArray.find ⟨0x205000, 0x10, 192, 0x10⟩ off with
    | some (n, k), _ => putPolicerReg n k v s
    | none, some (n, k) => putShaperReg n k v s
    | none, none => s

/-- A write of XQ_CFG.NODE_ID (R383, R384): only while every lane is DISABLED. -/
def writeNodeId (v : Nat) (s : State) : State :=
  let id := bits v 15 0
  if id = s.nodeId then s
  else if s.fab.lanes.all fun e => e.2.state == .disabled then { s with nodeId := id }
  else onFabCounts (fun c => { c with cfgBusy := wrap64 (c.cfgBusy + 1) }) s

/-- A write of XQ_TCFG (R385): a TIMEOUT_DEFAULT below 200 is not taken. -/
def writeTcfg (v : Nat) (s : State) : State :=
  onFab (fun x => { x with
    timeoutDefault := if 200 ≤ bits v 31 16 then bits v 31 16 else x.timeoutDefault, drainDefault := bits v 15 0 }) s

/-- A 32-bit register of the XQ_ block (R384–R387). -/
def putXqReg (off v : Nat) (s : State) : State :=
  if off = 0x300000 then writeNodeId v s
  else if off = 0x300004 then writeTcfg v s
  else match RegArray.find ⟨0x300100, 4, 36, 4⟩ off, RegArray.find ⟨0x300200, 4, 36, 4⟩ off with
    | some (n, _), _ => writeLctrl n v s
    | none, some (n, _) => onLane n (fun x => { x with prbsErr := x.prbsErr && !bit v 29 }) s
    | none, none => s

/-- A write of MED_CFG (R448): GC_LOW is held against the GC_HIGH that the write leaves. -/
def writeMedCfg (v : Nat) (s : State) : State :=
  onMed (fun m =>
    let high := if 3 ≤ bits v 23 16 ∧ bits v 23 16 ≤ 128 then bits v 23 16 else m.gcHigh
    let low := if 2 ≤ bits v 31 24 ∧ bits v 31 24 ≤ 64 ∧ bits v 31 24 < high then bits v 31 24 else m.gcLow
    let every := if 10 ≤ bits v 7 0 then bits v 7 0 else m.ckptS
    { m with gcLow := low, gcHigh := high, suspLimit := bits v 15 12, ckptS := every }) s

/-- A 32-bit register of the MED_ block (R448, R449). -/
def putMedReg (off v : Nat) (s : State) : State :=
  if off = 0x400000 then writeMedCfg v s
  else if off = 0x400004 ∧ bits v 15 0 ≠ 0 then onMed (fun m => { m with wlRate := bits v 15 0 }) s
  else s

/-- A 32-bit register of a STK_ page (R232, R233). -/
def putStkReg (t k v : Nat) (s : State) : State :=
  if k = 0 then
    let now := timeUs s
    if 256 ≤ bits v 11 0 ∧ bits v 11 0 ≤ 3200 then
      onStack t (fun x => { x with budget := bits v 11 0, budgetWas := budgetAt (1000 * now) x, budgetFrom := now + 1 }) s
    else s
  else if k = 4 then
    if bits v 31 20 ≤ bits v 19 8 then s
    else onStack t (fun x => { x with
      act4 := bits v 31 20, act2 := bits v 19 8, multMin := if bits v 1 0 = 3 then x.multMin else bits v 1 0 }) s
  else s

/-- A 32-bit register of the WLK_ block (R134, R188, R189). -/
def putWlkReg (f : Fn) (off v : Nat) (s : State) : State :=
  if off = 0x700000 then
    onSrch (fun x => { x with
      batchEn := bit v 16
      widthDefault := if 1 ≤ bits v 11 8 ∧ bits v 11 8 ≤ 8 then bits v 11 8 else x.widthDefault
      windowDefault := if bits v 7 0 ≤ 200 then bits v 7 0 else x.windowDefault }) s
  else if off = 0x700008 then
    triggerAll (onMut (fun m => { m with
      ringWaitMs := if 1 ≤ bits v 31 24 ∧ bits v 31 24 ≤ 100 then bits v 31 24 else m.ringWaitMs
      repairTrigger := bits v 23 16
      repairRate := if bits v 15 0 = 0 then m.repairRate else bits v 15 0 }) s)
  else if off = 0x70000C then writeRepair f v s
  else s

/-- A register of a crier, written by a host (R466, R467). -/
def putCrierReg (p : Port) (n k v : Nat) (s : State) : State :=
  match k with
  | 0x00 => writeCcfg (.host p) n v s
  | 0x04 => postCrier (.host p) n v s
  | 0x0C => writeCstat p n v s
  | 0x10 => writeCctrl p n v s
  | _ => s

/-- A write of PWR_CFG (R470): a new delay is noted with its time, from which gating conditions meet it. -/
def writePwrCfg (v : Nat) (s : State) : State :=
  let now := timeUs s
  let old := (s.board.pwr.delays.head?.map (·.2)).getD 50
  onPwr (fun p => { p with
    noGate := bit v 16, delays := if bits v 15 0 = old then p.delays else (now, bits v 15 0) :: p.delays }) s

/-- A 32-bit register of the PWR_ block (R470, R551). -/
def putPwrReg (off v : Nat) (s : State) : State :=
  if off = 0xA00000 then writePwrCfg v s
  else if off = 0xA00024 then onIsland (fun i => { i with inputFault := i.inputFault && !bit v 7 }) s
  else s

/-- A write of ERR_CFG (R496). -/
def writeErrCfg (v : Nat) (s : State) : State :=
  onErr (fun e => { e with
    intMin := bits v 31 30
    owner := bits v 29 29
    ceLimit := if bits v 23 16 = 0 then e.ceLimit else bits v 23 16
    scrubH := if bits v 15 8 ≤ 168 then bits v 15 8 else e.scrubH
    mergeMs := if bits v 7 0 = 0 then e.mergeMs else bits v 7 0 }) s

/-- A 32-bit register of the ERR_ block (R496, R498). -/
def putErrReg (f : Fn) (off v : Nat) (s : State) : State :=
  if off = 0xB00000 then writeErrCfg v s
  else match RegArray.find ⟨0xB00010, 4, 4, 4⟩ off with
    | some (sev, _) => writeErrQstat f sev v s
    | none => s

/-- BOOT_RCV_CMD (R523, R535): there in recovery mode only. ARM acts by its row, which carries what the checks of the image find. -/
def writeRcvCmd (p : Port) (v : Nat) (s : State) : State :=
  match bits v 31 28 with
  | 1 => rcvErase p s
  | 2 => rcvWrite p (bits v 16 8) s
  | 4 => rcvReset p s
  | _ => s

/-- A 32-bit register of the BOOT_ block (R533, R535). -/
def putBootReg (f : Fn) (off v : Nat) (s : State) : State :=
  if off = bootCtrlOff then writeBootCtrl f v s
  else if off = 0xC00100 then writeRcvCmd f.port v s
  else s

/-- The effect of a 32-bit write that reached its register (R7, R35). -/
def put32 (f : Fn) (off v : Nat) (s : State) : State :=
  if windowBase ≤ off then fillWindow (off - windowBase) (leBytes 4 v) s
  else if off < 0x4000 then
    match queueAt off with
    | some (q, k) => putQueueReg q k v s
    | none => s
  else match ptnOffset off with
    | some (p, k) => putPtnReg p k v s
    | none =>
      if off < 0x200000 then s
      else if off < 0x300000 then putTmReg off v s
      else if off < 0x400000 then putXqReg off v s
      else if off < 0x500000 then putMedReg off v s
      else if off < 0x580000 then putStkReg ((off - 0x500000) / 0x10000) (off % 0x10000) v s
      else if off < 0x700000 then if off = 0x60D000 then onTil (fun x => { x with freeze := bit v 0 }) s else s
      else if off < 0x780000 then putWlkReg f off v s
      else if off < 0x800000 then if off = 0x780000 then onSel (fun x => { x with share := bit v 0 }) s else s
      else if off < 0x900000 then s
      else if off < 0x901000 then putCrierReg f.port ((off - 0x900000) / 0x20) (off % 0x20) v s
      else if off < 0xA00000 then s
      else if off < 0xB00000 then putPwrReg off v s
      else if off < 0xC00000 then putErrReg f off v s
      else if off < 0xD00000 then putBootReg f off v s
      else s

/-! Effects of writes of 64-bit registers. -/

/-- A write of TM_QCOLOUR (R408): one with the colour 0b11 anywhere is discarded whole. -/
def writeQcolour (p v : Nat) (s : State) : State :=
  if (List.range 18).any fun i => bits v (2 * i + 1) (2 * i) == 3 then s
  else
    let c : QColour := { qp := bits v 31 0, req := bits v 33 32, bulk := bits v 35 34 }
    onTm (fun t => { t with colours := sset qColourReset t.colours p c }) s

/-- A write of an XQ_RT entry (R383, R391): discarded whole when an enabled lane is above 35. Frames that wait for a route are
tried again; those assigned to a lane keep it. -/
def writeRoute (e v : Nat) (s : State) : State :=
  if (List.range 4).any fun i => bit v (7 * i + 6) && decide (35 < bits v (7 * i + 5) (7 * i)) then s
  else
    let kept := 2 ^ 63 * b2n (bit v 63) + bits v 27 0
    rerouteWaiting (onFab (fun x => { x with routes := sset (fun _ => 0) x.routes e kept }) s)

/-- The effect of a write of a whole 64-bit register that reached it: counters and status are RO (R7). -/
def put64 (f : Fn) (off v : Nat) (s : State) : State :=
  match queueAt off with
  | some (q, k) => if k = 0 then writeQueueBase q false v s else if k = 8 then writeQueueBase q true v s else s
  | none =>
    if off = 0x200010 then writeRingBase v s
    else if off = 0x200028 then writeRingPtr f v s
    else if off = 0x200030 then onTm (fun t => { t with sampleEn := v }) s
    else match RegArray.find ⟨0x204000, 8, 64, 8⟩ off, RegArray.find ⟨0x380000, 8, 65536, 8⟩ off with
      | some (p, _), _ => writeQcolour p v s
      | none, some (e, _) => writeRoute e v s
      | none, none => s

/-! REGISTER_WRITE (R34, R36, R37, R45). -/

/-- A 32-bit write by a function to one half of the 64-bit register at `base` (R36). -/
def writeHalf (f : Fn) (base : Nat) (high : Bool) (v : Nat) (s : State) : State :=
  let off := if high then base + 4 else base
  if (closedPage f off s).isSome || !blockAnswers off s then writeAt f off (fun s => s) s
  else if !high then setLatch f (some (fnOffset f base, v)) (flushLatch f s)
  else match pendingLow f s with
    | some (o, lo) =>
      if o = fnOffset f base then put64 f base (lo + 2 ^ 32 * v) (setLatch f none s)
      else fileBadAccess f 0 (fnOffset f off) (flushLatch f s)
    | none => fileBadAccess f 0 (fnOffset f off) s

/-- A 32-bit write by a function at a PF BAR0 offset (R36). -/
def write32 (f : Fn) (off v : Nat) (s : State) : State :=
  if wideAt (off / 8 * 8) then writeHalf f (off / 8 * 8) (off % 8 == 4) v s else writeAt f off (put32 f off v) s

/-- A naturally aligned 64-bit write by a function at a PF BAR0 offset (R36). -/
def write64 (f : Fn) (off v : Nat) (s : State) : State :=
  if wideAt off then writeAt f off (put64 f off v) s
  else write32 f (off + 4) (v / 2 ^ 32) (write32 f off (v % 2 ^ 32) s)

/-- A 32-bit write by a function at an offset of its BAR2 (R34, R45). -/
def bell (f : Fn) (off v : Nat) (s : State) : State :=
  let page := if f.vf = 0 then off / 0x1000 else f.vf - 1
  doorbell f page (off % 0x1000 / 8) (off % 8 == 4) v s

/-- A write to BAR2 (R34, R36, R45): it never disturbs the latch. -/
def writeBar2 (f : Fn) (off size v : Nat) (s : State) : State :=
  if (if f.vf = 0 then 0x80000 else 0x1000) ≤ off then s
  else if size = 4 ∧ off % 4 = 0 then bell f off (v % 2 ^ 32) s
  else if size = 8 ∧ off % 8 = 0 then bell f (off + 4) (v / 2 ^ 32) (bell f off (v % 2 ^ 32) s)
  else fileBadAccess f 2 off s

/-- A write to BAR0 (R33–R37). -/
def writeBar0 (f : Fn) (off size v : Nat) (s : State) : State :=
  match busOffset f off s with
  | none => s
  | some o =>
    if size = 4 ∧ off % 4 = 0 then write32 f o (v % 2 ^ 32) s
    else if size = 8 ∧ off % 8 = 0 then write64 f o v s
    else fileBadAccess f 0 off (flushLatch f s)

/-- A write by a function to its BAR0 or BAR2; one of a function that is not there or not live is discarded (R33). -/
def registerWrite (f : Fn) (bar2 : Bool) (off size v : Nat) (s : State) : State :=
  if !fnLive f s then s else if bar2 then writeBar2 f off size v s else writeBar0 f off size v s

/-- REGISTER_WRITE (R36). -/
def execRegisterWrite (f : Fn) (bar2 : Bool) (offset size : Nat) (value : W64) (s : State) :
    Host.Outcome State Fault Refusal :=
  .next (registerWrite f bar2 offset size value.toNat s)

/-! The rows that write one register. -/

/-- Whether a function's BAR0 holds the registers of a queue (R34, R38). -/
def holdsQueue (f : Fn) (q : QRef) : Bool :=
  match q.scope with
  | .part p => p < 64 && q.q ≤ 16 && holdsPage f p
  | .pf _ => f.vf == 0 && q.q == 16

/-- QUEUE_ENABLE (R42): a write of PTN_QCFG with ENABLE set. -/
def execQueueEnable (f : Fn) (q : QRef) (value : W32) (s : State) : Host.Outcome State Fault Refusal :=
  .next (if holdsQueue f q && bit value.toNat 31 then writeAt f (queueReg q 0x10) (writeQcfg q value.toNat) s else s)

/-- QUEUE_DISABLE (R43): a write of PTN_QCFG with ENABLE clear. -/
def execQueueDisable (f : Fn) (q : QRef) (value : W32) (s : State) : Host.Outcome State Fault Refusal :=
  .next (if holdsQueue f q && !bit value.toNat 31 then writeAt f (queueReg q 0x10) (writeQcfg q value.toNat) s else s)

/-- REPAIR_START (R189): a write of WLK_REPAIR with START set. -/
def execRepairStart (f : Fn) (value : W32) (s : State) : Host.Outcome State Fault Refusal :=
  .next (if f.vf = 0 ∧ bit value.toNat 31 = true then writeAt f 0x70000C (writeRepair f value.toNat) s else s)

/-- PTN_CTX_WRITE (R346). -/
def execPtnCtxWrite (f : Fn) (p n : Nat) (value : W32) (s : State) : Host.Outcome State Fault Refusal :=
  .next (if holdsPage f p && p < 64 && n < 16 then writeAt f (ptnPage p + 0x40 + 4 * n) (writeCtx p n value.toNat) s else s)

/-- QUIESCE_SET (R339): a write of PTN_CTRL with QUIESCE set. -/
def execQuiesceSet (f : Fn) (p : Nat) (value : W32) (s : State) : Host.Outcome State Fault Refusal :=
  .next (if holdsPage f p && p < 64 && bit value.toNat 0 then writeAt f (ptnPage p + 4) (writePtnCtrl p value.toNat) s else s)

/-- QUIESCE_CLEAR (R339): a write of PTN_CTRL with QUIESCE clear. -/
def execQuiesceClear (f : Fn) (p : Nat) (value : W32) (s : State) : Host.Outcome State Fault Refusal :=
  .next (if holdsPage f p && p < 64 && !bit value.toNat 0 then writeAt f (ptnPage p + 4) (writePtnCtrl p value.toNat) s else s)

/-- LANE_ENABLE (R351): a write of XQ_LCTRL with ENABLE set. -/
def execLaneEnable (f : Fn) (lane : Nat) (value : W32) (s : State) : Host.Outcome State Fault Refusal :=
  .next (if f.vf = 0 ∧ lane < 36 ∧ bit value.toNat 31 = true then
    writeAt f (0x300100 + 4 * lane) (writeLctrl lane value.toNat) s else s)

/-- LANE_DISABLE (R351): a write of XQ_LCTRL with ENABLE clear. -/
def execLaneDisable (f : Fn) (lane : Nat) (value : W32) (s : State) : Host.Outcome State Fault Refusal :=
  .next (if f.vf = 0 ∧ lane < 36 ∧ bit value.toNat 31 = false then
    writeAt f (0x300100 + 4 * lane) (writeLctrl lane value.toNat) s else s)

/-- NODE_ID_WRITE (R383, R384). -/
def execNodeIdWrite (f : Fn) (value : W32) (s : State) : Host.Outcome State Fault Refusal :=
  .next (if f.vf = 0 then writeAt f 0x300000 (writeNodeId value.toNat) s else s)

/-- ROUTING_ENTRY_WRITE (R391). -/
def execRoutingEntryWrite (f : Fn) (node : Nat) (value : W64) (s : State) : Host.Outcome State Fault Refusal :=
  .next (if f.vf = 0 ∧ node < 65536 then writeAt f (0x380000 + 8 * node) (writeRoute node value.toNat) s else s)

end Sys2Proof.Machine
end

