-- ==== Sys2Proof/Machine/SelectorRows.lean ====
section
/-!
DEFINITION. A row on a selector: of a selection command, or of a SELECT layer of a MODEL_RUN (R137, R138, R157, R278).
-/
namespace Sys2Proof.Machine

/-- A row of a SELECT layer run: its record kept for the end of the step (R278). -/
def finishPick (r : SelRow) (i : Nat) (s : State) : State :=
  match getModelRun r.ref s with
  | none => s
  | some x =>
    match getModel x.handle s with
    | none => s
    | some m =>
      match layerInput x m (layerAt m i) with
      | none => s
      | some a => onStep r.ref i (fun st => { st with picks := tput st.picks r.row (pickRow a (layerAt m i).selK r.row) }) s

/-- A row that its selector has run (R147, R278). -/
def runOut (r : SelRow) (started : Nat) (resultOk : Bool) (s : State) : State :=
  match r.layer with
  | some i => finishPick r i s
  | none =>
    match s.sel.cmds.find? (·.ref == r.ref) with
    | none => s
    | some c => finishRow r c started resultOk s

/-- A corrected word of a selector's staging (R474, R489). -/
def stagingCorrected (n row bytes : Nat) (s : State) : State :=
  let s := onErr (fun e => { e with sramCe := wrap64 (e.sramCe + 1) }) s
  countCe .selector n (fileRec (mkRec 0x12 1 2 (locSram 5 (n / 4) n row bytes)) s)

/-- The record of a word of a row's staged input that is lost: it names the selector, and in WORD the row (R157, R480). DESIGN CHOICE
(log 121): that WORD holds the row's number. -/
def stagingRec (n : Nat) (r : SelRow) (s : State) : Rec :=
  let e := { mkRec 0x13 2 2 (locSram 5 (n / 4) n r.row 0) with unit := n, unitKind := unitCode .selector }
  match findCmd r.ref s with
  | some k => cmdRec k e
  | none => e

/-- A row whose staged input is lost: its command ends UNCORRECTABLE (R157). -/
def stagingLost (n : Nat) (r : SelRow) (s : State) : State :=
  let s := onErr (fun e => { e with sramUe := wrap64 (e.sramUe + 1) }) s
  let (s, seq, dropped) := fileErr (stagingRec n r s) none false s
  let s := if r.layer.isSome then dropModelRun r.ref s else dropSelect r.ref s
  completeRec r.ref stUncorrectable 0 seq dropped s

/-- A selector takes the next row, or goes on with the one it has (R137, R138, R157). DESIGN CHOICE (log 115): `mid` says that the event
ends with the row in progress. -/
def selectorRow (n : Nat) (mid : Bool) (sram : EccOutcome) (resultOk : Bool) (s : State) : State :=
  if outOfService .selector n s || !unitAwake .selector n s then s
  else match takeRow n s with
    | none => s
    | some (r, t, s) =>
      if mid then onSel (fun x => { x with busy := tput x.busy n (.row r t) }) s
      else match sram with
        | .clean => runOut r t resultOk s
        | .corrected b => stagingCorrected n r.row b (runOut r t resultOk s)
        | .uncorrectable => stagingLost n r s

/-- SELECTOR_ROW (R138). -/
def execSelectorRow (sel : Nat) (mid : Bool) (sram : EccOutcome) (resultOk : Bool) (s : State) :
    Host.Outcome State Fault Refusal := .next (selectorRow sel mid sram resultOk s)

end Sys2Proof.Machine
end

