-- ==== Sys2Proof/Machine/Dispatch.lean ====
section
/-!
DEFINITION. The meaning of each command: one arm per row of the opcode table.
-/
namespace Sys2Proof.Machine

/-- What a command does to everything but the queue of waiting commands. -/
def exec (i : Instr) (s : State) : Host.Outcome State Fault Refusal :=
  match i with
  | .sqTailDoorbell f page q value => Sys2Proof.Machine.execSqTailDoorbell f page q value s
  | .cqHeadDoorbell f page q value => Sys2Proof.Machine.execCqHeadDoorbell f page q value s
  | .commandFetch q packet => Sys2Proof.Machine.execCommandFetch q packet s
  | .dupEntryExpiry c now => Sys2Proof.Machine.execDupEntryExpiry c now s
  | .intTimeExpiry q now => Sys2Proof.Machine.execIntTimeExpiry q now s
  | .deadlineExpiry c now => Sys2Proof.Machine.execDeadlineExpiry c now s
  | .ringDmaFailure q addr => Sys2Proof.Machine.execRingDmaFailure q addr s
  | .queueEnable f q value => Sys2Proof.Machine.execQueueEnable f q value s
  | .queueDisable f q value => Sys2Proof.Machine.execQueueDisable f q value s
  | .queueDrained q => Sys2Proof.Machine.execQueueDrained q s
  | .registerWrite f bar2 offset size value => Sys2Proof.Machine.execRegisterWrite f bar2 offset size value s
  | .counterRead r cycles half => Sys2Proof.Machine.execCounterRead r cycles half s
  | .functionLevelResetVf port n => Sys2Proof.Machine.execFunctionLevelResetVf port n s
  | .functionLevelResetPf port => Sys2Proof.Machine.execFunctionLevelResetPf port s
  | .pcieLinkUp port => Sys2Proof.Machine.execPcieLinkUp port s
  | .pcieLinkDown port => Sys2Proof.Machine.execPcieLinkDown port s
  | .perstAssert port us => Sys2Proof.Machine.execPerstAssert port us s
  | .heartbeatTimeout port now => Sys2Proof.Machine.execHeartbeatTimeout port now s
  | .abort c d => Sys2Proof.Machine.execAbort c d s
  | .partAdopt c d => Sys2Proof.Machine.execPartAdopt c d s
  | .search c d => Sys2Proof.Machine.execSearch c d s
  | .searchFiltered c d => Sys2Proof.Machine.execSearchFiltered c d s
  | .range c d => Sys2Proof.Machine.execRange c d s
  | .queryAdmission p now => Sys2Proof.Machine.execQueryAdmission p now s
  | .walkStep c now mid ecc place => Sys2Proof.Machine.execWalkStep c now mid ecc place s
  | .crateBatchIssue handle crate now => Sys2Proof.Machine.execCrateBatchIssue handle crate now s
  | .crateReadComplete handle crate checksOk => Sys2Proof.Machine.execCrateReadComplete handle crate checksOk s
  | .rerankReadIssue c n_ => Sys2Proof.Machine.execRerankReadIssue c n_ s
  | .rerankReadComplete c n_ => Sys2Proof.Machine.execRerankReadComplete c n_ s
  | .searchSelection c mid resultOk => Sys2Proof.Machine.execSearchSelection c mid resultOk s
  | .insert c d => Sys2Proof.Machine.execInsert c d s
  | .delete c d => Sys2Proof.Machine.execDelete c d s
  | .upsert c d => Sys2Proof.Machine.execUpsert c d s
  | .groupPublish g crate read vectorsOk resultOk => Sys2Proof.Machine.execGroupPublish g crate read vectorsOk resultOk s
  | .ringWaitExpiry g now => Sys2Proof.Machine.execRingWaitExpiry g now s
  | .crateWriteback handle crate => Sys2Proof.Machine.execCrateWriteback handle crate s
  | .swapGeneration c d => Sys2Proof.Machine.execSwapGeneration c d s
  | .repairStart f value => Sys2Proof.Machine.execRepairStart f value s
  | .repairCrateSweep crate read => Sys2Proof.Machine.execRepairCrateSweep crate read s
  | .indexMount handle => Sys2Proof.Machine.execIndexMount handle s
  | .selectTopk c d => Sys2Proof.Machine.execSelectTopk c d s
  | .selectThreshold c d => Sys2Proof.Machine.execSelectThreshold c d s
  | .selectorRow sel mid sram resultOk => Sys2Proof.Machine.execSelectorRow sel mid sram resultOk s
  | .stallRun c d => Sys2Proof.Machine.execStallRun c d s
  | .rowOpPlain c d => Sys2Proof.Machine.execRowOpPlain c d s
  | .rowOpDerive c d => Sys2Proof.Machine.execRowOpDerive c d s
  | .rowOpClear c d => Sys2Proof.Machine.execRowOpClear c d s
  | .activationBoundary stall ns hub ecc row unit => Sys2Proof.Machine.execActivationBoundary stall ns hub ecc row unit s
  | .refreshDebtIncrement stack pc => Sys2Proof.Machine.execRefreshDebtIncrement stack pc s
  | .refreshClassEvaluation stack temp => Sys2Proof.Machine.execRefreshClassEvaluation stack temp s
  | .stallNop st => Sys2Proof.Machine.execStallNop st s
  | .stallEnd st => Sys2Proof.Machine.execStallEnd st s
  | .stallSeg st => Sys2Proof.Machine.execStallSeg st s
  | .stallBr st target => Sys2Proof.Machine.execStallBr st target s
  | .stallDbnz st sd target => Sys2Proof.Machine.execStallDbnz st sd target s
  | .stallBz st sd target => Sys2Proof.Machine.execStallBz st sd target s
  | .stallSetmode st lt at1 rnd => Sys2Proof.Machine.execStallSetmode st lt at1 rnd s
  | .stallLd st reg w sa inc imm => Sys2Proof.Machine.execStallLd st reg w sa inc imm s
  | .stallSt st reg w sa inc imm => Sys2Proof.Machine.execStallSt st reg w sa inc imm s
  | .stallLda st reg w sa inc imm => Sys2Proof.Machine.execStallLda st reg w sa inc imm s
  | .stallSta st reg w sa inc imm => Sys2Proof.Machine.execStallSta st reg w sa inc imm s
  | .stallLds st reg w sa inc imm => Sys2Proof.Machine.execStallLds st reg w sa inc imm s
  | .stallSts st reg w sa inc imm => Sys2Proof.Machine.execStallSts st reg w sa inc imm s
  | .stallRop st op wd sd wa sa wb sb => Sys2Proof.Machine.execStallRop st op wd sd wa sa wb sb s
  | .stallSadd st sd sa sb => Sys2Proof.Machine.execStallSadd st sd sa sb s
  | .stallSsub st sd sa sb => Sys2Proof.Machine.execStallSsub st sd sa sb s
  | .stallSmul st sd sa sb => Sys2Proof.Machine.execStallSmul st sd sa sb s
  | .stallSaddi st sd sa imm => Sys2Proof.Machine.execStallSaddi st sd sa imm s
  | .stallSmuli st sd sa imm => Sys2Proof.Machine.execStallSmuli st sd sa imm s
  | .stallSshli st sd sa imm => Sys2Proof.Machine.execStallSshli st sd sa imm s
  | .stallSshri st sd sa imm => Sys2Proof.Machine.execStallSshri st sd sa imm s
  | .stallSandi st sd sa imm => Sys2Proof.Machine.execStallSandi st sd sa imm s
  | .stallSori st sd sa imm => Sys2Proof.Machine.execStallSori st sd sa imm s
  | .stallSlui st sd imm => Sys2Proof.Machine.execStallSlui st sd imm s
  | .stallVmac st ad va vb => Sys2Proof.Machine.execStallVmac st ad va vb s
  | .stallVmacs st ad va ss => Sys2Proof.Machine.execStallVmacs st ad va ss s
  | .stallVsqd st ad va vb => Sys2Proof.Machine.execStallVsqd st ad va vb s
  | .stallVadd st vd va vb => Sys2Proof.Machine.execStallVadd st vd va vb s
  | .stallVsub st vd va vb => Sys2Proof.Machine.execStallVsub st vd va vb s
  | .stallVmul st vd va vb => Sys2Proof.Machine.execStallVmul st vd va vb s
  | .stallVmax st vd va vb => Sys2Proof.Machine.execStallVmax st vd va vb s
  | .stallVmin st vd va vb => Sys2Proof.Machine.execStallVmin st vd va vb s
  | .stallVbcast st vd ss => Sys2Proof.Machine.execStallVbcast st vd ss s
  | .stallVmov st vd va => Sys2Proof.Machine.execStallVmov st vd va s
  | .stallUnpk4 st vd va ss quarter fp4 fp8Scale => Sys2Proof.Machine.execStallUnpk4 st vd va ss quarter fp4 fp8Scale s
  | .stallUnpk8 st vd va upper ef => Sys2Proof.Machine.execStallUnpk8 st vd va upper ef s
  | .stallVrsq st vd va => Sys2Proof.Machine.execStallVrsq st vd va s
  | .stallVrcp st vd va => Sys2Proof.Machine.execStallVrcp st vd va s
  | .stallAclr st ad => Sys2Proof.Machine.execStallAclr st ad s
  | .stallAadd st ad aa => Sys2Proof.Machine.execStallAadd st ad aa s
  | .stallAmul st ad aa => Sys2Proof.Machine.execStallAmul st ad aa s
  | .stallAmuls st ad ss => Sys2Proof.Machine.execStallAmuls st ad ss s
  | .stallAwid st ad va => Sys2Proof.Machine.execStallAwid st ad va s
  | .stallCvt st vd aa => Sys2Proof.Machine.execStallCvt st vd aa s
  | .stallAred st ss aa => Sys2Proof.Machine.execStallAred st ss aa s
  | .stallArsq st ad aa ss => Sys2Proof.Machine.execStallArsq st ad aa ss s
  | .modelLoadBegin c d => Sys2Proof.Machine.execModelLoadBegin c d s
  | .modelLoadChunk c d => Sys2Proof.Machine.execModelLoadChunk c d s
  | .modelLoadCommit c d => Sys2Proof.Machine.execModelLoadCommit c d s
  | .modelLoadUnload c d => Sys2Proof.Machine.execModelLoadUnload c d s
  | .modelLoadResetScales c d => Sys2Proof.Machine.execModelLoadResetScales c d s
  | .modelLoadReadScales c d => Sys2Proof.Machine.execModelLoadReadScales c d s
  | .modelRun c d => Sys2Proof.Machine.execModelRun c d s
  | .modelPin c d => Sys2Proof.Machine.execModelPin c d s
  | .modelUnpin c d => Sys2Proof.Machine.execModelUnpin c d s
  | .layerStepStart c layer => Sys2Proof.Machine.execLayerStepStart c layer s
  | .layerStepEnd c layer ecc place => Sys2Proof.Machine.execLayerStepEnd c layer ecc place s
  | .shelfFill c layer => Sys2Proof.Machine.execShelfFill c layer s
  | .tileLateStop t now => Sys2Proof.Machine.execTileLateStop t now s
  | .tileNop t => Sys2Proof.Machine.execTileNop t s
  | .tileEnd t => Sys2Proof.Machine.execTileEnd t s
  | .tileBar t => Sys2Proof.Machine.execTileBar t s
  | .tileLoop t sd target => Sys2Proof.Machine.execTileLoop t sd target s
  | .tileBrz t sd target => Sys2Proof.Machine.execTileBrz t sd target s
  | .tileDmaIn t arr sa token len saddr => Sys2Proof.Machine.execTileDmaIn t arr sa token len saddr s
  | .tileDmaOut t arr sa token len saddr => Sys2Proof.Machine.execTileDmaOut t arr sa token len saddr s
  | .tileDmaComplete t token ecc place => Sys2Proof.Machine.execTileDmaComplete t token ecc place s
  | .tileWait t mask => Sys2Proof.Machine.execTileWait t mask s
  | .tileMma t waddr aaddr rows acc kb zero => Sys2Proof.Machine.execTileMma t waddr aaddr rows acc kb zero s
  | .tileEpi t oaddr rows acc fn bias baddr raw => Sys2Proof.Machine.execTileEpi t oaddr rows acc fn bias baddr raw s
  | .tileVec t daddr xaddr yaddr fn => Sys2Proof.Machine.execTileVec t daddr xaddr yaddr fn s
  | .tileSadd t sd sa sb => Sys2Proof.Machine.execTileSadd t sd sa sb s
  | .tileSaddi t sd sa imm => Sys2Proof.Machine.execTileSaddi t sd sa imm s
  | .tileSmuli t sd sa imm => Sys2Proof.Machine.execTileSmuli t sd sa imm s
  | .tileSshli t sd sa imm => Sys2Proof.Machine.execTileSshli t sd sa imm s
  | .embLookupPool c d => Sys2Proof.Machine.execEmbLookupPool c d s
  | .embLookupDump c d => Sys2Proof.Machine.execEmbLookupDump c d s
  | .embUpdate c d => Sys2Proof.Machine.execEmbUpdate c d s
  | .embUpdateClose c d => Sys2Proof.Machine.execEmbUpdateClose c d s
  | .embUpdateLoad c d => Sys2Proof.Machine.execEmbUpdateLoad c d s
  | .stepCloseStart c lost => Sys2Proof.Machine.execStepCloseStart c lost s
  | .embReplicaInstall c d => Sys2Proof.Machine.execEmbReplicaInstall c d s
  | .embReplicaDrop c d => Sys2Proof.Machine.execEmbReplicaDrop c d s
  | .embReplicaRefresh c d => Sys2Proof.Machine.execEmbReplicaRefresh c d s
  | .partConfigCreate c d => Sys2Proof.Machine.execPartConfigCreate c d s
  | .partConfigDestroy c d => Sys2Proof.Machine.execPartConfigDestroy c d s
  | .partConfigGrant c d => Sys2Proof.Machine.execPartConfigGrant c d s
  | .partConfigWithdraw c d => Sys2Proof.Machine.execPartConfigWithdraw c d s
  | .partConfigShares c d => Sys2Proof.Machine.execPartConfigShares c d s
  | .partConfigRegionAlloc c d => Sys2Proof.Machine.execPartConfigRegionAlloc c d s
  | .partConfigRegionFree c d => Sys2Proof.Machine.execPartConfigRegionFree c d s
  | .partConfigPort c d => Sys2Proof.Machine.execPartConfigPort c d s
  | .partConfigIndexCreate c d => Sys2Proof.Machine.execPartConfigIndexCreate c d s
  | .partConfigIndexResize c d => Sys2Proof.Machine.execPartConfigIndexResize c d s
  | .partConfigIndexDestroy c d => Sys2Proof.Machine.execPartConfigIndexDestroy c d s
  | .partConfigIndexRead c d => Sys2Proof.Machine.execPartConfigIndexRead c d s
  | .partConfigTableCreate c d => Sys2Proof.Machine.execPartConfigTableCreate c d s
  | .partConfigTableResize c d => Sys2Proof.Machine.execPartConfigTableResize c d s
  | .partConfigTableDestroy c d => Sys2Proof.Machine.execPartConfigTableDestroy c d s
  | .partConfigTableRead c d => Sys2Proof.Machine.execPartConfigTableRead c d s
  | .ctxCreate c d => Sys2Proof.Machine.execCtxCreate c d s
  | .ctxDestroy c d => Sys2Proof.Machine.execCtxDestroy c d s
  | .ptnCtxWrite f p n value => Sys2Proof.Machine.execPtnCtxWrite f p n value s
  | .sliceEnd p now => Sys2Proof.Machine.execSliceEnd p now s
  | .stopPosted p now => Sys2Proof.Machine.execStopPosted p now s
  | .contextSwitch p now ns lost => Sys2Proof.Machine.execContextSwitch p now ns lost s
  | .gangStart p now lost => Sys2Proof.Machine.execGangStart p now lost s
  | .quiesceSet f p value => Sys2Proof.Machine.execQuiesceSet f p value s
  | .quiesceClear f p value => Sys2Proof.Machine.execQuiesceClear f p value s
  | .substitution kind unit spareOk => Sys2Proof.Machine.execSubstitution kind unit spareOk s
  | .unitWatchdog kind unit => Sys2Proof.Machine.execUnitWatchdog kind unit s
  | .laneEnable f lane value => Sys2Proof.Machine.execLaneEnable f lane value s
  | .laneDisable f lane value => Sys2Proof.Machine.execLaneDisable f lane value s
  | .laneUp lane peer credits => Sys2Proof.Machine.execLaneUp lane peer credits s
  | .laneTrainingRestart lane now => Sys2Proof.Machine.execLaneTrainingRestart lane now s
  | .laneDown lane cause => Sys2Proof.Machine.execLaneDown lane cause s
  | .cellReceive lane cell fec => Sys2Proof.Machine.execCellReceive lane cell fec s
  | .replayTimeout lane now => Sys2Proof.Machine.execReplayTimeout lane now s
  | .replayBudgetExpiry lane now => Sys2Proof.Machine.execReplayBudgetExpiry lane now s
  | .frameReceive lane => Sys2Proof.Machine.execFrameReceive lane s
  | .transitDrop lane now => Sys2Proof.Machine.execTransitDrop lane now s
  | .searchSub src msg => Sys2Proof.Machine.execSearchSub src msg s
  | .searchRsp src msg => Sys2Proof.Machine.execSearchRsp src msg s
  | .embFetch src msg => Sys2Proof.Machine.execEmbFetch src msg s
  | .embRows src msg => Sys2Proof.Machine.execEmbRows src msg s
  | .embGset src msg lost => Sys2Proof.Machine.execEmbGset src msg lost s
  | .embRset src msg => Sys2Proof.Machine.execEmbRset src msg s
  | .embRepl src msg => Sys2Proof.Machine.execEmbRepl src msg s
  | .embReplRsp src msg => Sys2Proof.Machine.execEmbReplRsp src msg s
  | .actBlock src msg => Sys2Proof.Machine.execActBlock src msg s
  | .bulkAck src msg => Sys2Proof.Machine.execBulkAck src msg s
  | .handoffOffer src msg => Sys2Proof.Machine.execHandoffOffer src msg s
  | .handoffState src msg => Sys2Proof.Machine.execHandoffState src msg s
  | .handoffCommit src msg => Sys2Proof.Machine.execHandoffCommit src msg s
  | .handoffAccept src msg => Sys2Proof.Machine.execHandoffAccept src msg s
  | .ownerQuery src msg => Sys2Proof.Machine.execOwnerQuery src msg s
  | .ownerAns src msg => Sys2Proof.Machine.execOwnerAns src msg s
  | .probe src msg => Sys2Proof.Machine.execProbe src msg s
  | .probeAck src msg => Sys2Proof.Machine.execProbeAck src msg s
  | .lostNotice src msg => Sys2Proof.Machine.execLostNotice src msg s
  | .droppedNotice src msg => Sys2Proof.Machine.execDroppedNotice src msg s
  | .cancelRequest src msg => Sys2Proof.Machine.execCancelRequest src msg s
  | .requestTimeout req now => Sys2Proof.Machine.execRequestTimeout req now s
  | .memberLost node now => Sys2Proof.Machine.execMemberLost node now s
  | .fabricDupExpiry src req now => Sys2Proof.Machine.execFabricDupExpiry src req now s
  | .composeInstall c d => Sys2Proof.Machine.execComposeInstall c d s
  | .composeRemove c d => Sys2Proof.Machine.execComposeRemove c d s
  | .composeRead c d => Sys2Proof.Machine.execComposeRead c d s
  | .drainWindowEnd comp now => Sys2Proof.Machine.execDrainWindowEnd comp now s
  | .epochHoldExpiry hold now => Sys2Proof.Machine.execEpochHoldExpiry hold now s
  | .handoff c d => Sys2Proof.Machine.execHandoff c d s
  | .handoffTimeout comp slot now => Sys2Proof.Machine.execHandoffTimeout comp slot now s
  | .ownerQueryRetry comp slot now => Sys2Proof.Machine.execOwnerQueryRetry comp slot now s
  | .orphanSweep comp now => Sys2Proof.Machine.execOrphanSweep comp now s
  | .nodeIdWrite f value => Sys2Proof.Machine.execNodeIdWrite f value s
  | .routingEntryWrite f node value => Sys2Proof.Machine.execRoutingEntryWrite f node value s
  | .policerRefill => Sys2Proof.Machine.execPolicerRefill s
  | .shaperRefill => Sys2Proof.Machine.execShaperRefill s
  | .policerCommit f n value => Sys2Proof.Machine.execPolicerCommit f n value s
  | .shaperCommit f n value => Sys2Proof.Machine.execShaperCommit f n value s
  | .samplingRound now writeOk => Sys2Proof.Machine.execSamplingRound now writeOk s
  | .samplingEnable f value => Sys2Proof.Machine.execSamplingEnable f value s
  | .ringHeadWrite f value => Sys2Proof.Machine.execRingHeadWrite f value s
  | .medProfile c d => Sys2Proof.Machine.execMedProfile c d s
  | .medFormat c d bad => Sys2Proof.Machine.execMedFormat c d bad s
  | .medCheckpoint c d => Sys2Proof.Machine.execMedCheckpoint c d s
  | .medRetireLun c d => Sys2Proof.Machine.execMedRetireLun c d s
  | .medInfo c d => Sys2Proof.Machine.execMedInfo c d s
  | .mediaMount parts lost => Sys2Proof.Machine.execMediaMount parts lost s
  | .flashReadEnqueue lun now => Sys2Proof.Machine.execFlashReadEnqueue lun now s
  | .flashReadComplete lun r now => Sys2Proof.Machine.execFlashReadComplete lun r now s
  | .flashProgramComplete lun ok => Sys2Proof.Machine.execFlashProgramComplete lun ok s
  | .flashEraseComplete lun ok => Sys2Proof.Machine.execFlashEraseComplete lun ok s
  | .operationResume lun now => Sys2Proof.Machine.execOperationResume lun now s
  | .lunFailed lun => Sys2Proof.Machine.execLunFailed lun s
  | .journalFlush now => Sys2Proof.Machine.execJournalFlush now s
  | .checkpointStart now => Sys2Proof.Machine.execCheckpointStart now s
  | .checkpointAbandon now => Sys2Proof.Machine.execCheckpointAbandon now s
  | .garbageCollection set => Sys2Proof.Machine.execGarbageCollection set s
  | .coldRelocation now => Sys2Proof.Machine.execColdRelocation now s
  | .holdupStart mv us => Sys2Proof.Machine.execHoldupStart mv us s
  | .inputRestored mv ms => Sys2Proof.Machine.execInputRestored mv ms s
  | .inputFault overvoltage => Sys2Proof.Machine.execInputFault overvoltage s
  | .crierPost e n notice => Sys2Proof.Machine.execCrierPost e n notice s
  | .crierTake e n => Sys2Proof.Machine.execCrierTake e n s
  | .crierWithdraw e n => Sys2Proof.Machine.execCrierWithdraw e n s
  | .crierTimeout n now => Sys2Proof.Machine.execCrierTimeout n now s
  | .mbxCcfgWrite e n value => Sys2Proof.Machine.execMbxCcfgWrite e n value s
  | .gatingEntry kind unit since now => Sys2Proof.Machine.execGatingEntry kind unit since now s
  | .unitWake kind unit ns => Sys2Proof.Machine.execUnitWake kind unit ns s
  | .powerSample watts mv now => Sys2Proof.Machine.execPowerSample watts mv now s
  | .thermalSample hub stackTemps lid => Sys2Proof.Machine.execThermalSample hub stackTemps lid s
  | .bankMeasurement quarterVolts => Sys2Proof.Machine.execBankMeasurement quarterVolts s
  | .bankCapacitanceTest nF => Sys2Proof.Machine.execBankCapacitanceTest nF s
  | .recordHandled sev seq now => Sys2Proof.Machine.execRecordHandled sev seq now s
  | .errorQueueRetire f sev value => Sys2Proof.Machine.execErrorQueueRetire f sev value s
  | .patrolScrub stack pc bank row unit first again => Sys2Proof.Machine.execPatrolScrub stack pc bank row unit first again s
  | .sramScrub struct place unit word owner found => Sys2Proof.Machine.execSramScrub struct place unit word owner found s
  | .nocFlitFailure boundary link again c => Sys2Proof.Machine.execNocFlitFailure boundary link again c s
  | .powerOn b => Sys2Proof.Machine.execPowerOn b s
  | .moduleReset cause => Sys2Proof.Machine.execModuleReset cause s
  | .bootCtrlReset f value => Sys2Proof.Machine.execBootCtrlReset f value s
  | .modEnRise => Sys2Proof.Machine.execModEnRise s
  | .modEnFall us => Sys2Proof.Machine.execModEnFall us s
  | .pinReset us => Sys2Proof.Machine.execPinReset us s
  | .fwStageBegin c d => Sys2Proof.Machine.execFwStageBegin c d s
  | .fwStageChunk c d => Sys2Proof.Machine.execFwStageChunk c d s
  | .fwArm c d v => Sys2Proof.Machine.execFwArm c d v s
  | .fwConfirm c d => Sys2Proof.Machine.execFwConfirm c d s
  | .trialExpiry now => Sys2Proof.Machine.execTrialExpiry now s
  | .firmwareWatchdog => Sys2Proof.Machine.execFirmwareWatchdog s
  | .attest c d => Sys2Proof.Machine.execAttest c d s
  | .ownerRead c d => Sys2Proof.Machine.execOwnerRead c d s
  | .ownerInstallKey c d => Sys2Proof.Machine.execOwnerInstallKey c d s
  | .ownerLock c d verifies => Sys2Proof.Machine.execOwnerLock c d verifies s
  | .ownerUnlock c d verifies => Sys2Proof.Machine.execOwnerUnlock c d verifies s
  | .rcvErase port => Sys2Proof.Machine.execRcvErase port s
  | .rcvWrite port chunk data => Sys2Proof.Machine.execRcvWrite port chunk data s
  | .rcvArm port v => Sys2Proof.Machine.execRcvArm port v s
  | .rcvReset port => Sys2Proof.Machine.execRcvReset port s
  | .smbStatus => Sys2Proof.Machine.execSmbStatus s
  | .smbInputMv => Sys2Proof.Machine.execSmbInputMv s
  | .smbInputW => Sys2Proof.Machine.execSmbInputW s
  | .smbTemps => Sys2Proof.Machine.execSmbTemps s
  | .smbHoldup => Sys2Proof.Machine.execSmbHoldup s
  | .smbSerial => Sys2Proof.Machine.execSmbSerial s
  | .smbCause => Sys2Proof.Machine.execSmbCause s
  | .smbClearSticky pecOk => Sys2Proof.Machine.execSmbClearSticky pecOk s
  | .smbReset pecOk => Sys2Proof.Machine.execSmbReset pecOk s
  | .smbArmRecovery pecOk => Sys2Proof.Machine.execSmbArmRecovery pecOk s
  | .smbAlertResponse => Sys2Proof.Machine.execSmbAlertResponse s
  | .cellTime lane => Sys2Proof.Machine.execCellTime lane s
  | .perstDeassert port => Sys2Proof.Machine.execPerstDeassert port s
  | .standbyIslandPowerUp => Sys2Proof.Machine.execStandbyIslandPowerUp s
  | .standbyIslandPowerLoss => Sys2Proof.Machine.execStandbyIslandPowerLoss s
  | .distanceTableComplete c => Sys2Proof.Machine.execDistanceTableComplete c s
  | .shelfFillComplete handle layer ecc place => Sys2Proof.Machine.execShelfFillComplete handle layer ecc place s
  | .loadDataArrival st n => Sys2Proof.Machine.execLoadDataArrival st n s
  | .d3hotTransition f d3 => Sys2Proof.Machine.execD3hotTransition f d3 s
  | .attestStart now => Sys2Proof.Machine.execAttestStart now s
  | .prbs31CheckError lane => Sys2Proof.Machine.execPrbs31CheckError lane s

end Sys2Proof.Machine
end

