-- ==== Sys2Proof/Machine/NandBytes.lean ====
section
/-!
DEFINITION. The bytes that the media manager programs: the tag of a page, header and commit page of a segment, the entries of its
body, the last-gasp record (R417, R430, R431, R441), and the parity bytes of a codeword (R416).
-/
namespace Sys2Proof.Machine

/-- Parity bytes of one codeword of a page with `spare` spare bytes: an even number (R416). -/
def parityBytes (spare : Nat) : Nat := (spare - 32) / 8 / 2 * 2

/-- A tag ahead of CHECK (R417). -/
def tagHead (t : Tag) : List Byte :=
  leBytes 1 t.kind ++ zeros 1 ++ leBytes 2 t.handle ++ leBytes 4 t.lpn ++ leBytes 8 t.wseq ++ leBytes 8 t.csn ++ leBytes 4 t.sb

/-- The 32-byte tag of a page (R417). -/
def tagBytes (t : Tag) : List Byte := tagHead t ++ leBytes 4 (crc32c (tagHead t))

/-- The value of a block state (R421). -/
def BState.code : BState → Nat
  | .free => 0
  | .reserved => 1
  | .opened => 2
  | .closed => 3
  | .dirty => 4
  | .retired => 5

/-- The number of a superblock, all ones for none. -/
def sbNum (sb : Option Nat) : Nat := sb.getD 0xFFFFFFFF

/-- A stream entry of a header (R430). -/
def streamBytes (x : StreamEntry) : List Byte :=
  leBytes 2 x.set ++ leBytes 1 x.stream ++ zeros 1 ++ leBytes 4 (sbNum x.opened) ++ leBytes 2 x.scanFrom ++ zeros 2
    ++ leBytes 4 (sbNum x.reserved)

/-- The header pages of a segment with a body of `body` bytes (R430). -/
def headerBytes (g : Segment) (body : Nat) : List Byte :=
  let bs := leBytes 4 0x474D534A ++ leBytes 1 (b2n g.isMeta) ++ zeros 3 ++ leBytes 8 g.seq ++ leBytes 4 g.entries.length
    ++ leBytes 4 body ++ leBytes 8 g.wseqFlush ++ leBytes 4 g.streams.length ++ zeros 28 ++ g.streams.flatMap streamBytes
  fit ((bs.length + 16383) / 16384 * 16384) bs

/-- The commit page of a segment (R430): CHECK covers the header pages and the body. -/
def commitBytes (g : Segment) (body : List Byte) : List Byte :=
  fit 16384 (leBytes 4 0x544D4D43 ++ leBytes 8 g.seq ++ leBytes 4 (crc32c (headerBytes g body.length ++ body)))

/-- The kind of a journal entry (R431). -/
def JEntry.kind : JEntry → Nat
  | .map _ _ => 1
  | .trim _ _ _ => 2
  | .reloc _ _ _ _ _ => 3
  | .block _ _ _ => 4
  | .super _ _ _ _ => 5
  | .group _ _ _ => 0x10
  | .ckptBegin _ => 0x20
  | .ckptCommit _ _ => 0x21

/-- The bytes of an entry from byte 2 on (R431); of a GROUP those of its head, ahead of transitions and edge edits. -/
def JEntry.tail : JEntry → List Byte
  | .map lpn ppn => zeros 2 ++ leBytes 4 lpn ++ leBytes 4 ppn ++ zeros 4
  | .trim first count wseq =>
    leBytes 2 (wseq / 2 ^ 32) ++ leBytes 4 first ++ leBytes 4 count ++ leBytes 4 wseq
  | .reloc lpn new old _ _ => zeros 2 ++ leBytes 4 lpn ++ leBytes 4 new ++ leBytes 4 old
  | .block b st erases => leBytes 1 st.code ++ zeros 1 ++ leBytes 4 b ++ leBytes 4 erases ++ zeros 4
  | .super sb set stream members =>
    zeros 2 ++ leBytes 4 sb ++ leBytes 2 set ++ leBytes 1 stream ++ zeros 1
      ++ fit ((12 + 4 * members.length + 15) / 16 * 16 - 12) (members.flatMap (leBytes 4))
  | .group handle csn _ => leBytes 2 handle ++ zeros 4 ++ leBytes 8 csn
  | .ckptBegin n => zeros 6 ++ leBytes 8 n
  | .ckptCommit n root => zeros 2 ++ leBytes 4 root ++ leBytes 8 n

/-- The bytes of an entry (R431): KIND, its length in 16-byte units, and the rest. -/
def JEntry.bytes (e : JEntry) : List Byte := leBytes 1 e.kind ++ leBytes 1 ((e.tail.length + 2) / 16) ++ e.tail

/-- The last-gasp record ahead of CHECK (R441). -/
def gaspHead (g : Gasp) : List Byte :=
  fit 65532 (leBytes 4 0x50534147 ++ leBytes 8 g.wseq ++ leBytes 8 g.seq ++ leBytes 8 g.time ++ leBytes 4 g.programs.length
    ++ zeros 32 ++ g.programs.flatMap fun e => leBytes 4 e.1 ++ leBytes 4 e.2.1 ++ leBytes 8 e.2.2)

/-- The 64 KiB of the last-gasp record (R441): CHECK covers the record with its own bytes taken as zero. -/
def gaspBytes (g : Gasp) : List Byte := gaspHead g ++ leBytes 4 (crc32c (gaspHead g ++ zeros 4))

end Sys2Proof.Machine
end

