-- ==== Sys2Proof/Machine/NorBytes.lean ====
section
/-!
DEFINITION. The serial NOR device: its areas, where the records of an area lie, and their bytes (R501, R502, R511, R514, R528).
-/
namespace Sys2Proof.Machine

/-- The areas of the NOR device (R501). -/
inductive NorArea where
  | identity (copy : Nat)
  | bootRecords
  | attestation
  | ownerRecords
  | media
  | repairLog
  | slot (n : Nat)
deriving DecidableEq, Repr

/-- Offset and size of an area (R501). -/
def NorArea.range : NorArea → Nat × Nat
  | .identity copy => (0x10000 * copy, 0x10000)
  | .bootRecords => (0x20000, 0x10000)
  | .attestation => (0x30000, 0x10000)
  | .ownerRecords => (0x40000, 0x10000)
  | .media => (0x50000, 0x10000)
  | .repairLog => (0x60000, 0x10000)
  | .slot n => (0x100000 + 0x1800000 * n, 0x1800000)

/-- Bytes of a record of an area that records are appended to (R502). -/
def NorArea.recBytes : NorArea → Option Nat
  | .bootRecords | .attestation => some 64
  | .ownerRecords => some 128
  | .identity _ | .media | .repairLog | .slot _ => none

/-- Subsector and place within it of the record with a SEQ, the first being 1: in order through the 16 subsectors, wrapping (R502). -/
def recPlace (bytes seq : Nat) : Nat × Nat :=
  let per := 4096 / bytes
  let i := (seq - 1) % (16 * per)
  (i / per, i % per)

/-- The subsector that is erased before the append that follows a record's own subsector reaches it (R502): never the one that holds
the record in force. -/
def nextErase (bytes seq : Nat) : Nat := ((recPlace bytes seq).1 + 1) % 16

/-- The bytes of a boot record (R514). -/
def bootRecBytes (r : BootRec) : List Byte :=
  fit 60 (leBytes 4 0x54425451 ++ zeros 4 ++ leBytes 8 r.seq ++ leBytes 1 r.active ++ leBytes 1 r.trial ++ leBytes 1 r.tries
    ++ leBytes 1 r.last) ++ leBytes 4 commitFlag

/-- The bytes of an attestation state record (R528). -/
def stateRecBytes (seq next : Nat) : List Byte :=
  fit 60 (leBytes 4 0x54534151 ++ zeros 4 ++ leBytes 8 seq ++ leBytes 8 next) ++ leBytes 4 commitFlag

/-- The commit record of a slot (R511). -/
def slotCommitBytes (x : FwSlot) : List Byte :=
  fit 4092 (leBytes 4 0x4D435451 ++ Sha.sha256 (readBytes x.bytes 0 512)) ++ leBytes 4 (if x.commit then commitFlag else 0)

end Sys2Proof.Machine
end

