-- ==== Sys2Proof/Machine/PcieConfig.lean ====
section
/-!
DEFINITION. What a host finds and sets in the configuration space of a port's functions (R32, R522, R546). No row of the table is a
configuration access; these definitions say what one would do.
-/
namespace Sys2Proof.Machine

/-- The identity a function presents (R546). -/
structure PciIdentity where
  vendor : Nat
  device : Nat
  classCode : Nat
  subsystem : Nat
  revision : Nat
deriving DecidableEq, Repr

/-- The device ID of a function: the recovery function's in place of the PF's in recovery mode (R522, R546). -/
def pciDevice (f : Fn) (s : State) : Nat := if f.vf ≠ 0 then 0x0A71 else if recoveryFn s then 0x0A7F else 0x0A70

/-- The identity of a function (R546): the subsystem ID equals the device ID, and the revision is the stepping. -/
def pciIdentity (f : Fn) (s : State) : PciIdentity where
  vendor := 0x1E7D
  device := pciDevice f s
  classCode := 0x120000
  subsystem := pciDevice f s
  revision := stepping s

/-- The control fields that R32 gives a meaning; every other feature's bits read as zero and have no effect. -/
inductive CfgField where
  | maxPayload
  | maxRead
  | relaxedOrdering
  | ecrcGenerate
  | ecrcCheck
  | vfEnable
  | notSupported
deriving DecidableEq, Repr

/-- What a configuration read of a field returns (R32); sizes by their PCI Express code, 128 bytes being 0. -/
def configRead (f : Fn) (r : CfgField) (s : State) : Nat :=
  let c := getPcie f s
  match r with
  | .maxPayload => (c.maxPayload / 128).log2
  | .maxRead => (c.maxRead / 128).log2
  | .relaxedOrdering => b2n c.relaxed
  | .ecrcGenerate => b2n c.ecrcGen
  | .ecrcCheck => b2n c.ecrcCheck
  | .vfEnable => b2n (f.vf == 0 && s.host.vfEnable.contains f.port)
  | .notSupported => 0

/-- A function's configuration changed by `f`. -/
def onPcie (fn : Fn) (f : PcieCfg → PcieCfg) (s : State) : State :=
  onHost (fun h => { h with pcie := smod pcieReset h.pcie (fnKey fn) f }) s

/-- What a configuration write of a field does (R32): a size beyond those supported leaves the field as it is. -/
def configWrite (f : Fn) (r : CfgField) (v : Nat) (s : State) : State :=
  match r with
  | .maxPayload => if v ≤ 2 then onPcie f (fun c => { c with maxPayload := 128 * 2 ^ v }) s else s
  | .maxRead => if v ≤ 5 then onPcie f (fun c => { c with maxRead := 128 * 2 ^ v }) s else s
  | .relaxedOrdering => onPcie f (fun c => { c with relaxed := bit v 0 }) s
  | .ecrcGenerate => onPcie f (fun c => { c with ecrcGen := bit v 0 }) s
  | .ecrcCheck => onPcie f (fun c => { c with ecrcCheck := bit v 0 }) s
  | .vfEnable =>
    if f.vf = 0 then onHost (fun h => { h with
      vfEnable := h.vfEnable.filter (· != f.port) ++ if bit v 0 then [f.port] else [] }) s
    else s
  | .notSupported => s

end Sys2Proof.Machine
end

