-- ==== Sys2Proof/Machine/Reads.lean ====
section
/-!
DEFINITION. What reads of BAR0 and BAR2 return, and the little they change (R6, R7, R9, R33–R37, R45, R465, R487, R510, R535). No row
of the table is a register read but COUNTER_READ; these definitions say what one would do. A Reserved or WO field reads as zero, an RWS
field as its staged value with PENDING set. DESIGN CHOICE (log 13): a field that its rule gives a meaning only `when` something holds
reads as its reset value otherwise; BOOT_TRIAL.LEFT_S is rounded down.
-/
namespace Sys2Proof.Machine

/-- Fields put together, each as its lowest bit and its value. -/
def packBits (l : List (Nat × Nat)) : Nat := (l.map fun e => 2 ^ e.1 * e.2).foldl (· + ·) 0

/-! 32-bit registers, block by block. -/

/-- PTN_QSTAT.STATE (R41). -/
def QState.code : QState → Nat
  | .disabled => 0
  | .running => 1
  | .draining => 2
  | .halted => 3

/-- A 32-bit register of a queue (R39–R41). -/
def readQueueReg (q : QRef) (k : Nat) (s : State) : Nat :=
  let x := getQueue q s
  if k = 0x10 then
    packBits [(31, b2n x.enable), (26, x.sqLog2), (21, x.cqLog2), (16, x.vec), (10, x.intCount), (0, x.intTime)]
  else if k = 0x14 then
    packBits [(30, x.state.code), (29, b2n x.dbErr), (28, b2n x.cfgErr), (27, b2n x.dmaErr), (0, inflight q s)]
  else if k = 0x18 then packBits [(16, x.cqTail), (0, x.sqHead)]
  else 0

/-- PTN_STAT.STATE (R322). -/
def PState.code : PState → Nat
  | .free => 0
  | .idle => 1
  | .running => 2
  | .quiescing => 3
  | .quiesced => 4

/-- PTN_STAT (R343). -/
def readPtnStat (p : Nat) (s : State) : Nat :=
  let x := getPtn p s
  let ready := packBits ((List.range 16).map fun n => (n, b2n ((tget? x.ctxs n).isSome && ctxRunnable p n s)))
  packBits [(29, x.state.code), (28, x.port.num), (27, b2n !x.staged.isEmpty), (26, b2n x.substWait),
    (22, if x.state = .running then x.gang else 0), (0, ready)]

/-- Whether a value of a context's PTN_CTX is staged (R9, R346). -/
def ctxPending (x : Ptn) (n : Nat) : Bool :=
  x.staged.any fun g => match g with
    | .ctxGang m _ => m == n
    | .ctxSlice m _ => m == n
    | _ => false

/-- PTN_CTX.STATE (R331). -/
def ctxCode (p n : Nat) (s : State) : Nat :=
  let x := getPtn p s
  match tget? x.ctxs n with
  | none => 0
  | some c =>
    if c.parked then 4
    else if !ctxRunnable p n s then 1
    else if x.state = .running ∧ x.gang = c.gang then 3 else 2

/-- A 32-bit register of a PTN_ page (R37, R343–R346): a FREE partition's page reads zero. -/
def readPtnReg (p k : Nat) (s : State) : Nat :=
  let x := getPtn p s
  if (servedBy p s).isNone then 0
  else if k = 0 then readPtnStat p s
  else if k = 4 then packBits [(1, b2n x.autoSubst), (0, b2n x.quiesce)]
  else if k = 8 then
    packBits [(24, countUnits 128 x.units.tiles), (17, countUnits 64 x.units.walkers), (8, countUnits 256 x.units.stalls)]
  else if 0x40 ≤ k ∧ k < 0x80 then
    let n := (k - 0x40) / 4
    packBits [(29, ctxCode p n s), (28, b2n (ctxPending x n)), (24, ctxGangField x n), (0, ctxSliceField x n)]
  else match queueOffset k with
    | some (q, j) => readQueueReg { scope := .part p, q := q } j s
    | none => 0

/-- A register of a policer (R407). -/
def readPolicerReg (n k : Nat) (s : State) : Nat :=
  let p := getPolicer n s
  let c := polStaged p
  match k with
  | 0x00 =>
    packBits [(31, b2n c.enable), (30, b2n c.twoRate), (29, b2n c.aware), (28, b2n c.yellowThrottle), (27, b2n c.redThrottle), (0, c.cir)]
  | 0x04 => c.pir
  | 0x08 => c.cbs
  | 0x0C => c.ebs
  | 0x10 => packBits [(29, b2n p.staged.isSome), (28, b2n p.cfgErr)]
  | 0x14 => p.tc
  | 0x18 => p.te
  | _ => 0

/-- A register of a shaper (R409); the credit is in two's complement. -/
def readShaperReg (n k : Nat) (s : State) : Nat :=
  let p := getShaper n s
  let c := shapeStaged p
  match k with
  | 0x0 => packBits [(31, b2n c.enable), (20, c.quantum), (0, c.slope)]
  | 0x4 => c.burst
  | 0x8 => packBits [(29, b2n p.staged.isSome), (28, b2n p.cfgErr)]
  | 0xC => (p.credit % 2 ^ 32).toNat
  | _ => 0

/-- A 32-bit register of the TM_ block (R406, R407, R409). -/
def readTmReg (off : Nat) (s : State) : Nat :=
  let t := s.tm
  if off = 0x200008 then packBits [(8, t.transitReqQ), (0, t.transitBulkQ)]
  else if off = 0x200018 then
    packBits [(31, b2n t.ringEnable), (30, t.ringPort.num), (25, t.ringLog2), (21, t.kinds), (0, t.intervalUs)]
  else if off = 0x200020 then packBits [(31, b2n t.ringDmaErr)]
  else match RegArray.find ⟨0x201000, 0x20, 192, 0x1C⟩ off, RegArray.find ⟨0x205000, 0x10, 192, 0x10⟩ off with
    | some (n, k), _ => readPolicerReg n k s
    | none, some (n, k) => readShaperReg n k s
    | none, none => 0

/-- XQ_LSTAT.STATE (R351). -/
def LaneState.code : LaneState → Nat
  | .disabled => 0
  | .training => 1
  | .up => 2
  | .down => 3

/-- A 32-bit register of the XQ_ block (R384–R387). -/
def readXqReg (off : Nat) (s : State) : Nat :=
  if off = 0x300000 then s.nodeId
  else if off = 0x300004 then packBits [(16, s.fab.timeoutDefault), (0, s.fab.drainDefault)]
  else match RegArray.find ⟨0x300100, 4, 36, 4⟩ off, RegArray.find ⟨0x300200, 4, 36, 4⟩ off with
    | some (n, _), _ =>
      let l := getLane n s
      packBits [(31, b2n l.enable), (29, l.test), (28, b2n l.txInv), (27, b2n l.rxInv)]
    | none, some (n, _) =>
      let l := getLane n s
      packBits [(30, l.state.code), (29, b2n l.prbsErr), (0, l.peer)]
    | none, none => 0

/-- MED_LSTAT.STATE (R450): a LUN that the profile does not give is ABSENT. -/
def lunCode (u : Nat) (s : State) : Nat :=
  if lunCount s ≤ u then 0
  else match (getLun u s).state with
    | .ready => 1
    | .failed => 2
    | .rebuilt => 3

/-- MED_LSTAT (R450). -/
def readLstat (u : Nat) (s : State) : Nat :=
  let l := getLun u s
  let retired := (s.med.blocks.filter fun e => e.2.state == .retired && blockLun e.1 s == u).length
  packBits [(30, lunCode u s), (24, min 32 l.reads.length), (23, b2n (l.ops.any (·.suspended))), (0, min 0xFFFF retired)]

/-- A 32-bit register of the MED_ block (R448–R450). -/
def readMedReg (off : Nat) (s : State) : Nat :=
  let m := s.med
  if off = 0x400000 then packBits [(24, m.gcLow), (16, m.gcHigh), (12, m.suspLimit), (0, m.ckptS)]
  else if off = 0x400004 then
    packBits [(29, medCode s), (28, b2n m.unclean), (27, b2n (m.luns.any fun e => e.2.state == .failed)), (26, b2n m.wlActive),
      (25, b2n m.running.isSome), (0, m.wlRate)]
  else match RegArray.find ⟨0x401000, 4, 768, 4⟩ off with
    | some (u, _) => readLstat u s
    | none => 0

/-- STK_SSTAT of a stall (R235). -/
def readSstat (n : Nat) (s : State) : Nat :=
  let x := getStall n s
  let o := unitOwner .stall n s
  packBits [(31, b2n x.gated), (30, b2n o.isSome), (24, o.getD 0), (18, min 32 x.jobs.length), (17, b2n x.run.isSome),
    (16, b2n x.paused), (15, b2n (outOfService .stall n s))]

/-- A 32-bit register of a STK_ page (R232–R235). -/
def readStkReg (t k : Nat) (s : State) : Nat :=
  let x := getStack t s
  if k = 0 then x.budget
  else if k = 4 then packBits [(20, x.act4), (8, x.act2), (0, x.multMin)]
  else if k = 8 then
    packBits [(24, x.temp), (22, x.mult), (20, x.tempClass), (18, x.actClass), (14, x.debtMax), (0, sget sparesReset s.err.spares (12 + t))]
  else match RegArray.find ⟨0x100, 4, 32, 4⟩ k with
    | some (i, _) => readSstat (32 * t + i) s
    | none => 0

/-- TIL_TSTAT of a tile (R294). -/
def readTstat (n : Nat) (s : State) : Nat :=
  let o := unitOwner .tile n s
  let b := tget? s.til.busy n
  let ctx := ((b.bind fun e => getModelRun e.1 s).map (·.ctx)).getD 0
  let pc := ((b.bind fun e => getStep e.1 e.2 s).bind fun st => (tget? st.work n).map (·.pc)).getD 0
  packBits [(31, b2n !unitAwake .tile n s), (30, b2n o.isSome), (24, o.getD 0), (23, b2n b.isSome), (19, ctx), (7, pc),
    (6, b2n (outOfService .tile n s))]

/-- A byte count in MiB, rounded up. -/
def mibUp (n : Nat) : Nat := (n + 2 ^ 20 - 1) / 2 ^ 20

/-- SHF_PUSE of a partition (R295). -/
def readPuse (p : Nat) (s : State) : Nat :=
  packBits [(18, (getPtn p s).shares.shelfMib), (9, mibUp (shelfUsed p s)), (0, mibUp (shelfPinned p s))]

/-- A 32-bit register of the TIL_ and SHF_ blocks (R262, R294, R295). -/
def readTilReg (off : Nat) (s : State) : Nat :=
  if off = 0x60D000 then b2n s.til.freeze
  else match RegArray.find ⟨0x600100, 4, 128, 4⟩ off, RegArray.find ⟨0x880100, 4, 64, 4⟩ off with
    | some (n, _), _ => readTstat n s
    | none, some (p, _) => readPuse p s
    | none, none => 0

/-- WLK_WSTAT of a walker (R135): queries it holds, PARKED ones included, and its free share in KiB. -/
def readWstat (n : Nat) (s : State) : Nat :=
  let o := unitOwner .walker n s
  packBits [(31, b2n !unitAwake .walker n s), (30, b2n o.isSome), (24, o.getD 0), (14, (walkerQueries n s).length), (0, walkerFree n s / 1024)]

/-- A 32-bit register of the WLK_ block (R134, R188, R189). -/
def readWlkReg (off : Nat) (s : State) : Nat :=
  if off = 0x700000 then packBits [(16, b2n s.srch.batchEn), (8, s.srch.widthDefault), (0, s.srch.windowDefault)]
  else if off = 0x700008 then packBits [(24, s.grp.ringWaitMs), (16, s.grp.repairTrigger), (0, s.grp.repairRate)]
  else if off = 0x70000C then packBits [(30, b2n (s.grp.passes.contains s.grp.repairHandle)), (0, s.grp.repairHandle)]
  else match RegArray.find ⟨0x701000, 4, 64, 4⟩ off with
    | some (n, _) => readWstat n s
    | none => 0

/-- The partition of what a selector works on. -/
def SelWork.part : SelWork → Nat
  | .row r _ => r.part
  | .search _ p => p

/-- A 32-bit register of the SEL_ block (R158, R159). -/
def readSelReg (off : Nat) (s : State) : Nat :=
  if off = 0x780000 then b2n s.sel.share
  else match RegArray.find ⟨0x780100, 4, 16, 4⟩ off with
    | some (n, _) =>
      let w := tget? s.sel.busy n
      packBits [(31, b2n !unitAwake .selector n s), (30, b2n w.isSome), (29, b2n (n % 4 == 0 || s.sel.share)),
        (28, b2n (outOfService .selector n s)), (22, (w.map (·.part)).getD 0)]
    | none => 0

/-- MBX_CSTAT (R467): ARMED and LOST are those of the port a heartbeat crier watches. -/
def readCstat (n : Nat) (s : State) : Nat :=
  let c := getCrier n s
  let h := heartbeatPort n
  packBits [(31, b2n c.full), (30, b2n (h.any s.host.hbArmed.contains)), (29, b2n (h.any s.host.hbLost.contains)), (28, b2n c.emptied),
    (27, b2n c.timedOut), (26, b2n c.rejected)]

/-- A 32-bit register of the MBX_ block (R466, R467, R469). -/
def readMbxReg (off : Nat) (s : State) : Nat :=
  if off = 0x901000 then hpend .a s
  else if off = 0x901004 then hpend .b s
  else match RegArray.find ⟨0x900000, 0x20, 128, 0x14⟩ off with
    | some (n, 0x00) => ccfgValue n s
    | some (n, 0x08) => (getCrier n s).notice
    | some (n, 0x0C) => readCstat n s
    | _ => 0

/-- PWR_QSTAT of a quadrant (R472). -/
def readQuadrant (q : Nat) (s : State) : Nat :=
  let on := fun (k : UnitKind) (n : Nat) => ((List.range n).filter fun i => unitAwake k (n * q + i) s).length
  packBits [(31, b2n (pllRuns (.arithmetic q) s)), (30, b2n (unitAwake .quadrantNet q s)), (24, on .tile 32), (19, on .walker 16),
    (16, on .selector 4), (14, on .fwCore 2)]

/-- A 32-bit register of the PWR_ block (R470–R472, R550–R552). -/
def readPwrReg (off : Nat) (s : State) : Nat :=
  let p := s.board.pwr
  let i := s.board.island
  if off = 0xA00000 then packBits [(16, b2n p.noGate), (0, (p.delays.head?.map (·.2)).getD 50)]
  else if off = 0xA00004 then
    packBits [(22, p.inputW), (21, b2n p.throttle), (20, b2n p.excursion), (0, holdupPct s)]
  else if off = 0xA00020 then packBits [(24, p.hubTemp), (16, p.stackTemp), (8, p.lidTemp), (7, b2n p.tThrottle)]
  else if off = 0xA00024 then packBits [(16, i.inputMv), (8, i.bankV), (7, b2n i.inputFault), (6, b2n s.med.held)]
  else if off = 0xA00028 then packBits [(16, min 0xFFFF (bankNj s / 1000000)), (8, min 255 (i.bankNf / 12000))]
  else match RegArray.find ⟨0xA00010, 4, 4, 4⟩ off with
    | some (q, _) => readQuadrant q s
    | none => 0

/-- A record as its 64 bytes (R479). -/
def recordBytes (r : Rec) : List Byte :=
  leBytes 8 r.seq ++ leBytes 1 r.sev ++ leBytes 1 r.cls ++ leBytes 1 r.locKind
    ++ leBytes 1 (packBits [(0, b2n r.handled), (1, b2n r.escalated), (2, b2n r.nested), (3, b2n r.cmd), (4, b2n r.refusedRepair)])
    ++ leBytes 2 r.count ++ leBytes 1 r.part ++ leBytes 1 r.queue ++ leBytes 8 r.timeFirst ++ leBytes 8 r.timeLast ++ leBytes 4 r.rid
    ++ leBytes 2 r.unit ++ leBytes 1 r.unitKind ++ zeros 1 ++ fit 16 r.loc ++ leBytes 8 r.nestedSeq

/-- Slot i of an error queue: the record held there, or zeros (R482, R499). -/
def slotBytes (sev i : Nat) (s : State) : List Byte :=
  let q := getErrQueue sev s
  match q.recs[(i + 32 - q.head) % 32]? with
  | some r => recordBytes r
  | none => zeros 64

/-- An entry of the repair table as its 16 bytes (R493). -/
def repairBytes (r : Repair) : List Byte :=
  leBytes 1 r.kind ++ leBytes 1 r.origin ++ leBytes 1 r.state ++ leBytes 1 r.place ++ leBytes 2 r.logical ++ zeros 2
    ++ leBytes 4 r.row ++ leBytes 4 r.cause

/-- The repair table: factory, boot, field, then EMPTY (R493). -/
def repairTable (n : Nat) (s : State) : List Byte :=
  match (s.err.factory ++ s.err.bootRepairs ++ s.err.field)[n]? with
  | some r => repairBytes r
  | none => zeros 16

/-- ERR_QSTAT of a severity (R498). -/
def readErrQstat (sev : Nat) (s : State) : Nat :=
  let q := getErrQueue sev s
  packBits [(31, b2n q.lost), (18, (q.recs.filter fun r => !r.handled).length), (12, q.recs.length),
    (5, (q.head + q.recs.length) % 32), (0, q.head)]

/-- A 32-bit register of the ERR_ block (R496–R499). -/
def readErrReg (off : Nat) (s : State) : Nat :=
  let e := s.err
  if off = 0xB00000 then
    packBits [(30, e.intMin), (29, e.owner), (16, e.ceLimit), (8, e.scrubH), (0, e.mergeMs)]
  else if off = 0xB00004 then packBits [(31, b2n e.halted)]
  else match RegArray.find ⟨0xB00010, 4, 4, 4⟩ off, RegArray.find ⟨0xB01000, 0x40, 128, 0x40⟩ off,
      RegArray.find ⟨0xB10000, 0x10, 1056, 0x10⟩ off with
    | some (sev, _), _, _ => readErrQstat sev s
    | none, some (i, k), _ => field (slotBytes (i / 32) (i % 32) s) k 4
    | none, none, some (n, k) => field (repairTable n s) k 4
    | none, none, none => 0

/-- BOOT_STAT.STAGE (R531). -/
def Stage.code : Stage → Nat
  | .rom => 0
  | .fwInit => 1
  | .ready => 2
  | .recovery => 3
  | .noIdentity => 4

/-- A 32-bit register of the BOOT_ block (R531–R535): BOOT_RCV_STAT is there in recovery mode only. -/
def readBootReg (off : Nat) (s : State) : Nat :=
  let b := s.board.boot
  let x := getFwSlot b.slot s
  if off = 0xC00000 then
    packBits [(29, b.stage.code), (28, b.slot), (27, b2n b.trial), (25, b.record.tries), (24, b2n b.fallback), (20, b.cause.code),
      (19, b2n b.owner.locked), (13, b.minSvn), (7, slotSvn x)]
  else if off = 0xC00004 then manifest x 8 4
  else if off = 0xC00008 then (b.trialEnd.map fun t => (t - timeUs s) / 1000000).getD 0
  else if off = bootCtrlOff then packBits [(30, b2n b.smbResetEn), (29, b2n b.smbRecoveryEn)]
  else if off = 0xC00010 then (b.attNext.map fun n => 2 ^ 20 - n).getD 0
  else if off = 0xC00104 ∧ recoveryFn s = true then packBits [(30, b.rcv.state), (24, b.rcv.error)]
  else 0

/-- The value of a 32-bit register that answers; unused space reads zero (R35). -/
def value32 (off : Nat) (s : State) : Nat :=
  if windowBase ≤ off then readLe s.board.boot.window (off - windowBase) 4
  else if off < 0x4000 then
    if off = 0 then partId s
    else if off = 4 then inventoryValue s
    else match queueAt off with
      | some (q, k) => readQueueReg q k s
      | none => 0
  else match ptnOffset off with
    | some (p, k) => readPtnReg p k s
    | none =>
      if off < 0x200000 then 0
      else if off < 0x300000 then readTmReg off s
      else if off < 0x400000 then readXqReg off s
      else if off < 0x500000 then readMedReg off s
      else if off < 0x580000 then readStkReg ((off - 0x500000) / 0x10000) (off % 0x10000) s
      else if off < 0x700000 then readTilReg off s
      else if off < 0x780000 then readWlkReg off s
      else if off < 0x800000 then readSelReg off s
      else if off < 0x900000 then readTilReg off s
      else if off < 0xA00000 then readMbxReg off s
      else if off < 0xB00000 then readPwrReg off s
      else if off < 0xC00000 then readErrReg off s
      else if off < 0xD00000 then readBootReg off s
      else 0

/-! 64-bit registers. -/

/-- A counter at a place of a list of them, eight bytes each. -/
def counterAt (k : Nat) (l : List Nat) : Nat := l.getD (k / 8) 0

/-- A counter of a PTN_ page (R347). -/
def readPtnCounter (p k : Nat) (s : State) : Nat :=
  let c := (getPtn p s).counts
  if (servedBy p s).isNone then 0
  else counterAt k [c.switches, c.switchNsMax, c.tileLate, c.quiesces, c.substs, c.cfgBusy]

/-- A 64-bit register of a queue: the ring bases (R39). -/
def readQueueBase (q : QRef) (k : Nat) (s : State) : Nat := if k = 0 then (getQueue q s).sqb else (getQueue q s).cqb

/-- A 64-bit register of the TM_ block (R406, R408, R410). -/
def readTm64 (off : Nat) (s : State) : Nat :=
  let t := s.tm
  match RegArray.find ⟨0x204000, 8, 64, 8⟩ off, RegArray.find ⟨0x208000, 0x20, 192, 0x20⟩ off with
  | some (p, _), _ =>
    let c := sget qColourReset t.colours p
    packBits [(34, c.bulk), (32, c.req), (0, c.qp)]
  | none, some (n, k) =>
    let c := getPolicer n s
    counterAt k [c.green, c.yellow, c.red, c.throttled]
  | none, none =>
    if off = 0x200010 then t.ringBase
    else if off = 0x200028 then packBits [(32, t.ringTail), (0, t.ringHead)]
    else if off = 0x200030 then t.sampleEn
    else if off = 0x200040 then t.samplesLost
    else if off = 0x200048 then t.cfgBusy
    else 0

/-- A 64-bit register of the XQ_ block (R388–R391). -/
def readXq64 (off : Nat) (s : State) : Nat :=
  match RegArray.find ⟨0x302000, 0x40, 36, 0x30⟩ off, RegArray.find ⟨0x304000, 0x40, 64, 0x30⟩ off,
      RegArray.find ⟨0x380000, 8, 65536, 8⟩ off with
  | some (n, k), _, _ =>
    let l := getLane n s
    counterAt k [l.cells, l.replays, l.fecCorr, l.fecUncorr, l.downs, l.trainFail]
  | none, some (p, k), _ =>
    let c := sget xqCountsReset s.fab.xq p
    counterAt k [c.reqs, c.resent, c.timeouts, c.lateRsp, c.redirects, c.throttled]
  | none, none, some (e, _) => sget (fun _ => 0) s.fab.routes e
  | none, none, none =>
    let c := s.fab.counts
    counterAt (off - 0x303000) [c.transitDrop, c.badMsg, c.orphans, c.cfgBusy]

/-- A counter of the MED_ block (R451). -/
def readMed64 (off : Nat) (s : State) : Nat :=
  match RegArray.find ⟨0x408000, 0x40, 64, 0x20⟩ off with
  | some (p, k) =>
    let c := sget medPartReset s.med.parts p
    counterAt k [c.reads, c.readUs, c.uncorr, c.writes]
  | none =>
    let c := s.med.counts
    counterAt (off - 0x404000)
      [c.programs, c.erases, c.suspends, c.retries, c.rebuilt, c.gcPages, c.wlPages, c.segments, c.journalWait]

/-- A counter of a stack (R236). -/
def readStkCounter (t k : Nat) (s : State) : Nat :=
  let x := getStack t s
  counterAt k [x.acts, x.rowOps, x.segments, x.refreshes, x.refPauses, x.budgetWaits, x.wsWaits, x.hubWaitMax]

/-- A counter of the TIL_ and SHF_ blocks (R263, R296). -/
def readTil64 (off : Nat) (s : State) : Nat :=
  match RegArray.find ⟨0x60E000, 0x40, 64, 0x40⟩ off, RegArray.find ⟨0x881000, 0x40, 64, 0x30⟩ off with
  | some (p, k), _ =>
    let c := sget tilCountsReset s.til.counts p
    counterAt k [c.steps, c.misfit, c.adapted, c.scaleSat, c.reruns, c.clipped, c.nonfinite, c.accSat]
  | none, some (p, k) =>
    let c := sget shfCountsReset s.til.shfCounts p
    counterAt k [c.hits, c.misses, c.fillBytes, c.evictions, c.streamed, c.restarts]
  | none, none => 0

/-- A counter of the WLK_ block (R136, R190). -/
def readWlk64 (off : Nat) (s : State) : Nat :=
  match RegArray.find ⟨0x704000, 0x80, 64, 0x60⟩ off, RegArray.find ⟨0x708000, 0x40, 64, 0x30⟩ off with
  | some (p, k), _ =>
    let c := sget wlkCountsReset s.srch.counts p
    counterAt k [c.queries, c.expansions, c.codes, c.crateHits, c.crateReads, c.crateJoins, c.rerankReads, c.visitSpills, c.visitLost,
      c.admitUs, c.partials, c.uncorr]
  | none, some (p, k) =>
    let c := sget wlkCountsReset s.srch.counts p
    counterAt k [c.commits, c.groups, c.ringThrottle, c.reclaimed, c.edgesRepaired, c.writebacks]
  | none, none => 0

/-- A counter of the SEL_ block (R160). -/
def readSel64 (p k : Nat) (s : State) : Nat :=
  let c := sget selCountsReset s.sel.counts p
  counterAt k [c.rows, c.keys, c.partials, c.overflow, c.dups, c.waitUs]

/-- A 64-bit register of the EMB_ block (R319, R320). -/
def readEmb64 (off : Nat) (s : State) : Nat :=
  match RegArray.find ⟨0x801000, 0x40, 64, 0x40⟩ off with
  | some (p, k) =>
    let c := sget embCountsReset s.emb.counts p
    counterAt k [c.pooled, c.copyHits, c.fetched, c.ledgerAdds, c.updated, c.sentBytes, c.closes, c.closeFails]
  | none => packBits [(32, dirHolders s), (0, dirCopies s)]

/-- A counter of the PWR_ block (R464, R473). -/
def readPwr64 (off : Nat) (s : State) : Nat :=
  let p := s.board.pwr
  if off = 0xA00100 then counterValue false s
  else if off = 0xA00108 then counterValue true s
  else counterAt (off - 0xA01000) [p.wakes, p.wakeNsMax, p.throttles, p.excursions]

/-- A 64-bit register of the ERR_ block (R497, R500). -/
def readErr64 (off : Nat) (s : State) : Nat :=
  let e := s.err
  if off = 0xB00008 then e.nextSeq
  else match RegArray.find ⟨0xB08000, 0x20, 8, 0x20⟩ off with
    | some (t, k) =>
      let c := sget dramCountsReset e.dram t
      counterAt k [c.ce, c.ue, c.fixed, c.passes]
    | none =>
      counterAt (off - 0xB09000) [e.sramCe, e.sramUe, e.nocRetry, e.nocUe, e.merged, e.lost, e.escalated, e.watchdog]

/-- The value of the 64-bit register that starts at an offset (R36). -/
def value64 (off : Nat) (s : State) : Nat :=
  match queueAt off, ptnOffset off with
  | some (q, k), _ =>
    match q.scope with
    | .part p => if (servedBy p s).isNone then 0 else readQueueBase q k s
    | .pf _ => readQueueBase q k s
  | none, some (p, k) => readPtnCounter p (k - 0x80) s
  | none, none =>
    if off < 0x300000 then readTm64 off s
    else if off < 0x400000 then readXq64 off s
    else if off < 0x500000 then readMed64 off s
    else if off < 0x580000 then readStkCounter ((off - 0x500000) / 0x10000) (off % 0x10000 - 0x1000) s
    else if off < 0x700000 then readTil64 off s
    else if off < 0x780000 then readWlk64 off s
    else if off < 0x800000 then
      match RegArray.find ⟨0x781000, 0x40, 64, 0x30⟩ off with
      | some (p, k) => readSel64 p k s
      | none => 0
    else if off < 0x880000 then readEmb64 off s
    else if off < 0x900000 then readTil64 off s
    else if off < 0xA00000 then
      let m := s.board.mbx
      counterAt (off - 0x902000) [m.posts, m.timeouts, m.rejects, m.cfgBusy]
    else if off < 0xB00000 then readPwr64 off s
    else readErr64 off s

/-! Accesses. -/

/-- A 32-bit read by a function at a PF BAR0 offset (R36): what answers not reads zero, a 64-bit register gives its half, and a local
counter is latched (R465). -/
def read32 (f : Fn) (off : Nat) (s : State) : Nat × State :=
  let base := off / 8 * 8
  let high := off % 8 == 4
  if !blockAnswers off s then (0, s)
  else if base = 0xA00100 ∨ base = 0xA00108 then latchCounter (.fn f) (base = 0xA00108) (if high then .high else .low) s
  else if wideAt base then (if high then value64 base s / 2 ^ 32 else value64 base s % 2 ^ 32, s)
  else (value32 off s, s)

/-- A naturally aligned 64-bit read (R36): a 64-bit register whole, any other offset as two 32-bit reads. -/
def read64 (f : Fn) (off : Nat) (s : State) : Nat × State :=
  if wideAt off then (if blockAnswers off s then value64 off s else 0, s)
  else
    let lo := read32 f off s
    let hi := read32 f (off + 4) lo.2
    (lo.1 + 2 ^ 32 * hi.1, hi.2)

/-- A read of BAR0 (R33–R37): one of another size or alignment returns zero and queues a BAD_ACCESS record. -/
def readBar0 (f : Fn) (off size : Nat) (s : State) : Nat × State :=
  match busOffset f off s with
  | none => (0, s)
  | some o =>
    if size = 4 ∧ off % 4 = 0 then read32 f o s
    else if size = 8 ∧ off % 8 = 0 then read64 f o s
    else (0, fileBadAccess f 0 off s)

/-- A read of a doorbell page returns zero (R45). -/
def readBar2 (f : Fn) (off size : Nat) (s : State) : Nat × State :=
  if (if f.vf = 0 then 0x80000 else 0x1000) ≤ off || (size == 4 && off % 4 == 0) || (size == 8 && off % 8 == 0) then (0, s)
  else (0, fileBadAccess f 2 off s)

/-- A read by a function of its BAR0 or BAR2: the value returned, and the state after. Those of a function that is not there or not
live return zero (R33). -/
def registerRead (f : Fn) (bar2 : Bool) (off size : Nat) (s : State) : Nat × State :=
  if !fnLive f s then (0, s) else if bar2 then readBar2 f off size s else readBar0 f off size s

end Sys2Proof.Machine
end

