-- ==== Sys2Proof/Safety.lean ====
section
/-!
DEFINITION. What a safe run is: a step that answers a next state, neither a fault nor a refusal. And the terms in which claims
say when a command of the host is to begin, and when a write reaches its register.
-/
namespace Sys2Proof.Machine

/-- Whether an outcome is a next state. -/
def goesOn {σ φ ρ : Type} : Host.Outcome σ φ ρ → Bool
  | .next _ => true
  | .fault _ => false
  | .refused _ => false

/-- Whether the next step from a state stops nowhere. -/
def stepSafe (s : State) : Bool := goesOn (step s)

/-- The byte memories that outlast a command in their canonical form: the regions (R20), the model images (R279), the two firmware
slots (R511), the identity block in use (R507) and the DATA window (R522). -/
structure MemoryCanonical (s : State) : Prop where
  regions : ∀ e ∈ s.ptn.regions, Memory.wf e.2.mem
  models : ∀ e ∈ s.til.models, Memory.wf e.2.image
  slotA : Memory.wf s.board.boot.slotA.bytes
  slotB : Memory.wf s.board.boot.slotB.bytes
  identity : Memory.wf s.board.boot.identity
  window : Memory.wf s.board.boot.window

/-- Any parameters. -/
def anyForm (_ : List Byte) : Bool := true

/-- The command `c` is fetched as `k`, of opcode `op`, and is to begin: it waits, its queue lets it start (R61, R62), its
partition is not QUIESCED (R339), its DMA has delivered the parameters `ps`, of the row's form and sound by themselves (R6, R51),
and the input `inp` (R51, R52). -/
structure Due (op : Nat) (form : List Byte → Bool) (c : CmdRef) (d : CmdIn) (k : Cmd) (ps inp : List Byte) (s : State) :
    Prop where
  found : findCmd c s = some k
  opcode : k.opcode = op
  waits : k.phase = .waiting
  turn : mayStart k s = true
  params : paramBytes k d = some ps
  form : form ps = true
  sound : paramsBad k ps = false
  input : inputBytes k d = some inp
  free : heldByQuiesce k s = false

/-- The state in which a command runs. -/
def running (c : CmdRef) (s : State) : State := onCmd c (fun k => { k with phase := .running }) s

/-- A write by a function at a PF BAR0 offset reaches its register: the function is there and live (R33), its latch is empty
(R36), the page is not closed to it (R37), and the block answers (R487, R510). -/
structure Reaches (f : Fn) (off : Nat) (s : State) : Prop where
  live : f.vf = 0 ∨ fnLive f s = true
  latch : pendingLow f s = none
  opened : closedPage f off s = none
  answers : blockAnswers off s = true

/-- The doorbell page `page`, written by a function, holds the slot of queue `q` (R33, R34, R37, R38, R45): through a PF the page of
a partition its port serves, or page 64 for its own control queue; through a live VF the page of its partition. -/
abbrev bellSlot (f : Fn) (page : Nat) (q : QRef) (s : State) : Prop :=
  (f.vf = 0 ∧ q.scope = .part page ∧ q.q ≤ 16 ∧ servedBy page s = some f.port) ∨
  (f.vf = 0 ∧ page = 64 ∧ q = { scope := .pf f.port, q := 16 }) ∨
  (1 ≤ f.vf ∧ fnLive f s = true ∧ page + 1 = f.vf ∧ q.scope = .part page ∧ q.q ≤ 16)

/-- BAR2 offset of the SQ_TAIL doorbell of queue `n` on a page: a VF's BAR2 is its page alone (R34, R45). -/
def bellOffset (f : Fn) (page n : Nat) : Nat := (if f.vf = 0 then 4096 * page else 0) + 8 * n

/-- The job `j` of stall `n` runs the program `words`, and its next word is an instruction of opcode `opc` with these fields, given as
(top bit, low bit, value); the registers it reads, `reads`, hold no load that is still to come, and the stall serves (R202–R204). -/
structure Issuing (n opc : Nat) (fields : List (Nat × Nat × Nat)) (reads : List (RegClass × Nat)) (words : List Nat) (j : Job)
    (s : State) : Prop where
  runs : runningJob (getStall n s) = some j
  work : j.work = .program words
  opcode : bits (wordAt words j.pc) 31 26 = opc
  fields : ∀ f ∈ fields, bits (wordAt words j.pc) f.1 f.2.1 = f.2.2
  alive : j.ended = none
  ready : ∀ r ∈ reads, regPending j r = false
  served : stallHeld n s = false

/-- A program job past its next word (R202). -/
def advanced (words : List Nat) (j : Job) : Job :=
  { j with lastPc := if j.pc < words.length then j.pc else j.lastPc, pc := j.pc + 1 }

/-- The state in which a job of stall `n` has become `j`. -/
def withJob (n : Nat) (j : Job) (s : State) : State := onJob n j.jid (fun _ => j) s

/-- Tile `t` works as `x` says, may issue, and the word at its PC has this opcode and these fields (R266, R268, R275). -/
structure TileIssuing (t opc : Nat) (fields : List (Nat × Nat × Nat)) (x : TileCtx) (s : State) : Prop where
  works : tileCtx t s = some x
  issues : x.issues s = true
  word : wordIs opc fields x.word = true

/-- A tile's part of its step past the word at its PC (R268). -/
def pastWord (x : TileCtx) : TileWork := { x.work with pc := x.work.pc + 1, fresh := false }

/-- A message comes to be handled for the first time and its request is to run: the state past the inbox and the duplicate check
(R363). -/
def noted (m : Msg) (s : State) : State := (fabricDup m (takeMsg m s)).1

/-- The request `m` of this kind, received whole from `src`, is one this node serves for its composition `c`: it is no duplicate
(R363), the epoch rules let it run (R368), and its slot is OWNED here (R375). -/
structure Serves (kind compKind src msg : Nat) (m : Msg) (c : Comp) (s : State) : Prop where
  arrived : inboxMsg kind src msg s = some m
  runs : (fabricDup m (takeMsg m s)).2 = true
  comp : getComp m.comp (noted m s) = some c
  kind : c.kind = compKind
  epoch : ∃ members, epochGate c m.epoch (noted m s) = .serve members
  slot : (getSlot c m.slot).state = .owned

/-- The answer `m` of this kind, received whole from `src`, is that of the request record `r` (R364). -/
structure Answers (kind src msg : Nat) (r : Req) (m : Msg) (s : State) : Prop where
  arrived : inboxMsg kind src msg s = some m
  record : (takeMsg m s).fab.reqs.find? (fun r => r.id == m.reqId && r.msg.dst == src) = some r

/-- A write by an endpoint to a crier register reaches it: through BAR0 for a host, direct for firmware and the AOC (R452). -/
def EndpointReaches (e : Endpoint) (off : Nat) (s : State) : Prop :=
  match e with
  | .host p => Reaches { port := p, vf := 0 } off s
  | e => endpointOk e = true

end Sys2Proof.Machine
end

