-- ==== Sys2Proof/WellFormed.lean ====
section
/-!
DEFINITION. Which commands are well formed: operands within the ranges the spec gives the things they name.
-/
namespace Sys2Proof

/-- A function of a port: the PF, or one of 64 VFs (R33). -/
def Fn.wf (f : Fn) : Bool := f.vf ≤ 64

/-- A queue pair that exists (R38). -/
def QRef.wf (q : QRef) : Bool :=
  match q.scope with
  | .part p => p < 64 && q.q ≤ 16
  | .pf _ => q.q == 16

/-- A scope that exists, and a 32-bit request ID (R50, R56). -/
def CmdRef.wf (c : CmdRef) : Bool :=
  c.rid < 2 ^ 32 && match c.scope with
    | .part p => p < 64
    | .pf _ => true

/-- A message names a node by 16 bits (R384). -/
def HoldRef.wf : HoldRef → Bool
  | .command c => c.wf
  | .message src _ => src < 65536

/-- A place in one of the eight stacks and its 32 pseudo-channels (R480). -/
def MemPlace.wf (m : MemPlace) : Bool := m.stack < 8 && m.pc < 32

/-- What the DMA delivered, with a place that exists. -/
def CmdIn.wf (d : CmdIn) : Bool := d.place.wf

/-- A firmware core is one of eight (R465). -/
def Reader.wf : Reader → Bool
  | .fn f => f.wf
  | .core n => n < 8
  | .aoc => true

/-- A firmware core is one of eight (R452). -/
def Endpoint.wf : Endpoint → Bool
  | .core n => n < 8
  | .aoc => true
  | .host _ => true

/-- Logical units of a kind (R16, R17). -/
def UnitKind.count : UnitKind → Nat
  | .tile => 128
  | .walker => 64
  | .tally => 64
  | .stall => 256
  | .selector => 16
  | .fwCore => 8
  | .quadrantNet => 4

/-- Whether a command is well formed. -/
def Instr.wf : Instr → Bool
  | .sqTailDoorbell f page q _ => f.wf && page < 128 && q < 512
  | .cqHeadDoorbell f page q _ => f.wf && page < 128 && q < 512
  | .commandFetch q packet => q.wf && packet.length == 64
  | .dupEntryExpiry c _ => c.wf
  | .intTimeExpiry q _ => q.wf
  | .deadlineExpiry c _ => c.wf
  | .ringDmaFailure q _ => q.wf
  | .queueEnable f q _ => f.wf && q.wf
  | .queueDisable f q _ => f.wf && q.wf
  | .queueDrained q => q.wf
  | .registerWrite f _ _ _ _ => f.wf
  | .counterRead r _ _ => r.wf
  | .functionLevelResetVf _ n => 1 ≤ n && n ≤ 64
  | .functionLevelResetPf _ => true
  | .pcieLinkUp _ => true
  | .pcieLinkDown _ => true
  | .perstAssert _ _ => true
  | .heartbeatTimeout _ _ => true
  | .abort c d => c.wf && d.wf
  | .partAdopt c d => c.wf && d.wf
  | .search c d => c.wf && d.wf
  | .searchFiltered c d => c.wf && d.wf
  | .range c d => c.wf && d.wf
  | .queryAdmission p _ => p < 64
  | .walkStep c _ _ _ place => c.wf && place.wf
  | .crateBatchIssue _ _ _ => true
  | .crateReadComplete _ _ _ => true
  | .rerankReadIssue c _ => c.wf
  | .rerankReadComplete c _ => c.wf
  | .searchSelection c _ _ => c.wf
  | .insert c d => c.wf && d.wf
  | .delete c d => c.wf && d.wf
  | .upsert c d => c.wf && d.wf
  | .groupPublish _ _ _ _ _ => true
  | .ringWaitExpiry _ _ => true
  | .crateWriteback _ _ => true
  | .swapGeneration c d => c.wf && d.wf
  | .repairStart f _ => f.wf
  | .repairCrateSweep _ _ => true
  | .indexMount _ => true
  | .selectTopk c d => c.wf && d.wf
  | .selectThreshold c d => c.wf && d.wf
  | .selectorRow sel _ _ _ => sel < 16
  | .stallRun c d => c.wf && d.wf
  | .rowOpPlain c d => c.wf && d.wf
  | .rowOpDerive c d => c.wf && d.wf
  | .rowOpClear c d => c.wf && d.wf
  | .activationBoundary stall _ _ _ _ _ => stall < 256
  | .refreshDebtIncrement stack pc => stack < 8 && pc < 32
  | .refreshClassEvaluation stack _ => stack < 8
  | .stallNop st => st < 256
  | .stallEnd st => st < 256
  | .stallSeg st => st < 256
  | .stallBr st target => st < 256 && target < 256
  | .stallDbnz st sd target => st < 256 && sd < 16 && target < 256
  | .stallBz st sd target => st < 256 && sd < 16 && target < 256
  | .stallSetmode st lt _ _ => st < 256 && lt < 4
  | .stallLd st reg w sa _ imm => st < 256 && reg < 8 && w < 8 && sa < 16 && imm < 32768
  | .stallSt st reg w sa _ imm => st < 256 && reg < 8 && w < 8 && sa < 16 && imm < 32768
  | .stallLda st reg w sa _ imm => st < 256 && reg < 4 && w < 8 && sa < 16 && imm < 32768
  | .stallSta st reg w sa _ imm => st < 256 && reg < 4 && w < 8 && sa < 16 && imm < 32768
  | .stallLds st reg w sa _ imm => st < 256 && reg < 8 && w < 8 && sa < 16 && imm < 32768
  | .stallSts st reg w sa _ imm => st < 256 && reg < 8 && w < 8 && sa < 16 && imm < 32768
  | .stallRop st op wd sd wa sa wb sb => st < 256 && op < 8 && wd < 8 && sd < 16 && wa < 8 && sa < 16 && wb < 8 && sb < 16
  | .stallSadd st sd sa sb => st < 256 && sd < 16 && sa < 16 && sb < 16
  | .stallSsub st sd sa sb => st < 256 && sd < 16 && sa < 16 && sb < 16
  | .stallSmul st sd sa sb => st < 256 && sd < 16 && sa < 16 && sb < 16
  | .stallSaddi st sd sa imm => st < 256 && sd < 16 && sa < 16 && imm < 16384
  | .stallSmuli st sd sa imm => st < 256 && sd < 16 && sa < 16 && imm < 16384
  | .stallSshli st sd sa imm => st < 256 && sd < 16 && sa < 16 && imm < 16384
  | .stallSshri st sd sa imm => st < 256 && sd < 16 && sa < 16 && imm < 16384
  | .stallSandi st sd sa imm => st < 256 && sd < 16 && sa < 16 && imm < 16384
  | .stallSori st sd sa imm => st < 256 && sd < 16 && sa < 16 && imm < 16384
  | .stallSlui st sd imm => st < 256 && sd < 16 && imm < 4194304
  | .stallVmac st ad va vb => st < 256 && ad < 4 && va < 8 && vb < 8
  | .stallVmacs st ad va ss => st < 256 && ad < 4 && va < 8 && ss < 16
  | .stallVsqd st ad va vb => st < 256 && ad < 4 && va < 8 && vb < 8
  | .stallVadd st vd va vb => st < 256 && vd < 8 && va < 8 && vb < 8
  | .stallVsub st vd va vb => st < 256 && vd < 8 && va < 8 && vb < 8
  | .stallVmul st vd va vb => st < 256 && vd < 8 && va < 8 && vb < 8
  | .stallVmax st vd va vb => st < 256 && vd < 8 && va < 8 && vb < 8
  | .stallVmin st vd va vb => st < 256 && vd < 8 && va < 8 && vb < 8
  | .stallVbcast st vd ss => st < 256 && vd < 8 && ss < 16
  | .stallVmov st vd va => st < 256 && vd < 8 && va < 8
  | .stallUnpk4 st vd va ss quarter _ _ => st < 256 && vd < 8 && va < 8 && ss < 16 && quarter < 4
  | .stallUnpk8 st vd va _ ef => st < 256 && vd < 8 && va < 8 && ef < 4
  | .stallVrsq st vd va => st < 256 && vd < 8 && va < 8
  | .stallVrcp st vd va => st < 256 && vd < 8 && va < 8
  | .stallAclr st ad => st < 256 && ad < 4
  | .stallAadd st ad aa => st < 256 && ad < 4 && aa < 4
  | .stallAmul st ad aa => st < 256 && ad < 4 && aa < 4
  | .stallAmuls st ad ss => st < 256 && ad < 4 && ss < 16
  | .stallAwid st ad va => st < 256 && ad < 4 && va < 8
  | .stallCvt st vd aa => st < 256 && vd < 8 && aa < 4
  | .stallAred st ss aa => st < 256 && ss < 16 && aa < 4
  | .stallArsq st ad aa ss => st < 256 && ad < 4 && aa < 4 && ss < 16
  | .modelLoadBegin c d => c.wf && d.wf
  | .modelLoadChunk c d => c.wf && d.wf
  | .modelLoadCommit c d => c.wf && d.wf
  | .modelLoadUnload c d => c.wf && d.wf
  | .modelLoadResetScales c d => c.wf && d.wf
  | .modelLoadReadScales c d => c.wf && d.wf
  | .modelRun c d => c.wf && d.wf
  | .modelPin c d => c.wf && d.wf
  | .modelUnpin c d => c.wf && d.wf
  | .layerStepStart c _ => c.wf
  | .layerStepEnd c _ _ place => c.wf && place.wf
  | .shelfFill c _ => c.wf
  | .tileLateStop t _ => t < 128
  | .tileNop t => t < 128
  | .tileEnd t => t < 128
  | .tileBar t => t < 128
  | .tileLoop t sd target => t < 128 && sd < 16 && target < 4096
  | .tileBrz t sd target => t < 128 && sd < 16 && target < 4096
  | .tileDmaIn t arr sa token len saddr => t < 128 && arr < 16 && sa < 16 && token < 16 && len < 16384 && saddr < 16384
  | .tileDmaOut t arr sa token len saddr => t < 128 && arr < 16 && sa < 16 && token < 16 && len < 16384 && saddr < 16384
  | .tileDmaComplete t token _ place => t < 128 && token < 16 && place.wf
  | .tileWait t mask => t < 128 && mask < 65536
  | .tileMma t waddr aaddr rows acc kb _ => t < 128 && waddr < 16384 && aaddr < 16384 && rows < 512 && acc < 512 && kb < 64
  | .tileEpi t oaddr rows acc fn _ baddr _ => t < 128 && oaddr < 16384 && rows < 512 && acc < 512 && fn < 16 && baddr < 16384
  | .tileVec t daddr xaddr yaddr fn => t < 128 && daddr < 16384 && xaddr < 16384 && yaddr < 16384 && fn < 16
  | .tileSadd t sd sa sb => t < 128 && sd < 16 && sa < 16 && sb < 16
  | .tileSaddi t sd sa imm => t < 128 && sd < 16 && sa < 16 && imm < 4294967296
  | .tileSmuli t sd sa imm => t < 128 && sd < 16 && sa < 16 && imm < 4294967296
  | .tileSshli t sd sa imm => t < 128 && sd < 16 && sa < 16 && imm < 4294967296
  | .embLookupPool c d => c.wf && d.wf
  | .embLookupDump c d => c.wf && d.wf
  | .embUpdate c d => c.wf && d.wf
  | .embUpdateClose c d => c.wf && d.wf
  | .embUpdateLoad c d => c.wf && d.wf
  | .stepCloseStart c lost => c.wf && (lost.all fun e => e.2.wf)
  | .embReplicaInstall c d => c.wf && d.wf
  | .embReplicaDrop c d => c.wf && d.wf
  | .embReplicaRefresh c d => c.wf && d.wf
  | .partConfigCreate c d => c.wf && d.wf
  | .partConfigDestroy c d => c.wf && d.wf
  | .partConfigGrant c d => c.wf && d.wf
  | .partConfigWithdraw c d => c.wf && d.wf
  | .partConfigShares c d => c.wf && d.wf
  | .partConfigRegionAlloc c d => c.wf && d.wf
  | .partConfigRegionFree c d => c.wf && d.wf
  | .partConfigPort c d => c.wf && d.wf
  | .partConfigIndexCreate c d => c.wf && d.wf
  | .partConfigIndexResize c d => c.wf && d.wf
  | .partConfigIndexDestroy c d => c.wf && d.wf
  | .partConfigIndexRead c d => c.wf && d.wf
  | .partConfigTableCreate c d => c.wf && d.wf
  | .partConfigTableResize c d => c.wf && d.wf
  | .partConfigTableDestroy c d => c.wf && d.wf
  | .partConfigTableRead c d => c.wf && d.wf
  | .ctxCreate c d => c.wf && d.wf
  | .ctxDestroy c d => c.wf && d.wf
  | .ptnCtxWrite f p n _ => f.wf && p < 64 && n < 16
  | .sliceEnd p _ => p < 64
  | .stopPosted p _ => p < 64
  | .contextSwitch p _ _ lost => p < 64 && (lost.all fun e => e.2.wf)
  | .gangStart p _ lost => p < 64 && (lost.all fun e => e.2.wf)
  | .quiesceSet f p _ => f.wf && p < 64
  | .quiesceClear f p _ => f.wf && p < 64
  | .substitution kind unit _ => unit < kind.count
  | .unitWatchdog kind unit => unit < kind.count
  | .laneEnable f lane _ => f.wf && lane < 36
  | .laneDisable f lane _ => f.wf && lane < 36
  | .laneUp lane peer _ => lane < 36 && peer < 65536
  | .laneTrainingRestart lane _ => lane < 36
  | .laneDown lane _ => lane < 36
  | .cellReceive lane cell _ => lane < 36 && cell.length == 256
  | .replayTimeout lane _ => lane < 36
  | .replayBudgetExpiry lane _ => lane < 36
  | .frameReceive lane => lane < 36
  | .transitDrop lane _ => lane < 36
  | .searchSub src _ => src < 65536
  | .searchRsp src _ => src < 65536
  | .embFetch src _ => src < 65536
  | .embRows src _ => src < 65536
  | .embGset src _ lost => src < 65536 && (lost.all fun e => e.2.wf)
  | .embRset src _ => src < 65536
  | .embRepl src _ => src < 65536
  | .embReplRsp src _ => src < 65536
  | .actBlock src _ => src < 65536
  | .bulkAck src _ => src < 65536
  | .handoffOffer src _ => src < 65536
  | .handoffState src _ => src < 65536
  | .handoffCommit src _ => src < 65536
  | .handoffAccept src _ => src < 65536
  | .ownerQuery src _ => src < 65536
  | .ownerAns src _ => src < 65536
  | .probe src _ => src < 65536
  | .probeAck src _ => src < 65536
  | .lostNotice src _ => src < 65536
  | .droppedNotice src _ => src < 65536
  | .cancelRequest src _ => src < 65536
  | .requestTimeout _ _ => true
  | .memberLost node _ => node < 65536
  | .fabricDupExpiry src _ _ => src < 65536
  | .composeInstall c d => c.wf && d.wf
  | .composeRemove c d => c.wf && d.wf
  | .composeRead c d => c.wf && d.wf
  | .drainWindowEnd _ _ => true
  | .epochHoldExpiry hold _ => hold.wf
  | .handoff c d => c.wf && d.wf
  | .handoffTimeout _ slot _ => slot < 65536
  | .ownerQueryRetry _ slot _ => slot < 65536
  | .orphanSweep _ _ => true
  | .nodeIdWrite f _ => f.wf
  | .routingEntryWrite f node _ => f.wf && node < 65536
  | .policerRefill => true
  | .shaperRefill => true
  | .policerCommit f n _ => f.wf && n < 192
  | .shaperCommit f n _ => f.wf && n < 192
  | .samplingRound _ _ => true
  | .samplingEnable f _ => f.wf
  | .ringHeadWrite f _ => f.wf
  | .medProfile c d => c.wf && d.wf
  | .medFormat c d _ => c.wf && d.wf
  | .medCheckpoint c d => c.wf && d.wf
  | .medRetireLun c d => c.wf && d.wf
  | .medInfo c d => c.wf && d.wf
  | .mediaMount _ _ => true
  | .flashReadEnqueue lun _ => lun < 768
  | .flashReadComplete lun _ _ => lun < 768
  | .flashProgramComplete lun _ => lun < 768
  | .flashEraseComplete lun _ => lun < 768
  | .operationResume lun _ => lun < 768
  | .lunFailed lun => lun < 768
  | .journalFlush _ => true
  | .checkpointStart _ => true
  | .checkpointAbandon _ => true
  | .garbageCollection _ => true
  | .coldRelocation _ => true
  | .holdupStart _ _ => true
  | .inputRestored _ _ => true
  | .inputFault _ => true
  | .crierPost e n _ => e.wf && n < 128
  | .crierTake e n => e.wf && n < 128
  | .crierWithdraw e n => e.wf && n < 128
  | .crierTimeout n _ => n < 128
  | .mbxCcfgWrite e n _ => e.wf && n < 128
  | .gatingEntry kind unit since now => unit < kind.count && since ≤ now
  | .unitWake kind unit _ => unit < kind.count
  | .powerSample _ _ _ => true
  | .thermalSample _ _ _ => true
  | .bankMeasurement _ => true
  | .bankCapacitanceTest _ => true
  | .recordHandled sev _ _ => sev < 4
  | .errorQueueRetire f sev _ => f.wf && sev < 4
  | .patrolScrub stack pc _ _ _ _ _ => stack < 8 && pc < 32
  | .sramScrub _ _ _ _ _ _ => true
  | .nocFlitFailure _ _ _ c => c.all CmdRef.wf
  | .powerOn _ => true
  | .moduleReset _ => true
  | .bootCtrlReset f _ => f.wf
  | .modEnRise => true
  | .modEnFall _ => true
  | .pinReset _ => true
  | .fwStageBegin c d => c.wf && d.wf
  | .fwStageChunk c d => c.wf && d.wf
  | .fwArm c d _ => c.wf && d.wf
  | .fwConfirm c d => c.wf && d.wf
  | .trialExpiry _ => true
  | .firmwareWatchdog => true
  | .attest c d => c.wf && d.wf
  | .ownerRead c d => c.wf && d.wf
  | .ownerInstallKey c d => c.wf && d.wf
  | .ownerLock c d _ => c.wf && d.wf
  | .ownerUnlock c d _ => c.wf && d.wf
  | .rcvErase _ => true
  | .rcvWrite _ chunk data => chunk < 512 && data.length == 65536
  | .rcvArm _ _ => true
  | .rcvReset _ => true
  | .smbStatus => true
  | .smbInputMv => true
  | .smbInputW => true
  | .smbTemps => true
  | .smbHoldup => true
  | .smbSerial => true
  | .smbCause => true
  | .smbClearSticky _ => true
  | .smbReset _ => true
  | .smbArmRecovery _ => true
  | .smbAlertResponse => true
  | .cellTime lane => lane < 36
  | .perstDeassert _ => true
  | .standbyIslandPowerUp => true
  | .standbyIslandPowerLoss => true
  | .distanceTableComplete c => c.wf
  | .shelfFillComplete _ _ _ place => place.wf
  | .loadDataArrival _ _ => true
  | .d3hotTransition f _ => f.wf
  | .attestStart _ => true
  | .prbs31CheckError lane => lane < 36

end Sys2Proof
end

