-- ==== Sys2Proof/Certificates/Slice0/Obligations.lean ====
section
/-!
DEFINITION. The statements about the model, for the provers: what each command does, what every step keeps, and what reset
leaves.
-/
open Sys2Proof Sys2Proof.Machine

/-! The queue of commands. -/

/-- A step with a command at the front of the queue is that command on the state with the queue's rest.
Readings of the model's own: log entry 1. -/
def Obligations.StepRunsTheFrontCommand : Prop :=
  ∀ (i : Instr) (rest : List Instr) (s : State), step { s with pending := i :: rest } = exec i { s with pending := rest }

/-! Queue pairs (chapter 2). -/

/-- SQ_TAIL_DOORBELL and CQ_HEAD_DOORBELL (R45, R34, R37, R38): a doorbell that reaches a queue's slot is discarded while the queue
is DISABLED; an accepted value becomes SQ_TAIL or CQ_HEAD and nothing else changes; any other value sets DB_ERR with a BAD_VALUE
record at its BAR2 offset. SQ_TAIL may not leave the ring nor go back past entries already posted; CQ_HEAD goes from the previous
CQ_HEAD to CQ_TAIL at most. Readings of the model's own: log entries 16, 27. -/
def Obligations.DoorbellsMoveTheRings : Prop :=
  ∀ (f : Fn) (page : Nat) (q : QRef) (v : W32) (s : State), bellSlot f page q s →
    let x := getQueue q s
    let n := 2 ^ x.sqLog2
    let m := 2 ^ x.cqLog2
    let refuse := fun off => fileBadValue f 2 off (scopePart q.scope) q.q (onQueue q (fun x => { x with dbErr := true }) s)
    (x.state = .disabled →
      exec (.sqTailDoorbell f page q.q v) s = .next s ∧ exec (.cqHeadDoorbell f page q.q v) s = .next s) ∧
    (x.state ≠ .disabled →
      (v.toNat < n ∧ (x.sqTail + n - x.sqHead) % n ≤ (v.toNat + n - x.sqHead) % n →
        exec (.sqTailDoorbell f page q.q v) s = .next (onQueue q (fun x => { x with sqTail := v.toNat }) s)) ∧
      (¬(v.toNat < n ∧ (x.sqTail + n - x.sqHead) % n ≤ (v.toNat + n - x.sqHead) % n) →
        exec (.sqTailDoorbell f page q.q v) s = .next (refuse (bellOffset f page q.q))) ∧
      (v.toNat < m ∧ (v.toNat + m - x.cqHead) % m ≤ (x.cqTail + m - x.cqHead) % m →
        exec (.cqHeadDoorbell f page q.q v) s = .next (onQueue q (fun x => { x with cqHead := v.toNat }) s)) ∧
      (¬(v.toNat < m ∧ (v.toNat + m - x.cqHead) % m ≤ (x.cqTail + m - x.cqHead) % m) →
        exec (.cqHeadDoorbell f page q.q v) s = .next (refuse (bellOffset f page q.q + 4))))

/-- QUEUE_ENABLE (R42, R48): a write of PTN_QCFG with ENABLE set that reaches a DISABLED queue with sizes 4 to 16, a context, a
port and the module READY makes it RUNNING with both rings empty and PHASE 1; with a size out of range only CFG_ERR is set, beside
the fields written. Readings of the model's own: log entries 20, 25. -/
def Obligations.QueueEnableStartsEmptyRings : Prop :=
  ∀ (f : Fn) (q : QRef) (v : W32) (s : State),
    holdsQueue f q = true → Reaches f (queueReg q 0x10) s → v.getLsbD 31 = true →
    (getQueue q s).state = .disabled →
    let sq := bits v.toNat 30 26
    let cq := bits v.toNat 25 21
    let vec := bits v.toNat 20 16
    let fields : Queue → Queue := fun x => { x with
      intCount := bits v.toNat 15 10, intTime := bits v.toNat 9 0, sqLog2 := sq, cqLog2 := cq,
      vec := if vec ≤ maxVec q then vec else x.vec }
    (4 ≤ sq → sq ≤ 16 → 4 ≤ cq → cq ≤ 16 → queueHasContext q s = true → (scopePort q.scope s).isSome = true →
      s.board.boot.stage = .ready →
      exec (.queueEnable f q v) s = .next (onQueue q (fun x => { fields x with
        enable := true, state := .running, sqHead := 0, sqTail := 0, cqHead := 0, cqTail := 0, phase := true,
        unsignalled := 0, oldest := none }) s)) ∧
    (sq < 4 ∨ 16 < sq ∨ cq < 4 ∨ 16 < cq →
      exec (.queueEnable f q v) s = .next (onQueue q (fun x => { fields x with cfgErr := true }) s))

/-- QUEUE_DISABLE and QUEUE_DRAINED (R43, R44): a write of PTN_QCFG with ENABLE clear, giving sizes and vector the values they
hold, puts an enabled queue into DRAINING; a drained queue, or a halted one with ENABLE clear, becomes DISABLED once nothing of it
is in flight. -/
def Obligations.QueueDisableDrains : Prop :=
  (∀ (f : Fn) (q : QRef) (v : W32) (s : State),
    holdsQueue f q = true → Reaches f (queueReg q 0x10) s → v.getLsbD 31 = false → (getQueue q s).enable = true →
    (getQueue q s).state ≠ .disabled →
    bits v.toNat 30 26 = (getQueue q s).sqLog2 → bits v.toNat 25 21 = (getQueue q s).cqLog2 →
    bits v.toNat 20 16 = (getQueue q s).vec →
    exec (.queueDisable f q v) s = .next (onQueue q (fun x => { x with
      intCount := bits v.toNat 15 10, intTime := bits v.toNat 9 0, enable := false, state := .draining }) s)) ∧
  (∀ (q : QRef) (s : State), inflight q s = 0 →
    (getQueue q s).state = .draining ∨ ((getQueue q s).state = .halted ∧ (getQueue q s).enable = false) →
    exec (.queueDrained q) s = .next (onQueue q (fun x => { x with state := .disabled, enable := false }) s))

/-- INT_TIME_EXPIRY and RING_DMA_FAILURE (R40, R44): once the oldest unsignalled completion is INT_TIME old the queue's vector is
raised and the count starts again; a failed ring access halts a running or draining queue with DMA_ERR and a HOST_DMA record that
names the address. Readings of the model's own: log entries 3, 27. -/
def Obligations.QueueEventsSignalAndHalt : Prop :=
  (∀ (q : QRef) (now t : Nat) (port : Port) (s : State),
    (getQueue q s).oldest = some t → (getQueue q s).intTime ≠ 0 →
    t + (getQueue q s).intTime ≤ timeUs (atTime now s) → scopePort q.scope s = some port →
    exec (.intTimeExpiry q now) s = .next (emit (.msix (scopeFn q.scope port) (getQueue q s).vec)
      (onQueue q (fun x => { x with unsignalled := 0, oldest := none }) (atTime now s)))) ∧
  (∀ (q : QRef) (addr : W64) (s : State),
    (getQueue q s).state = .running ∨ (getQueue q s).state = .draining →
    exec (.ringDmaFailure q addr) s = .next (fileRec
      { mkRec 0x08 2 5 (locHost (scopeFn q.scope ((scopePort q.scope s).getD .a)) addr.toNat) with
        part := scopePart q.scope, queue := q.q }
      (onQueue q (fun x => { x with state := .halted, dmaErr := true }) s)))

/-- COMMAND_FETCH (R46, R47, R53, R58–R60): the entry at SQ_HEAD of a queue that may fetch is taken, SQ_HEAD moves on, and: the
duplicate of a running command is dropped; the duplicate of a completed one is answered again with the DUP flag; any other command
that the table has room for, its policer lets pass and its packet checks admit waits as fetched, and is noted in the table.
Readings of the model's own: log entries 29, 32. -/
def Obligations.FetchTakesTheNextEntry : Prop :=
  ∀ (q : QRef) (packet : List Byte) (s : State), packet.length = 64 → mayFetch q s = true →
    let n := 2 ^ (getQueue q s).sqLog2
    let s' := onQueue q (fun x => { x with sqHead := (x.sqHead + 1) % n }) s
    let k := cmdOf q packet (timeUs s)
    (∀ d, heldDup k.ref s = some d → d.answer = none → exec (.commandFetch q packet) s = .next s') ∧
    (∀ d a, heldDup k.ref s = some d → d.answer = some a →
      exec (.commandFetch q packet) s = .next (sendToHost k [.entry k.ref a true]
        (q.q == 16 || a.status == stAborted || a.status == stTimeout)
        (onHost (fun h => { h with cmds := h.cmds ++ [{ k with phase := .finishing, committed := true }] }) s'))) ∧
    (heldDup k.ref s = none → (liveDups s).length < Config.dupCapacity → packetStatus k = none →
      let entry : Dup := { ref := k.ref, fetched := k.fetched, answer := none }
      let t := onHost (fun h => { h with
        cmds := h.cmds ++ [k], dups := h.dups.filter (fun d => d.ref != k.ref) ++ [entry] }) s'
      (policeCmd k t).1 = false → exec (.commandFetch q packet) s = .next (policeCmd k t).2)

/-- DUP_ENTRY_EXPIRY and DEADLINE_EXPIRY (R56, R57, R65): a completed entry leaves the duplicate table 4 s after its fetch; a
command of the host past its deadline and not past its commit point completes TIMEOUT with everything it held released.
Readings of the model's own: log entries 32, 36. -/
def Obligations.ExpiriesEndEntriesAndCommands : Prop :=
  (∀ (c : CmdRef) (now : Nat) (s : State),
    exec (.dupEntryExpiry c now) s = .next (onHost (fun h => { h with dups := h.dups.filter fun d =>
      !(d.ref == c && d.answer.isSome && d.fetched + 4000000 ≤ timeUs (atTime now s)) }) (atTime now s))) ∧
  (∀ (c : CmdRef) (now : Nat) (k : Cmd) (s : State),
    findCmd c s = some k → k.deadline ≠ 0 → k.remote = false → k.fetched + k.deadline ≤ timeUs (atTime now s) →
    pastEnd k = false →
    exec (.deadlineExpiry c now) s =
      .next (settleAllEmb (completeSt c stTimeout (releaseCmd c (atTime now s)))))

/-- ABORT and PART_ADOPT (R64–R66, R69): ABORT ends every command of its scope that is not past its commit point, then completes
OK with their number as COUNT; PART_ADOPT, once the other port's heartbeat is lost, moves each named partition of that port to its
own, and counts them. Readings of the model's own: log entries 34, 96. -/
def Obligations.AbortAndAdoptActOnTheirScope : Prop :=
  (∀ (c : CmdRef) (d : CmdIn) (k : Cmd) (ps inp : List Byte) (s : State),
    Due 0x5F anyForm c d k ps inp s → abortCheck k ps inp s = .go →
    let cs := abortScope (field ps 2 1) (abortSel ps) (running c s)
    exec (.abort c d) s = .next (complete c stOk cs.length 0 [] (abortAll cs (running c s)))) ∧
  (∀ (c : CmdRef) (d : CmdIn) (k : Cmd) (ps inp : List Byte) (s : State),
    Due 0x3A anyForm c d k ps inp s → adoptCheck k ps inp s = .go →
    let port := cmdPort k (running c s)
    let moved := (maskParts (field ps 0 8)).filter fun p => servedBy p s == some port.other
    exec (.partAdopt c d) s = .next (complete c stOk moved.length 0 [] (moved.foldl (adoptOne port) (running c s))))

/-- FUNCTION_LEVEL_RESET_VF and FUNCTION_LEVEL_RESET_PF (R67, R33, R68): the reset of a live VF aborts every command of its
partition's work queues and disables its 17 queue pairs; the reset of a PF clears its VF Enable and its heartbeat watch, mutes the
commands of its control queue, disables that queue and resets every partition the port serves. Either leaves D3hot.
Readings of the model's own: log entry 35. -/
def Obligations.FunctionResetsClearTheirQueues : Prop :=
  (∀ (port : Port) (n : Nat) (s : State), 1 ≤ n → servedBy (n - 1) s = some port →
    exec (.functionLevelResetVf port n) s = .next (leaveD3 ⟨port, n⟩
      ((partQueues (n - 1)).foldl (fun s q => disableQueue q s) (abortAll (abortScope (n - 1) (fun _ => true) s) s)))) ∧
  (∀ (port : Port) (s : State),
    let q : QRef := { scope := .pf port, q := 16 }
    let muted : Cmd → Cmd := fun k => { k with mute := true }
    let s' := disableQueue q (onHost (fun h => { h with
      vfEnable := h.vfEnable.filter (· != port), hbArmed := h.hbArmed.filter (· != port),
      cmds := updWhere (fun k => k.queue == q) muted h.cmds }) s)
    exec (.functionLevelResetPf port) s = .next (leaveD3 ⟨port, 0⟩
      (((List.range 64).filter fun p => servedBy p s' == some port).foldl (fun s p => resetPartition p s) s')))

/-- PCIE_LINK_UP, PCIE_LINK_DOWN, PERST_ASSERT, PERST_DEASSERT, HEARTBEAT_TIMEOUT and D3HOT_TRANSITION (R32, R68, R459, R508, R542):
a powered port with PERST_N high trains; a trained link that goes down, or PERST_N low for 100 µs, or an armed watch that runs out,
loses the heartbeat; D3hot is taken only while every queue of the function is DISABLED. A lost heartbeat disarms the port's watch, is
noted for PART_ADOPT and counted, stops the crier's timer, raises vector 3 of the other port's PF, files a HEARTBEAT_LOST record, and
passes the error queues on when the port owned them. A function shows its identity, the recovery function in place of the PF; the
configuration space holds a supported payload or read size as written and no other, and VF Enable is the PF's (R32, R546). Readings of
the model's own: log entries 35, 82, 109. -/
def Obligations.PortsFollowTheirPins : Prop :=
  (∀ (f : Fn) (v : Nat) (s : State),
    let device := if f.vf ≠ 0 then 0x0A71 else if recoveryFn s then 0x0A7F else 0x0A70
    pciIdentity f s = { vendor := 0x1E7D, device := device, classCode := 0x120000, subsystem := device, revision := stepping s } ∧
    (v ≤ 2 → configRead f .maxPayload (configWrite f .maxPayload v s) = v) ∧
    (2 < v → configWrite f .maxPayload v s = s) ∧
    (v ≤ 5 → configRead f .maxRead (configWrite f .maxRead v s) = v) ∧
    (5 < v → configWrite f .maxRead v s = s) ∧
    (f.vf = 0 → configRead f .vfEnable (configWrite f .vfEnable v s) = v % 2) ∧
    (f.vf ≠ 0 → configWrite f .vfEnable v s = s)) ∧
  (∀ (p : Port) (s : State), s.host.perst.contains p = false → s.host.linkUp.contains p = false → portsPowered s = true →
    exec (.pcieLinkUp p) s = .next (onHost (fun h => { h with
      linkUp := h.linkUp ++ [p], linkTrained := h.linkTrained.filter (· != p) ++ [p] }) s)) ∧
  (∀ (p : Port) (s : State), s.host.linkUp.contains p = true →
    exec (.pcieLinkDown p) s =
      .next (loseHeartbeat p (onHost (fun h => { h with linkUp := h.linkUp.filter (· != p) }) s))) ∧
  (∀ (p : Port) (us : Nat) (s : State), 100 ≤ us → s.host.linkUp.contains p = true →
    exec (.perstAssert p us) s = .next (loseHeartbeat p (onHost (fun h => { h with
      perst := h.perst.filter (· != p) ++ [p], linkUp := h.linkUp.filter (· != p) }) s))) ∧
  (∀ (p : Port) (s : State),
    exec (.perstDeassert p) s = .next (onHost (fun h => { h with perst := h.perst.filter (· != p) }) s)) ∧
  (∀ (p : Port) (now t us : Nat) (s : State), (getCrier (126 + p.num) s).timer = some (t, us) →
    s.host.hbArmed.contains p = true → t + us ≤ timeUs (atTime now s) →
    exec (.heartbeatTimeout p now) s = .next (loseHeartbeat p (atTime now s))) ∧
  (∀ (f : Fn) (s : State), f.vf ≤ 64 →
    exec (.d3hotTransition f false) s = .next (onHost (fun h => { h with d3 := h.d3.filter (· != f) }) s) ∧
    (queuesOff f s = true →
      exec (.d3hotTransition f true) s = .next (onHost (fun h => { h with d3 := h.d3.filter (· != f) ++ [f] }) s)) ∧
    (queuesOff f s = false → exec (.d3hotTransition f true) s = .next s)) ∧
  (∀ (p : Port) (s : State), loseHeartbeat p s = passOwner p (fileRec (mkRec 0x06 2 5 (locHost { port := p, vf := 0 } 0))
    (emit (.msix { port := p.other, vf := 0 } 3) (onCrier (126 + p.num) (fun c => { c with timer := none })
      (onMbx (fun m => { m with timeouts := wrap64 (m.timeouts + 1) }) (onHost (fun h => { h with
        hbArmed := h.hbArmed.filter (· != p), hbLost := h.hbLost.filter (· != p) ++ [p] }) s))))))

/-! Registers (R33–R37, R465). -/

/-- REGISTER_WRITE (R36, R33–R35, R45), by a function whose BAR0 offset `off` lies at `o` of the map: a write of another size or
alignment is discarded with BAD_ACCESS; the low half of a 64-bit register fills the latch and changes no register; the high half
takes effect with the low half latched for it and empties the latch, and without one is discarded with BAD_ACCESS; a 64-bit write
takes effect whole, a 32-bit write on its 32-bit register; a write that finds another low half in the latch discards that with
BAD_ACCESS first; a doorbell write in BAR2 leaves the latch as it is. A read of a function that is not live, of a doorbell page, of
unused space or of the page of a FREE partition returns zero; one of another size or alignment returns zero with BAD_ACCESS; others
return the register's value, which is the staged one where one is staged (R7, R9). Readings of the model's own: log entries 13, 15, 18. -/
def Obligations.RegisterWritesFollowTheLatch : Prop :=
  (∀ (f : Fn) (off o : Nat) (v : W64) (s : State), fnLive f s = true → busOffset f off s = some o →
    let lo := v.toNat % 2 ^ 32
    let own := fnOffset f (o / 8 * 8)
    (∀ size, ¬(size = 4 ∧ off % 4 = 0) → ¬(size = 8 ∧ off % 8 = 0) → pendingLow f s = none →
      exec (.registerWrite f false off size v) s = .next (fileBadAccess f 0 off s)) ∧
    (off % 8 = 0 → wideAt (o / 8 * 8) = true → o % 8 = 0 → Reaches f o s →
      exec (.registerWrite f false off 4 v) s = .next (setLatch f (some (own, lo)) s) ∧
      exec (.registerWrite f false off 8 v) s = .next (put64 f o v.toNat s)) ∧
    (off % 4 = 0 → wideAt (o / 8 * 8) = true → o % 8 = 4 → closedPage f o s = none → blockAnswers o s = true →
      (∀ low, pendingLow f s = some (own, low) → exec (.registerWrite f false off 4 v) s =
        .next (put64 f (o / 8 * 8) (low + 2 ^ 32 * lo) (setLatch f none s))) ∧
      (pendingLow f s = none → exec (.registerWrite f false off 4 v) s = .next (fileBadAccess f 0 (fnOffset f o) s))) ∧
    (off % 4 = 0 → wideAt (o / 8 * 8) = false → Reaches f o s →
      exec (.registerWrite f false off 4 v) s = .next (put32 f o lo s)) ∧
    (∀ at0 low, off % 4 = 0 → wideAt (o / 8 * 8) = false → pendingLow f s = some (at0, low) →
      Reaches f o (fileBadAccess f 0 at0 (setLatch f none s)) →
      exec (.registerWrite f false off 4 v) s = .next (put32 f o lo (fileBadAccess f 0 at0 (setLatch f none s)))) ∧
    (∀ page q, bellSlot f page q s → off = bellOffset f page q.q →
      exec (.registerWrite f true off 4 v) s = exec (.sqTailDoorbell f page q.q (BitVec.ofNat 32 lo)) s)) ∧
  (∀ (f : Fn) (off size : Nat) (s : State),
    (fnLive f s = false → ∀ bar2, registerRead f bar2 off size s = (0, s)) ∧
    (fnLive f s = true → size = 4 ∨ size = 8 → off % size = 0 → registerRead f true off size s = (0, s)) ∧
    (fnLive f s = true → busOffset f off s = none → registerRead f false off size s = (0, s)) ∧
    (∀ o, fnLive f s = true → busOffset f off s = some o →
      (¬(size = 4 ∧ off % 4 = 0) → ¬(size = 8 ∧ off % 8 = 0) →
        registerRead f false off size s = (0, fileBadAccess f 0 off s)) ∧
      (off % 4 = 0 → wideAt (o / 8 * 8) = false →
        registerRead f false off 4 s = (if blockAnswers o s then value32 o s else 0, s)) ∧
      (off % 8 = 0 → wideAt o = true → registerRead f false off 8 s = (if blockAnswers o s then value64 o s else 0, s)))) ∧
  (∀ (n : Nat) (c : PolCfg) (s : State), n < 192 → (getPolicer n s).staged = some c →
    value32 (0x201004 + 0x20 * n) s = c.pir ∧ value32 (0x201008 + 0x20 * n) s = c.cbs ∧
    value32 (0x20100C + 0x20 * n) s = c.ebs) ∧
  (∀ (p k : Nat) (s : State), (getPtn p s).state = .free → readPtnReg p k s = 0)

/-- COUNTER_READ (R465): a 64-bit read gives the counter whole; the low half fills that reader's latch of that counter with the high
half; the next read of the high half gives the latched value and empties the latch, and with an empty latch the live high half.
Latches of other readers, and the write latches of R36, stay as they are. Which readers the counters answer: log entry 24. -/
def Obligations.CounterReadsAreConsistent : Prop :=
  ∀ (r : Reader) (cycles : Bool) (s : State), counterAnswers r s = true →
    let v := counterValue cycles s
    let mine : CountLatch → Bool := fun l => l.reader == r && l.cycles == cycles
    exec (.counterRead r cycles .whole) s = .next (emit (.counter r v) s) ∧
    exec (.counterRead r cycles .low) s = .next (emit (.counter r (v % 2 ^ 32)) (onPwr (fun p => { p with
      latches := ⟨r, cycles, v / 2 ^ 32⟩ :: p.latches.filter (fun l => !mine l) }) s)) ∧
    (∀ l, s.board.pwr.latches.find? mine = some l → exec (.counterRead r cycles .high) s =
      .next (emit (.counter r l.high) (onPwr (fun p => { p with latches := p.latches.filter (fun l => !mine l) }) s))) ∧
    (s.board.pwr.latches.find? mine = none → exec (.counterRead r cycles .high) s =
      .next (emit (.counter r (v / 2 ^ 32)) (onPwr (fun p => { p with latches := p.latches.filter (fun l => !mine l) }) s)))

/-! Searches (chapter 4). -/

/-- SEARCH, SEARCH_FILTERED and RANGE (R104, R106, R131, R132): a search that names no composition and passes its checks enters the
admission list of its partition, in fetch order, as a WAITING query with its parameters and query vector; nothing else changes but
its own phase. A packet or a parameter out of the ranges of R131 completes BAD_PARAM, whatever its input. Readings of the model's
own: log entries 31, 102. -/
def Obligations.SearchesEnterTheAdmissionList : Prop :=
  ∀ (c : CmdRef) (d : CmdIn) (k : Cmd) (ps inp : List Byte) (s : State),
    let row : Nat → Instr := fun op => if op = 1 then .search c d else if op = 2 then .searchFiltered c d else .range c d
    ∀ op, 1 ≤ op → op ≤ 3 →
    (∀ ix, Due op anyForm c d k ps inp s → searchGate op k ps inp s = .go → k.epoch = 0 → getIndex k.handle s = some ix →
      let p := parseSearch op ps (querySeeds ix.desc.dim (field ps 9 1) inp)
      let q := newQuery k.ref (cmdPart k) k.queue.q k.handle k.fetched p (queryVec ix.desc.dim inp)
      let t := running c s
      exec (row op) s = .next (onSrch (fun x => { x with
        queries := ordInsert (fun a b => fetchPlace a.ref t < fetchPlace b.ref t) q x.queries }) t)) ∧
    (findCmd c s = some k → k.opcode = op → k.phase = .waiting → mayStart k s = true → paramBytes k d = some ps →
      searchPacketBad k ps = true ∨ searchRangeBad op ps = true →
      exec (row op) s = .next (complete c stBadParam 0 0 [] s))

/-- QUERY_ADMISSION and DISTANCE_TABLE_COMPLETE (R104, R105, R108, R186): the head of the list goes to the walker of its partition with
the largest free share that has room; it takes the index's CSN and generation as its snapshot, a reference on the generation and on
its filter, and the time it waited is counted. A complete distance table of the snapshot's codebook starts the descent. `pump` hands
on the answers of composed searches, and does nothing where there are none. Readings of the model's own: log entry 37. -/
def Obligations.AdmissionTakesASnapshot : Prop :=
  (∀ s : State, s.host.fabricAns = [] → pump s = s) ∧
  (∀ (p now n : Nat) (q : Query) (ix : Index) (s : State),
    let t := atTime now s
    admissionHead p t = some q → getIndex q.handle t = some ix → pickWalker p (footprint ix.desc q.params) t = some n →
    unitAwake .walker n t = true → (q.params.useFilter = true → (getFilter ix q.params.filter).state = .ready) →
    let window := if !t.srch.batchEn then 0 else if q.params.windowUs = 0xFF then t.srch.windowDefault else q.params.windowUs
    let width := if q.params.width = 0 then t.srch.widthDefault else q.params.width
    let admitted : Query → Query := fun q => { q with
      phase := .table, walker := n, snap := ix.csn, gen := ix.curGen, admitted := timeUs t,
      params := { q.params with windowUs := window, width := width } }
    let bound := onIndex q.handle bindGen (onQuery q.ref admitted t)
    let held := if q.params.useFilter then onIndex q.handle (modRefs (· + 1) q.params.filter) bound else bound
    exec (.queryAdmission p now) s =
      .next (pump (onWlk q.part (fun c => { c with admitUs := wrap64 (c.admitUs + (timeUs t - q.fetched)) }) held))) ∧
  (∀ (c : CmdRef) (q : Query) (ix : Index) (s : State),
    getQuery c s = some q → getIndex q.handle s = some ix → q.phase = .table → walkerActs q s = true →
    exec (.distanceTableComplete c) s = .next (onQuery c (fun x => { x with
      table := distTable ix.desc (bookOf ix q.gen) (queryElems ix.desc q.vec), phase := .descent }) s))

/-- WALK_STEP (R90, R111, R115, R118, R126, R133): an uncorrectable read of codes, upper records or bitmaps ends the query. Else the
descent of an empty index ends the walk, and any other leaves the base queue seeded. A walk at the top of its step ends for one of the
four reasons, or chooses its nearest candidate and asks for crates; with an entry chosen, its crate is asked for again until it is in
a VALID frame; then the walker takes its reference to the frame and expands the entry from that image, at once or, where the event
ends with the reference held, at a later one. An expansion releases the reference and is counted. Readings of the model's own: log
entries 37, 115. -/
def Obligations.WalksFollowTheGraph : Prop :=
  (∀ (c : CmdRef) (now : Nat) (mid : Bool) (ecc : EccOutcome) (place : MemPlace) (q : Query) (ix : Index) (s : State),
    let t := atTime now s
    let read := dramRead (findCmd c t) ecc place t
    let u := read.1
    let answers : State → Prop := fun v => exec (.walkStep c now mid ecc place) s = .next (pump v)
    let spent := q.params.budgetUs != 0 && q.admitted + q.params.budgetUs ≤ timeUs u
    getQuery c t = some q → getIndex q.handle t = some ix → walkerActs q t = true → q.phase = .descent ∨ q.phase = .walk →
    (∀ seq dropped, read.2 = some (seq, dropped) → answers (failQuery c seq dropped u)) ∧
    (read.2 = none → q.phase = .descent → ix.entry = none →
      answers (onQuery c (fun q => { q with phase := .select, term := 0, walkEnd := timeUs u, rerankEnd := timeUs u }) u)) ∧
    (read.2 = none → q.phase = .descent → ix.entry ≠ none →
      let w := (descend (viewOf q ix u) q.params.policy q.params.seeds).1
      answers (countWalk q.part walkEmpty w (onQuery c (fun q => { q with walk := w, phase := .walk }) u))) ∧
    (read.2 = none → q.phase = .walk → q.frame = none → q.next = none →
      (∀ term, walkTop (viewOf q ix u) q.walk spent = .inl term → answers (endWalk c term u)) ∧
      (∀ e, walkTop (viewOf q ix u) q.walk spent = .inr e →
        answers (useFrame c mid (e.slot / 64) (requestCrates c (onQuery c (fun q => { q with next := some e.slot }) u))))) ∧
    (∀ slot, read.2 = none → q.phase = .walk → q.frame = none → q.next = some slot →
      answers (useFrame c mid (slot / 64) (requestCrate c true u (slot / 64)))) ∧
    (∀ held, read.2 = none → q.phase = .walk → q.frame = some held → answers (expandHeld c q ix u))) ∧
  (∀ (c : CmdRef) (mid : Bool) (crate : Nat) (q : Query) (ix : Index) (u : State),
    getQuery c u = some q → getIndex q.handle u = some ix → q.frame = none →
    let v := onQuery c (fun q => { q with frame := some (crate, crateOf ix crate), requests := q.requests.erase crate }) u
    (tget? ix.frames crate ≠ some false → useFrame c mid crate u = u) ∧
    (tget? ix.frames crate = some false → useFrame c true crate u = v) ∧
    (∀ q', tget? ix.frames crate = some false → getQuery c v = some q' → q'.handle = q.handle → q'.frame ≠ none →
      useFrame c false crate u = expandHeld c q' ix v)) ∧
  (∀ (c : CmdRef) (q : Query) (ix : Index) (s : State),
    let w := expand (viewOf q ix s) q.walk (q.next.getD 0)
    expandHeld c q ix s = countWalk q.part q.walk w (releaseFrame c (onQuery c (fun q => { q with walk := w, next := none }) s)))

/-- CRATE_BATCH_ISSUE and CRATE_READ_COMPLETE (R87, R90, R91, R119): a batch whose window is over issues one read of its crate page,
counted to the query that opened it; an image that passes its checks makes its frame VALID and ends the batch, one that fails them
files a CRATE_CHECK record and ends UNCORRECTABLE the queries that need the crate, and a fill that a rewrite overtook only gives its
frame back. Readings of the model's own: log entry 38. -/
def Obligations.CratesAreReadInBatches : Prop :=
  ∀ (h crate : Nat) (ix : Index) (s : State),
    let here : Batch → Bool := fun b => b.handle == h && b.crate == crate
    (∀ now b, let t := atTime now s
      t.srch.batches.find? (fun b => b.handle == h && b.crate == crate && !b.issued) = some b →
      getIndex h t = some ix → b.reqs.any (fun r => r.joined + r.windowUs ≤ timeUs t) = true →
      let noted : State → State := match b.opener with
        | some o => onQuery o (fun q => { q with reads := q.reads + 1 })
        | none => id
      exec (.crateBatchIssue h crate now) s = .next (submitRead ix.desc.part (.crate h crate) (ix.crateBase + crate)
        (onWlk ix.desc.part (fun c => { c with crateReads := wrap64 (c.crateReads + 1) })
          (noted (onSrch (fun x => { x with
            batches := updWhere here (fun b => { b with issued := true }) x.batches }) t))))) ∧
    (∀ a t, takeArrived (fun w => w == .crate h crate) s = some (a, t) → getIndex h t = some ix →
      let issued := t.srch.batches.find? fun b => b.handle == h && b.crate == crate && b.issued
      (issued = none → ∀ ok, exec (.crateReadComplete h crate ok) s =
        .next (pump (onIndex h (fun ix => { ix with orphans := ix.orphans.erase crate }) t))) ∧
      (issued ≠ none → a.bad = none → ix.failed.contains crate = false →
        exec (.crateReadComplete h crate true) s = .next (pump (onIndex h (fun ix => { ix with
          frames := tput ix.frames crate false })
          (onSrch (fun x => { x with batches := x.batches.filter fun b => !here b }) t))) ∧
        exec (.crateReadComplete h crate false) s = .next (pump (crateFails h crate none t))) ∧
      (issued ≠ none → a.bad ≠ none → ∀ ok, exec (.crateReadComplete h crate ok) s =
        .next (pump (crateFails h crate a.bad t))))

/-- RERANK_READ_ISSUE, RERANK_READ_COMPLETE and SEARCH_SELECTION (R122–R125, R127–R129, R139): a pool entry whose turn it is at its
stall is read once staging has room; its vector arrives in staging, where the stall's job finds it, or gives back the staging that a
parked query had left; an uncorrectable read ends the query. The stall computes the exact distance from the vector and, with the last
one, the query goes to selection; selection on a powered selector that is free completes the search with its status, COUNT, snapshot
CSN and result entries. Readings of the model's own: log entries 39, 44, 112, 113, 115. -/
def Obligations.RerankAndSelectionEndASearch : Prop :=
  ∀ (c : CmdRef) (q : Query) (ix : Index) (s : State), getQuery c s = some q →
    (∀ i st, queryRuns q = true → getIndex q.handle s = some ix → rerankStall q i = some st → q.phase = .rerank →
      rerankNext q i = true →
      let waiting := sget (fun _ => []) s.srch.stageq st
      let need := vecBytes ix.desc + if stagedBytes q st s = 0 then 2 * ix.desc.dim else 0
      waiting = [] ∨ waiting.head? = some c → stagedBytes q st s + need ≤ 262144 → stallStaged st s + need ≤ 1048576 →
      exec (.rerankReadIssue c i) s =
        .next (submitRerank q.part c i (ix.vecBase + (q.walk.pool.getD i (0#32, 0)).2 / vecsPerPage ix.desc)
          (onWlk q.part (fun c => { c with rerankReads := wrap64 (c.rerankReads + 1) })
            (onQuery c (fun q => { q with issued := q.issued ++ [i] })
              (onSrch (fun x => { x with
                stageq := sset (fun _ => []) x.stageq st (waiting.filter (· != c)) }) s))))) ∧
    (∀ i a t, takeEntry c i s = some (a, t) → q.phase = .rerank → q.chosen = false → q.issued.contains i = true →
      (q.stale.contains i = true → exec (.rerankReadComplete c i) s = .next (pump (onQuery c (fun q =>
        { q with issued := q.issued.erase i, stale := q.stale.erase i }) t))) ∧
      (∀ st, q.stale.contains i = false → getIndex q.handle t = some ix → a.bad = none → rerankStall q i = some st →
        exec (.rerankReadComplete c i) s =
          .next (pump (startRerank q ix st (onQuery c (fun q => { q with staged := q.staged ++ [i] }) t)))) ∧
      (∀ seq dropped, q.stale.contains i = false → getIndex q.handle t = some ix → a.bad = some (seq, dropped) →
        exec (.rerankReadComplete c i) s = .next (pump (failQuery c seq dropped t)))) ∧
    (∀ i, getIndex q.handle s = some ix →
      let slot := (q.walk.pool.getD i (0#32, 0)).2
      let d := exactDistance ix.desc.metric (queryElems ix.desc q.vec) (vecElems ix.desc ((tget? ix.vectors slot).getD []))
      computeEntry c i s = onQuery c (fun q => rerankDone (timeUs s) { q with
        issued := q.issued.erase i, staged := q.staged.erase i, exact := tput q.exact i d }) s) ∧
    (∀ n, getCompSearch c s = none → queryRuns q = true → q.phase = .select → q.chosen = false → selectorOf c s = none →
      searchSelector q.walker s = some n → unitAwake .selector n s = true → tget? s.sel.busy n = none →
      exec (.searchSelection c false true) s = .next (pump (finish c true (searchStatus q).1 (searchStatus q).2 q.snap
        (searchResult s.nodeId q) (onQuery c (fun q => { q with chosen := true }) s))) ∧
      exec (.searchSelection c true true) s =
        .next (pump (onSel (fun x => { x with busy := tput x.busy n (.search c q.part) }) s)))

/-! Mutation (chapter 6). -/

/-- INSERT, UPSERT and DELETE (R168–R174, R176, R163): a mutation whose checks pass, whose DRAM reads are not lost and whose items could
all be placed and linked hands a group over for publication, bound to the current generation, with the new nodes in item order or the
IDs to delete in input order; an item that finds no slot ends the command with its status, a crate that a linking search needs and that
is lost ends it UNCORRECTABLE with the crate's record, and neither leaves a group. Readings of the model's own: log entries 37, 39. -/
def Obligations.MutationsHandOverGroups : Prop :=
  ∀ (c : CmdRef) (d : CmdIn) (k : Cmd) (ps inp : List Byte) (ix : Index) (s : State),
    let t := running c s
    let add : Group → State → State := fun g t => onMut (fun m => { m with
      groups := m.groups ++ [{ g with id := m.nextGroup }], nextGroup := m.nextGroup + 1
      bound := m.bound ++ [(g.ref, g.handle, g.gen)] }) (onIndex k.handle bindGen t)
    let mk : Bool → List NewNode → List Nat → State → Group := fun ups nodes ids t => {
      id := 0, ref := k.ref, part := cmdPart k, handle := k.handle, upsert := ups, durable := bit (field ps 4 1) 0,
      items := nodes, deletes := ids, gen := ix.curGen, buildEnd := timeUs t }
    getIndex k.handle s = some ix →
    (∀ ups, Due (if ups then 0x0A else 0x08) anyForm c d k ps inp s → mutGate (insertCheck ups) k ps inp s = .go →
      let row : Instr := if ups then .upsert c d else .insert c d
      let l := if field ps 2 2 = 0 then 64 else field ps 2 2
      let read := dramRead (some k) d.ecc d.place t
      let u := read.1
      let lost := crateLost ix d.linkCrate d.linkRead
      let built := (itemsOf ix.desc (field ps 0 2) inp).foldl (buildItem k.handle ix.curBook l ups (bit (field ps 4 1) 1)
        (bit (field ps 4 1) 2) (reservedSlots k.handle u) lost) (.ok (ix, []))
      (∀ seq dropped, read.2 = some (seq, dropped) →
        exec row s = .next (completeRec k.ref stUncorrectable 0 seq dropped u)) ∧
      (∀ work nodes, read.2 = none → built = .ok (work, nodes) → exec row s = .next (add (mk ups nodes [] u) u)) ∧
      (∀ st, read.2 = none → built = .error (.status st) → exec row s = .next (completeSt k.ref st u)) ∧
      (∀ crate, read.2 = none → built = .error (.crate crate) →
        let how := lostAs ix d.linkCrate d.linkRead crate
        let v := if how = .checkFail then markFailed k.handle crate u else u
        exec row s = .next (failCmd k.ref (crateRec how (cmdPart k) (ix.crateBase + crate) v) v))) ∧
    (Due 0x09 anyForm c d k ps inp s → mutGate deleteCheck k ps inp s = .go →
      exec (.delete c d) s =
        .next (add (mk false [] ((List.range (field ps 0 2)).map fun i => field inp (8 * i) 8) t) t))

/-- GROUP_PUBLISH and RING_WAIT_EXPIRY (R87, R162, R163, R167, R187): the first group of its index, with its vectors written, its crates
sound and room in the ring, publishes; with a failed vector write, or a crate whose image is lost, it ends UNCORRECTABLE, released, with
a record; while the ring has no room it waits, and RING_WAIT_MS after its build it ends THROTTLED, counted. `read` is how the medium
gives `crate`. Readings of the model's own: log entry 74. -/
def Obligations.GroupsPublishInTurn : Prop :=
  ∀ (id crate : Nat) (read : ReadOutcome) (g : Group) (ix : Index) (s : State),
    s.grp.groups.find? (·.id == id) = some g → getIndex g.handle s = some ix →
    (s.grp.groups.find? (·.handle == g.handle)).any (·.id != id) = false →
    let oldest := oldestSnap g.handle ix s
    let n := (transitions ix g).length
    let lost := (groupCrates ix g).find? (crateLost ix crate read)
    (∀ ok t, lost = none → ringRoom ix oldest n = true →
      writeVectors g.handle (ix.csn + n) (vectorPages ix g) s = some t →
      exec (.groupPublish id crate read true ok) s = .next (publishGroup g ix oldest ok t)) ∧
    (∀ ok, lost = none → ringRoom ix oldest n = false → exec (.groupPublish id crate read true ok) s = .next s) ∧
    (∀ ok ppn t page, g.items ≠ [] → s.med.held = false →
      let lpn := ((vectorPages ix g).head?).getD 0
      placeProgram (indexTag g.handle lpn ix.csn) .index s = some (ppn, page, t) →
      exec (.groupPublish id crate read false ok) s = .next (retireBlock (ppnBlock ppn t)
        (failGroupRec g { mkRec 0x1A 2 4 (locFlash lpn ppn (ppnLun ppn t) 0xFF) with part := g.part } t))) ∧
    (∀ ok c, lost = some c →
      let how := lostAs ix crate read c
      exec (.groupPublish id crate read true ok) s = .next (failGroupRec g (crateRec how g.part (ix.crateBase + c) s)
        (if how = .checkFail then markFailed g.handle c s else s))) ∧
    (∀ now, let t := atTime now s
      ringRoom ix (oldestSnap g.handle ix t) n = false → g.buildEnd + 1000 * t.grp.ringWaitMs ≤ timeUs t →
      exec (.ringWaitExpiry id now) s =
        .next (onWlk g.part (fun x => { x with ringThrottle := wrap64 (x.ringThrottle + 1) }) (failGroup g stThrottled t)))

/-- What a publication writes (R100, R161, R162): a group of at most 65,536 transitions moves the index's CSN by their number; the
transition at place j of the group gets CSN C + 1 + j, and its ring entry stands at that CSN modulo 65,536; every other ring entry
stays as it was. -/
def Obligations.PublicationNumbersItsTransitions : Prop :=
  ∀ (oldest : Nat) (g : Group) (ix : Index), (transitions ix g).length ≤ 65536 →
    let ts := transitions ix g
    let new := publishIndex oldest g ix
    new.csn = ix.csn + ts.length ∧
    (∀ j slot kind, ts[j]? = some (slot, kind) →
      tget? new.ring ((ix.csn + 1 + j) % 65536) = some { csn := ix.csn + 1 + j, slot := slot, kind := kind }) ∧
    (∀ i, (∀ j, j < ts.length → i ≠ (ix.csn + 1 + j) % 65536) → tget? new.ring i = tget? ix.ring i)

/-- SWAP_GENERATION and INDEX_MOUNT (R184, R185, R101): a swap whose checks pass makes NEW_GEN the current generation with the codebook
of its input, the former one OLD_GEN (gone at once when nothing refers to it), writes the metadata record, and completes OK with
NEW_GEN and the former CUR_GEN in DETAIL; a mount of an index that is not mounted yet derives its filters again, rebuilds its upper
graph, lets it take commands, and starts a repair pass where REPAIR_TRIGGER asks for one (R181). Readings of the model's own: log
entry 43. -/
def Obligations.GenerationsSwapAndIndexesMount : Prop :=
  (∀ (c : CmdRef) (d : CmdIn) (k : Cmd) (ps inp : List Byte) (ix : Index) (s : State),
    Due 0x0B anyForm c d k ps inp s → mutGate swapCheck k ps inp s = .go → getIndex k.handle s = some ix →
    let gen := field ps 0 4
    let book := bookBytes inp
    let t := writeMeta (metaBytes ix.desc) (onKept k.handle (fun x => { x with curGen := gen, curBook := book })
      (onIndex k.handle (swapIndex gen book) (running c s)))
    exec (.swapGeneration c d) s = .next (complete k.ref stOk 0 (gen + ix.curGen * 2 ^ 32) []
      (onCmd k.ref (fun k => { k with committed := true }) (onMut (fun m => { m with
        published := m.published.map fun p =>
          if p.handle == k.handle then { p with index := { p.index with curGen := gen, curBook := book } } else p }) t)))) ∧
  (∀ (ix : Index) (gen : Nat) (book : List W16),
    (swapIndex gen book ix).curGen = gen ∧ (swapIndex gen book ix).curBook = book ∧ (swapIndex gen book ix).curRefs = 0 ∧
    (ix.curRefs = 0 → (swapIndex gen book ix).oldGen = 0) ∧
    (ix.curRefs ≠ 0 → (swapIndex gen book ix).oldGen = ix.curGen ∧ (swapIndex gen book ix).oldBook = ix.curBook ∧
      (swapIndex gen book ix).oldRefs = ix.curRefs)) ∧
  (∀ (h : Nat) (ix : Index) (s : State), getIndex h s = some ix → ix.mounting = true →
    exec (.indexMount h) s = .next (triggerPass (onIndex h mountIndex s) h) ∧ (mountIndex ix).mounting = false)

/-- CRATE_WRITEBACK, REPAIR_START and REPAIR_CRATE_SWEEP (R178, R180–R183, R189, R190): a crate on the lazy list is programmed once,
leaves the list and is counted; WLK_REPAIR starts a pass of an index that exists; a pass publishes a repair group for the settled DEAD
slots of its crate and the stale crates noted, steps over a crate without any, noting one with stale edges, and records a crate whose
image is lost. A pass also starts by itself where the DEAD slots pass REPAIR_TRIGGER. Readings of the model's own: log entry 43. -/
def Obligations.RepairSweepsTheCrates : Prop :=
  (∀ (h crate : Nat) (ix : Index) (s : State), getIndex h s = some ix → s.grp.lazy.contains (h, crate) = true →
    exec (.crateWriteback h crate) s = .next (onWlk ix.desc.part (fun x => { x with writebacks := wrap64 (x.writebacks + 1) })
      (program (indexTag h (ix.crateBase + crate) (crateOf ix crate).csn) .index
        (onMut (fun m => { m with lazy := m.lazy.filter (· != (h, crate)) }) s)))) ∧
  (∀ (f : Fn) (v : W32) (s : State), f.vf = 0 → Reaches f 0x70000C s → v.getLsbD 31 = true →
    let h := bits v.toNat 15 0
    let t := onMut (fun m => { m with repairHandle := h }) s
    ((getIndex h s).isSome = true → exec (.repairStart f v) s = .next (startPass h t)) ∧
    (getIndex h s = none → exec (.repairStart f v) s = .next (fileBadValue f 0 0x70000C 0xFF 0xFF t))) ∧
  (∀ (h crate : Nat) (read : ReadOutcome) (rest : List Nat) (ix : Index) (s : State),
    s.grp.passes = h :: rest → getIndex h s = some ix → ix.mounting = false →
    let c := s.grp.sweepAt
    let oldest := oldestSnap h ix s
    let xs := settledDead ix oldest c
    let crates := repairCrates ix c xs ((s.grp.sweepRewrite.filter (·.1 == h)).map (·.2))
    let lost := crateLost ix crate read
    (lost c = false → xs ≠ [] → crates.find? lost = none →
      s.grp.groups.any (·.handle == h) = false → ringRoom ix oldest xs.length = true →
      exec (.repairCrateSweep crate read) s = .next (sweepNext h ix (publishRepair h ix oldest xs crates s))) ∧
    (lost c = false → xs = [] →
      exec (.repairCrateSweep crate read) s = .next (sweepNext h ix
        (if 0 < droppedEdges ix oldest (crateOf ix c) then onMut (fun m => { m with sweepRewrite := m.sweepRewrite ++ [(h, c)] }) s
         else s))) ∧
    (∀ b, (lost c = true ∧ b = c) ∨ (lost c = false ∧ xs ≠ [] ∧ crates.find? lost = some b) →
      exec (.repairCrateSweep crate read) s = .next (sweepFails h ix b (lostAs ix crate read b) s))) ∧
  (∀ (h : Nat) (ix : Index) (s : State), getIndex h s = some ix → ix.mounting = false → s.grp.repairTrigger ≠ 0 →
    s.grp.repairTrigger * liveCount ix < 1000 * deadCount ix → triggerPass s h = startPass h s)

/-! Selection (chapter 5). -/

/-- SELECT_TOPK and SELECT_THRESHOLD (R137, R138, R145–R147, R151, R157): a command whose checks pass queues its rows behind those
waiting, with its parameters; sizes out of range complete BAD_PARAM, whatever the input, and parameters in range find NO_RESOURCE where
no command selector is in service. Readings of the model's own: log entry 103. -/
def Obligations.SelectionsQueueTheirRows : Prop :=
  ∀ (c : CmdRef) (d : CmdIn) (k : Cmd) (ps inp : List Byte) (s : State),
    let t := running c s
    let queued : SelCmd → State := fun x => onSel (fun y => { y with
      cmds := y.cmds ++ [x],
      queue := y.queue ++ (List.range x.rows).map fun r =>
        { ref := x.ref, part := x.part, row := r, staged := timeUs t, layer := none } }) t
    (Due 0x10 anyForm c d k ps inp s →
      (topkCheck k ps inp s = .go → exec (.selectTopk c d) s = .next (queued {
        ref := k.ref, part := cmdPart k, threshold := false, n := field ps 0 4, rows := field ps 4 2, k := field ps 6 2,
        keyType := field ps 8 1, largest := bit (field ps 9 1) 0, merge := bit (field ps 9 1) 1,
        validMap := bit (field ps 9 1) 2, op := 0, bound := 0, input := inp, recs := [], total := 0, flagged := false })) ∧
      (field ps 0 4 < 1 ∨ 1048576 < field ps 0 4 ∨ field ps 4 2 < 1 ∨ 4096 < field ps 4 2 ∨ field ps 6 2 < 1 ∨
          4096 < field ps 6 2 ∨ 4 < field ps 8 1 →
        exec (.selectTopk c d) s = .next (complete c stBadParam 0 0 [] s)) ∧
      (topkCheck k ps inp s ≠ .fail stBadParam 0 → (∀ n, n < 16 → servesRows n s = false) →
        exec (.selectTopk c d) s = .next (complete c stNoResource 0 0 [] s))) ∧
    (Due 0x11 anyForm c d k ps inp s →
      (thresholdCheck k ps inp s = .go → exec (.selectThreshold c d) s = .next (queued {
        ref := k.ref, part := cmdPart k, threshold := true, n := field ps 0 4, rows := field ps 4 2, k := field ps 12 4,
        keyType := field ps 6 1, largest := false, merge := false, validMap := bit (field ps 8 1) 0, op := field ps 7 1,
        bound := field ps 16 4, input := inp, recs := [], total := 0, flagged := false })) ∧
      (field ps 0 4 < 1 ∨ 1048576 < field ps 0 4 ∨ field ps 4 2 < 1 ∨ 4096 < field ps 4 2 ∨ field ps 12 4 < 1 ∨
          1048576 < field ps 12 4 ∨ 4 < field ps 6 1 ∨ 3 < field ps 7 1 →
        exec (.selectThreshold c d) s = .next (complete c stBadParam 0 0 [] s)) ∧
      (thresholdCheck k ps inp s ≠ .fail stBadParam 0 → (∀ n, n < 16 → servesRows n s = false) →
        exec (.selectThreshold c d) s = .next (complete c stNoResource 0 0 [] s)))

/-- SELECTOR_ROW (R137, R138, R147, R153, R157–R160): a powered selector in service that is free, serves command rows and for which no
search selection waits takes the oldest row of the next partition in turn, and is busy with it until the row is run; a row of a
selection command is then counted and its record sent to the result buffer; the last row also completes the command, with the rows'
counts as COUNT and PARTIAL or OVERFLOW where a row was flagged. A row whose staged input is lost ends its command UNCORRECTABLE.
Readings of the model's own: log entries 115–117, 121. -/
def Obligations.SelectorsRunRowsInTurn : Prop :=
  (∀ (sel : Nat) (r : SelRow) (s : State), outOfService .selector sel s = false → unitAwake .selector sel s = true →
    tget? s.sel.busy sel = none → servesRows sel s = true → searchWaits sel s = false → nextRow s = some r →
    takeRow sel s = some (r, timeUs s,
      onSel (fun y => { y with queue := y.queue.erase r, turn := (r.part + 1) % 64 }) s)) ∧
  (∀ (sel started : Nat) (r : SelRow) (s t : State), outOfService .selector sel s = false → unitAwake .selector sel s = true →
    takeRow sel s = some (r, started, t) →
    (∀ ecc ok, exec (.selectorRow sel true ecc ok) s =
      .next (onSel (fun x => { x with busy := tput x.busy sel (.row r started) }) t)) ∧
    (∀ ok, exec (.selectorRow sel false .clean ok) s = .next (runOut r started ok t)) ∧
    (∀ ok, exec (.selectorRow sel false .uncorrectable ok) s = .next (stagingLost sel r t))) ∧
  (∀ (started : Nat) (r : SelRow) (x : SelCmd) (k : Cmd) (s : State), r.layer = none →
    s.sel.cmds.find? (·.ref == r.ref) = some x → findCmd x.ref s = some k →
    let is := selInStride x.n (rowWidth x.merge x.keyType) x.validMap
    let o := runRow x ((x.input.drop (r.row * is)).take is)
    let rs := selOutStride x.k
    let record := selRecord x.k o.count o.status o.poss
    let counted := onSelCounts x.part (fun n => { n with
      rows := wrap64 (n.rows + 1), keys := wrap64 (n.keys + x.n), partials := wrap64 (n.partials + b2n (o.status == stPartial)),
      overflow := wrap64 (n.overflow + b2n (o.status == stOverflow)), dups := wrap64 (n.dups + o.dups),
      waitUs := wrap64 (n.waitUs + (started - r.staged)) }) s
    let sent := sendToHost k (resultItems k (k.resultPtr + r.row * rs) record counted) false counted
    let x' : SelCmd := { x with
      recs := tput x.recs r.row record, total := x.total + o.count, flagged := x.flagged || o.status != stOk }
    (x'.recs.length ≠ x.rows → runOut r started true s =
      onSel (fun y => { y with cmds := y.cmds.map fun z => if z.ref == x.ref then x' else z }) sent) ∧
    (x'.recs.length = x.rows → runOut r started true s =
      completeWith x.ref (if x'.flagged then if x.threshold then stOverflow else stPartial else stOk) x'.total 0
        (x.rows * rs) [] (dropSelect x.ref sent))) ∧
  (∀ (started i : Nat) (ok : Bool) (r : SelRow) (x : Run) (m : Model) (a : Act) (s : State), r.layer = some i →
    getModelRun r.ref s = some x → getModel x.handle s = some m → layerInput x m (layerAt m i) = some a →
    runOut r started ok s =
      onStep r.ref i (fun st => { st with picks := tput st.picks r.row (pickRow a (layerAt m i).selK r.row) }) s)

/-- What a row gives (R143, R144, R147–R149, R152–R155). Of SELECT_TOPK: as many positions as there are valid keys, K at most, PARTIAL
when they are fewer than K; all of valid keys, in rank order, no position twice, and no valid key left out is better than one given. Of
a merge: the same of the entries kept, one for each ID, the one that no other valid entry of that ID is kept over. Of
SELECT_THRESHOLD: the number of valid keys that pass, OVERFLOW when they are more than MAX_OUT, and the lowest positions of those in
ascending order. The record holds count, status and positions, 0xFFFF_FFFF in the slots that no position fills, and zeros in its
reserved and padding bytes. -/
def Obligations.SelectionRowsGiveTheirPositions : Prop :=
  (∀ (x : SelCmd) (row : List Byte), x.threshold = false → x.merge = false →
    let valid := validKeys x row
    let o := runRow x row
    o.count = min x.k valid.length ∧ o.poss.length = o.count ∧ o.status = (if valid.length < x.k then stPartial else stOk) ∧
    o.poss.Nodup ∧
    (∃ es : List (Fv × Nat), es.map (·.2) = o.poss ∧ (∀ e ∈ es, e ∈ valid) ∧
      es.Pairwise fun e e' => keyBetter x.largest e' e = false) ∧
    (∀ e ∈ valid, ∀ e' ∈ valid, e.2 ∉ o.poss → e'.2 ∈ o.poss → keyBetter x.largest e e' = false)) ∧
  (∀ (x : SelCmd) (row : List Byte), x.threshold = false → x.merge = true →
    let valid := ((List.range x.n).map (mergeEnt row)).filter fun e => mergeValid e && (!x.validMap || validBit row x.n 16 e.pos)
    let kept := valid.foldl mergeAdd []
    let key : MergeEnt → Fv × Nat := fun e => (f32v e.dist, e.pos)
    let o := runRow x row
    o.count = min x.k kept.length ∧ o.poss.length = o.count ∧ o.status = (if kept.length < x.k then stPartial else stOk) ∧
    o.poss.Nodup ∧ (kept.map (·.id)).Nodup ∧ (∀ e ∈ valid, e.id ∈ kept.map (·.id)) ∧
    (∀ e ∈ kept, e ∈ valid ∧ ∀ e' ∈ valid, e'.id = e.id → keepOver e' e = false) ∧
    (∃ es : List MergeEnt, es.map (·.pos) = o.poss ∧ (∀ e ∈ es, e ∈ kept) ∧
      es.Pairwise fun e e' => keyBetter false (key e') (key e) = false) ∧
    (∀ e ∈ kept, ∀ e' ∈ kept, e.pos ∉ o.poss → e'.pos ∈ o.poss → keyBetter false (key e) (key e') = false)) ∧
  (∀ (x : SelCmd) (row : List Byte), x.threshold = true →
    let pass := (validKeys x row).filter fun e => passes x.op (keyValue x.keyType x.bound) e.1
    let o := runRow x row
    o.count = pass.length ∧ o.status = (if x.k < pass.length then stOverflow else stOk) ∧
    o.poss = (pass.map (·.2)).take x.k ∧ (pass.map (·.2)).Pairwise (· < ·)) ∧
  (∀ (k count status : Nat) (poss : List Nat), poss.length ≤ k → count < 2 ^ 32 → status < 2 ^ 16 → (∀ p ∈ poss, p < 2 ^ 32) →
    let r := selRecord k count status poss
    r.length = (8 + 4 * k + 63) / 64 * 64 ∧ field r 0 4 = count ∧ field r 4 2 = status ∧ field r 6 2 = 0 ∧
    (∀ i, i < k → field r (8 + 4 * i) 4 = poss.getD i 0xFFFFFFFF) ∧
    (∀ i, 8 + 4 * k ≤ i → i < r.length → r[i]? = some 0))

/-! The stall instruction set (chapter 7). -/

/-- The instructions that direct a program (R202–R204, R213): NOP goes on; END ends the job normally and SEG its segment at the next
boundary; BR jumps; DBNZ decrements and jumps unless it reaches zero; BZ jumps on zero; SETMODE sets MODE. Each also moves LAST_PC
and PC past its word. -/
def Obligations.StallProgramsAreDirected : Prop :=
  ∀ (st : Nat) (words : List Nat) (j : Job) (s : State),
    let j' := advanced words j
    (Issuing st 0x00 [] [] words j s → exec (.stallNop st) s = .next (withJob st j' s)) ∧
    (Issuing st 0x01 [] [] words j s → exec (.stallEnd st) s = .next (withJob st { j' with ended := some (0, 0) } s)) ∧
    (Issuing st 0x02 [] [] words j s →
      exec (.stallSeg st) s = .next (withJob st j' (onStall st (fun x => { x with endReq := true }) s))) ∧
    (∀ target, Issuing st 0x03 [(7, 0, target)] [] words j s →
      exec (.stallBr st target) s = .next (withJob st { j' with pc := target } s)) ∧
    (∀ sd target, Issuing st 0x04 (fieldsB sd target) [(.s, sd)] words j s →
      let k := writeS sd (readS j sd - 1) j'
      exec (.stallDbnz st sd target) s = .next (withJob st (if readS k sd ≠ 0 then { k with pc := target } else k) s)) ∧
    (∀ sd target, Issuing st 0x05 (fieldsB sd target) [(.s, sd)] words j s →
      exec (.stallBz st sd target) s = .next (withJob st (if readS j sd = 0 then { j' with pc := target } else j') s)) ∧
    (∀ lt bf rnd, Issuing st 0x06 [(25, 24, lt), (23, 23, b2n bf), (22, 22, b2n rnd)] [] words j s →
      exec (.stallSetmode st lt bf rnd) s = .next (withJob st { j' with mode := 4 * lt + 2 * b2n bf + b2n rnd } s))

/-- The scalar instructions (R198, R204): results modulo 2^32 into S[D], which a write of S0 discards; SADDI sign-extends IMM14, the
others zero-extend it; shifts use its low five bits; SLUI puts IMM22 into the upper 22 bits. -/
def Obligations.StallScalarsCompute : Prop :=
  ∀ (st : Nat) (words : List Nat) (j : Job) (s : State),
    let put : Nat → W32 → Host.Outcome State Fault Refusal := fun sd v => .next (withJob st (writeS sd v (advanced words j)) s)
    (∀ sd sa sb, let can := fun opc => Issuing st opc (fieldsS sd sa ++ [(17, 14, sb)]) [(.s, sa), (.s, sb)] words j s
      (can 0x10 → exec (.stallSadd st sd sa sb) s = put sd (readS j sa + readS j sb)) ∧
      (can 0x11 → exec (.stallSsub st sd sa sb) s = put sd (readS j sa - readS j sb)) ∧
      (can 0x12 → exec (.stallSmul st sd sa sb) s = put sd (readS j sa * readS j sb))) ∧
    (∀ sd sa imm, let can := fun opc => Issuing st opc (fieldsS sd sa ++ [(13, 0, imm)]) [(.s, sa)] words j s
      (can 0x13 → exec (.stallSaddi st sd sa imm) s = put sd (readS j sa + (BitVec.ofNat 14 imm).signExtend 32)) ∧
      (can 0x14 → exec (.stallSmuli st sd sa imm) s = put sd (readS j sa * BitVec.ofNat 32 imm)) ∧
      (can 0x15 → exec (.stallSshli st sd sa imm) s = put sd (readS j sa <<< (imm % 32))) ∧
      (can 0x16 → exec (.stallSshri st sd sa imm) s = put sd (readS j sa >>> (imm % 32))) ∧
      (can 0x17 → exec (.stallSandi st sd sa imm) s = put sd (readS j sa &&& BitVec.ofNat 32 imm)) ∧
      (can 0x18 → exec (.stallSori st sd sa imm) s = put sd (readS j sa ||| BitVec.ofNat 32 imm))) ∧
    (∀ sd imm, Issuing st 0x19 [(25, 22, sd), (21, 0, imm)] [] words j s →
      exec (.stallSlui st sd imm) s = put sd (BitVec.ofNat 32 (imm * 1024)))

/-- The registers of a job (R198): S0 reads as zero and a write of it changes no register; a write of S[r], V[r] or A[r] that the file
has is read back from it, and leaves every other register of every class, MODE, the windows and the counts as they were. -/
def Obligations.StallRegistersAreSeparate : Prop :=
  ∀ (j : Job) (r : Nat) (x : W32) (v : List W16) (a : List W32),
    readS j 0 = 0 ∧ writeS 0 x j = j ∧
    (0 < r → r < j.s.length → readS (writeS r x j) r = x) ∧
    (r < j.v.length → readV (writeV r v j) r = v) ∧
    (r < j.a.length → readA (writeA r a j) r = a.map (·.toNat)) ∧
    (∀ i, i ≠ r → readS (writeS r x j) i = readS j i ∧ readV (writeV r v j) i = readV j i ∧ readA (writeA r a j) i = readA j i) ∧
    (∀ i, readV (writeS r x j) i = readV j i ∧ readA (writeS r x j) i = readA j i ∧ readS (writeV r v j) i = readS j i ∧
      readA (writeV r v j) i = readA j i ∧ readS (writeA r a j) i = readS j i ∧ readV (writeA r a j) i = readV j i) ∧
    (∀ k, k = writeS r x j ∨ k = writeV r v j ∨ k = writeA r a j →
      k.mode = j.mode ∧ k.pc = j.pc ∧ k.wins = j.wins ∧ k.sat = j.sat ∧ k.segs = j.segs ∧ k.acts = j.acts ∧ k.jid = j.jid)

/-- The lane instructions that write a V register (R204–R206): the exact sum, difference or product of each lane pair narrowed as MODE
asks, the larger or smaller of each pair, the low half of an S register in every lane, a copy, unpacked 4- and 8-bit elements,
reciprocal square roots and reciprocals, and a converted accumulator. A lane for which the manual states no value gets a free one; a
converted value that an INT16 lane cannot hold as it is counts in TIL_NONFINITE (R251, R263). Readings of the model's own: log entries
41, 46. -/
def Obligations.StallLanesCompute : Prop :=
  ∀ (st : Nat) (words : List Nat) (j : Job) (s : State),
    let lt := modeLt j.mode
    let tr := modeTrunc j.mode
    let put : Nat → List (Option Nat) → Host.Outcome State Fault Refusal := fun vd xs =>
      .next (withJob st (writeV vd ((fillLanes s.free xs).map (BitVec.ofNat 16 ·)) (advanced words j))
        (if anyUnstated xs then takeFree 1 s else s))
    let convert : Nat → List Fv → Host.Outcome State Fault Refusal := fun vd vs =>
      let lost := (vs.filter (laneLacks lt)).length
      let t := if lost = 0 then s else onTilCounts j.part (fun c => { c with nonfinite := wrap64 (c.nonfinite + lost) }) s
      let xs := vs.map (laneNarrow lt tr)
      .next (withJob st (writeV vd ((fillLanes t.free xs).map (BitVec.ofNat 16 ·)) (advanced words j))
        (if anyUnstated xs then takeFree 1 t else t))
    (∀ vd va vb, let can := fun opc => Issuing st opc (fieldsR3 vd va vb) [(.v, va), (.v, vb)] words j s
      let pair : (W16 → W16 → Option Nat) → List (Option Nat) := fun f => List.zipWith f (readV j va) (readV j vb)
      (can 0x23 → exec (.stallVadd st vd va vb) s = put vd (pair (laneExact faddX lt tr))) ∧
      (can 0x24 → exec (.stallVsub st vd va vb) s = put vd (pair (laneExact (fun x y => faddX x (fneg y)) lt tr))) ∧
      (can 0x25 → exec (.stallVmul st vd va vb) s = put vd (pair (laneExact fmulX lt tr))) ∧
      (can 0x26 → exec (.stallVmax st vd va vb) s = put vd (pair (lanePick lt true))) ∧
      (can 0x27 → exec (.stallVmin st vd va vb) s = put vd (pair (lanePick lt false)))) ∧
    (∀ vd ss, Issuing st 0x28 [(25, 23, vd), (16, 13, ss)] [(.s, ss)] words j s →
      exec (.stallVbcast st vd ss) s =
        .next (withJob st (writeV vd (List.replicate 32 ((readS j ss).setWidth 16)) (advanced words j)) s)) ∧
    (∀ vd va, let can := fun opc => Issuing st opc [(25, 23, vd), (22, 20, va)] [(.v, va)] words j s
      (can 0x29 → exec (.stallVmov st vd va) s = .next (withJob st (writeV vd (readV j va) (advanced words j)) s)) ∧
      (can 0x2C → exec (.stallVrsq st vd va) s = put vd ((readV j va).map (laneRsqrt lt))) ∧
      (can 0x2D → exec (.stallVrcp st vd va) s = put vd ((readV j va).map (laneRecip lt)))) ∧
    (∀ vd va ss quarter fp4 fp8, Issuing st 0x2A
      [(25, 23, vd), (22, 20, va), (16, 13, ss), (12, 11, quarter), (10, 10, b2n fp4), (9, 9, b2n fp8)] [(.v, va), (.s, ss)]
      words j s → exec (.stallUnpk4 st vd va ss quarter fp4 fp8) s =
        convert vd (unpack4 (readV j va) quarter fp4 fp8 ((readS j ss).toNat % 256))) ∧
    (∀ vd va upper ef, Issuing st 0x2B [(25, 23, vd), (22, 20, va), (12, 12, b2n upper), (11, 10, ef)] [(.v, va)] words j s →
      exec (.stallUnpk8 st vd va upper ef) s = convert vd (unpack8 (readV j va) upper ef)) ∧
    (∀ vd aa, Issuing st 0x35 [(25, 23, vd), (22, 20, aa)] [(.a, aa)] words j s →
      exec (.stallCvt st vd aa) s = convert vd ((readA j aa).map (accValue (modeInt j.mode))))

/-- The accumulator instructions (R204, R206): products and squared differences of lanes added to an accumulator, sums and products of
accumulators, a widened V register, the reciprocal square root of R206, zero; and the fixed tree of ARED into an S register. SAT is
set by a result that saturates and never cleared; a lane for which the manual states no value gets a free one.
Readings of the model's own: log entries 41, 46. -/
def Obligations.StallAccumulatorsCompute : Prop :=
  ∀ (st : Nat) (words : List Nat) (j : Job) (s : State),
    let lt := modeLt j.mode
    let int := modeInt j.mode
    let put : Nat → List AccOut → Host.Outcome State Fault Refusal := fun ad xs =>
      .next (withJob st (writeA ad ((fillLanes s.free (xs.map (·.1))).map (BitVec.ofNat 32 ·))
        { advanced words j with sat := j.sat || xs.any (·.2) }) (if anyUnstated (xs.map (·.1)) then takeFree 1 s else s))
    let into : Nat → (W16 → W16 → AccOut) → List W16 → List W16 → List AccOut := fun ad f xs ys =>
      List.zipWith (accInto int) (readA j ad) (List.zipWith f xs ys)
    (∀ ad va vb, let can := fun opc => Issuing st opc (fieldsR3 ad va vb) [(.a, ad), (.v, va), (.v, vb)] words j s
      (can 0x20 → exec (.stallVmac st ad va vb) s = put ad (into ad (laneProduct lt int) (readV j va) (readV j vb))) ∧
      (can 0x22 → exec (.stallVsqd st ad va vb) s = put ad (into ad (laneSquare lt int) (readV j va) (readV j vb)))) ∧
    (∀ ad va ss, Issuing st 0x21 [(25, 23, ad), (22, 20, va), (16, 13, ss)] [(.a, ad), (.v, va), (.s, ss)] words j s →
      exec (.stallVmacs st ad va ss) s =
        put ad (into ad (laneProduct lt int) (readV j va) (List.replicate 32 ((readS j ss).setWidth 16)))) ∧
    (∀ ad, Issuing st 0x30 [(25, 23, ad)] [] words j s →
      exec (.stallAclr st ad) s = .next (withJob st (writeA ad (List.replicate 32 0) (advanced words j)) s)) ∧
    (∀ ad aa, let can := fun opc => Issuing st opc [(25, 23, ad), (22, 20, aa)] [(.a, ad), (.a, aa)] words j s
      (can 0x31 → exec (.stallAadd st ad aa) s = put ad (List.zipWith (accAdd int) (readA j ad) (readA j aa))) ∧
      (can 0x32 → exec (.stallAmul st ad aa) s = put ad (List.zipWith (accMul int) (readA j ad) (readA j aa)))) ∧
    (∀ ad ss, Issuing st 0x33 [(25, 23, ad), (16, 13, ss)] [(.a, ad), (.s, ss)] words j s →
      exec (.stallAmuls st ad ss) s =
        put ad (List.zipWith (accMul int) (readA j ad) (List.replicate 32 (readS j ss).toNat))) ∧
    (∀ ad va, Issuing st 0x34 [(25, 23, ad), (22, 20, va)] [(.v, va)] words j s →
      exec (.stallAwid st ad va) s = put ad ((readV j va).map (laneWiden lt int))) ∧
    (∀ ad aa ss, Issuing st 0x37 [(25, 23, ad), (22, 20, aa), (16, 13, ss)] [(.a, aa), (.s, ss)] words j s →
      exec (.stallArsq st ad aa ss) s =
        put ad (List.zipWith (accRsqrt int) (readA j aa) (List.replicate 32 (readS j ss).toNat))) ∧
    (∀ ss aa, Issuing st 0x36 [(16, 13, ss), (22, 20, aa)] [(.a, aa)] words j s →
      let t := accTree int 5 (readA j aa)
      exec (.stallAred st ss aa) s =
        .next (withJob st (writeS ss (BitVec.ofNat 32 (t.1.getD 0)) { advanced words j with sat := j.sat || t.2 }) s))

/-- The memory instructions and LOAD_DATA_ARRIVAL (R200–R202, R204): an access out of its window ends the job with FAULT 1, a misaligned
one with FAULT 2; while a row it touches is not open, or a load finds eight outstanding, it waits; else a store writes its bytes to
the region byte of the window, a load joins the outstanding ones with the data read, and INC adds the size to the scalar address.
An LDS with INC into its own address adds the size to what
arrives. A load's data reach its register when they arrive, unless a later write overtook it.
Readings of the model's own: log entry 45. -/
def Obligations.StallMemoryGoesThroughWindows : Prop :=
  ∀ (st reg w sa : Nat) (inc : Bool) (imm : Nat) (words : List Nat) (j : Job) (s : State),
    let at' : Nat → Except Nat (Nat × Nat) := fun size => accessAt j w sa imm size
    let bump : Nat → Job → Job := fun size k => if inc then writeS sa (readS j sa + BitVec.ofNat 32 size) k else k
    let can := fun opc extra => Issuing st opc (fieldsM reg w sa inc imm) ((.s, sa) :: extra) words j s
    let opened : Nat → Nat → Nat → Prop := fun size r b =>
      (accessRows r b size s).all (rowOpen (getStall st s)) = true
    let row : Nat → Instr := fun opc =>
      if opc = 0x08 then .stallLd st reg w sa inc imm else if opc = 0x09 then .stallSt st reg w sa inc imm
      else if opc = 0x0A then .stallLda st reg w sa inc imm else if opc = 0x0B then .stallSta st reg w sa inc imm
      else if opc = 0x0C then .stallLds st reg w sa inc imm else .stallSts st reg w sa inc imm
    let reads : Nat → List (RegClass × Nat) := fun opc =>
      if opc = 0x09 then [(.v, reg)] else if opc = 0x0B then [(.a, reg)] else if opc = 0x0D then [(.s, reg)] else []
    (∀ opc, 8 ≤ opc → opc ≤ 13 → can opc (reads opc) →
      (∀ f, at' (accessSize opc) = .error f → exec (row opc) s = .next (withJob st (faultJob f (advanced words j)) s)) ∧
      (∀ r b, at' (accessSize opc) = .ok (r, b) → ¬ opened (accessSize opc) r b → exec (row opc) s = .next s)) ∧
    (∀ opc bytes, (opc = 0x09 ∧ bytes = (readV j reg).flatMap (fun x => leBytes 2 x.toNat)) ∨
        (opc = 0x0B ∧ bytes = (readA j reg).flatMap (leBytes 4)) ∨ (opc = 0x0D ∧ bytes = leBytes 4 (readS j reg).toNat) →
      can opc (reads opc) → ∀ r b, at' (accessSize opc) = .ok (r, b) → opened (accessSize opc) r b →
      exec (row opc) s = .next (withJob st (bump (accessSize opc) (advanced words j))
        (onRegion r (fun x => { x with mem := writeBytes x.mem b bytes }) s))) ∧
    (∀ opc cls, (opc = 0x08 ∧ cls = RegClass.v) ∨ (opc = 0x0A ∧ cls = .a) ∨ (opc = 0x0C ∧ cls = .s ∧ ¬(inc = true ∧ reg = sa ∧ sa ≠ 0)) →
      can opc [] → j.loads.length < 8 → ∀ r b, at' (accessSize opc) = .ok (r, b) → opened (accessSize opc) r b →
      let data := readBytes (((getRegion r s).map (·.mem)).getD []) b (accessSize opc)
      exec (row opc) s = .next (withJob st (bump (accessSize opc) { advanced words j with
        loads := overtake cls reg j.loads ++
          [{ cls := cls, reg := reg, data := data, plus := 0, live := !(cls == .s && reg == 0) }] }) s)) ∧
    (reg = sa → sa ≠ 0 → inc = true → can 0x0C [] → j.loads.length < 8 → ∀ r b, at' 4 = .ok (r, b) → opened 4 r b →
      let data := readBytes (((getRegion r s).map (·.mem)).getD []) b 4
      exec (.stallLds st reg w sa inc imm) s = .next (withJob st { advanced words j with
        loads := overtake .s reg j.loads ++ [{ cls := .s, reg := reg, data := data, plus := 4, live := true }] } s)) ∧
    (∀ n, exec (.loadDataArrival st n) s = .next (onStall st (fun x => { x with jobs := arriveIn n x.jobs }) s)) ∧
    (∀ (l : Load) (ls : List Load) (k : Job) (js : List Job), k.loads = l :: ls →
      arriveIn 0 (k :: js) = arrive l { k with loads := ls } :: js)

/-- ROP (R215, R224–R226): a row out of its window or misaligned faults, rows of different banks fault as BANK, the instruction waits
for its activation, and then writes the 1,024 bytes of the copy, complement, AND, OR or XOR of its operands to D.
Readings of the model's own: log entry 45. -/
def Obligations.StallRowOperationsCompute : Prop :=
  ∀ (st op wd sd wa sa wb sb : Nat) (words : List Nat) (j : Job) (s : State), j.pc < words.length →
    Issuing st 0x0E [(25, 23, op), (22, 20, wd), (19, 16, sd), (15, 13, wa), (12, 9, sa), (8, 6, wb), (5, 2, sb)]
      ([(.s, sd), (.s, sa)] ++ if op < 2 then [] else [(.s, sb)]) words j s →
    let rop : Instr := .stallRop st op wd sd wa sa wb sb
    let j' := advanced words j
    (∀ f, ropOperands j (wordAt words j.pc) = .error f → exec rop s = .next (withJob st (faultJob f j') s)) ∧
    (∀ d a b, ropOperands j (wordAt words j.pc) = .ok (d, a, b) →
      (ropBanks (op < 2) d a b s = false → exec rop s = .next (withJob st (faultJob 3 j') s)) ∧
      (ropBanks (op < 2) d a b s = true → (getStall st s).ropReady = false → exec rop s = .next s) ∧
      (ropBanks (op < 2) d a b s = true → (getStall st s).ropReady = true →
        let get : Nat × Nat → List Byte := fun x => readBytes (((getRegion x.1 s).map (·.mem)).getD []) x.2 1024
        exec rop s = .next (withJob st j' (onStall st (fun x => { x with ropReady := false })
          (onRegion d.1 (fun r =>
            let out := List.zipWith (rowByte op) (get a) (if op < 2 then get a else get b)
            { r with mem := writeBytes r.mem d.2 out }) s)))))

/-! Jobs on stalls (chapter 7). -/

/-- ACTIVATION_BOUNDARY (R213–R215, R217, R231): the hub accesses that have come are served, but those to the write set of the running
segment, which wait for its end. Then, at a powered stall that serves, a running segment that has to end closes, with its refresh debt
paid, and the next ready job's segment opens, unless a word of the state or image it loads is lost, which ends the job; else a
pseudo-channel that owes eight refreshes pays one and pauses the stall; then the running job may activate. What jobs have done or met is
carried to their commands. Readings of the model's own: log entry 45. -/
def Obligations.BoundariesEndAndOpenSegments : Prop :=
  (∀ (n ns : Nat) (hub : List (Nat × Nat)) (ecc : EccOutcome) (row unit : Nat) (s : State),
    let u := serveHub n ns hub s
    n < 256 → (getStall n u).gated = false → stallHeld n u = false →
    let answers : State → Prop := fun t => exec (.activationBoundary n ns hub ecc row unit) s = .next (pump (settleJobs t))
    (runningJob (getStall n u) = none → answers (nextSegment n ns ecc row unit u)) ∧
    (∀ j, runningJob (getStall n u) = some j →
      (segmentEnds n (getStall n u) j ns u = true → answers (nextSegment n ns ecc row unit (closeSegment n ns u))) ∧
      (segmentEnds n (getStall n u) j ns u = false →
        (getDebt n u = 8 → answers (activate n ns ecc row unit (onStall n (fun x => { x with paused := true })
          (onStack (n / 32) (fun t => { t with
            refPauses := wrap64 (t.refPauses + 1), refreshes := wrap64 (t.refreshes + 1) }) (setDebt n 7 u))))) ∧
        (getDebt n u ≠ 8 → answers (activate n ns ecc row unit u))))) ∧
  (∀ (n ns row t : Nat) (s : State),
    let access : HubAccess := { row := row, since := t, write := none }
    (inWriteSet n row s = true → serveHub n ns [(row, t)] s = holdAccess n access s) ∧
    (inWriteSet n row s = false → serveHub n ns [(row, t)] s = serveAccess n ns s access)) ∧
  (∀ (n ns : Nat) (ecc : EccOutcome) (row unit : Nat) (s : State),
    let t := openSegment n ns s
    (∀ j, runningJob (getStall n t) = some j → ecc = .uncorrectable →
      nextSegment n ns ecc row unit s = activationFails n j row unit ns t) ∧
    (runningJob (getStall n t) = none ∨ ecc ≠ .uncorrectable →
      nextSegment n ns ecc row unit s = activate n ns ecc row unit t))

/-- What an activation asks (R215, R220, R221, R226, R232): weight 1 for a row and 3 for a row operation; it pauses its stall while the
stall's last 40 ns would exceed weight 4, and waits for its turn while the stack's last 1 µs would exceed its budget, which is the one
written before until the next 1 µs window begins; else it is counted in the window, the stack, the stall and the job, and its row is
open or its row operation granted; a codeword that is lost ends the job instead. Readings of the model's own: log entry 45. -/
def Obligations.ActivationsFollowTheWindows : Prop :=
  (∀ (n ns row unit : Nat) (ecc : EccOutcome) (j : Job) (s : State), runningJob (getStall n s) = some j →
    let x := getStall n s
    let t := getStack (n / 32) s
    let need := jobNeed n x j s
    let w := needWeight need
    let counted := onJob n j.jid (fun j => { j with acts := j.acts + w })
      (onStall n (fun x => { x with
        recent := (ns, w) :: within 40 ns x.recent, segW := x.segW + w, paused := false, budgetWait := false })
        (onStack (n / 32) (fun t => { t with
          window := (ns, w) :: within 1000 ns t.window, turn := (n % 32 + 1) % 32,
          acts := wrap64 (t.acts + w), rowOps := wrap64 (t.rowOps + b2n (w == 3)), nowActs := t.nowActs + w }) s))
    (w = 0 → activate n ns ecc row unit s = s) ∧
    (w ≠ 0 → 4 < weightOf (within 40 ns x.recent) + w →
      activate n ns ecc row unit s = onStall n (fun x => { x with paused := true }) s) ∧
    (w ≠ 0 → weightOf (within 40 ns x.recent) + w ≤ 4 →
      (budgetAt ns t < weightOf (within 1000 ns t.window) + w ∨ behindOthers n s = true →
        activate n ns ecc row unit s = onStall n (fun x => { x with paused := true, budgetWait := true })
          (onStack (n / 32) (fun t => { t with budgetWaits := wrap64 (t.budgetWaits + b2n (!x.budgetWait)) }) s)) ∧
      (weightOf (within 1000 ns t.window) + w ≤ budgetAt ns t → behindOthers n s = false →
        (ecc = .clean → activate n ns ecc row unit s = activationEffect n j need counted) ∧
        (ecc = .uncorrectable → activate n ns ecc row unit s = activationFails n j row unit ns counted)))) ∧
  (∀ (ns : Nat) (t : Stack), budgetAt ns t = if ns / 1000 < t.budgetFrom then t.budgetWas else t.budget)

/-- REFRESH_DEBT_INCREMENT and REFRESH_CLASS_EVALUATION (R217–R219): the debt of a pseudo-channel rises by one up to eight, is paid at
once where no segment runs, and its highest value is kept; the classes of a stack follow its temperature and its activations of the
last ten 100 µs, and its multiplier rises with them at once. Readings of the model's own: log entry 45. -/
def Obligations.RefreshFollowsHeatAndUse : Prop :=
  (∀ (stack pc : Nat) (s : State),
    let n := 32 * stack + pc
    let d := min 8 (getDebt n s + 1)
    let t := onStack stack (fun t => { t with debtMax := max t.debtMax d }) s
    ((getStall n s).run ≠ none → exec (.refreshDebtIncrement stack pc) s = .next (setDebt n d t)) ∧
    ((getStall n s).run = none → exec (.refreshDebtIncrement stack pc) s =
      .next (onStack stack (fun t => { t with refreshes := wrap64 (t.refreshes + d) }) (setDebt n 0 t)))) ∧
  (∀ (stack temp : Nat) (s : State),
    exec (.refreshClassEvaluation stack temp) s = .next (onStack stack (evalRefresh temp) s)) ∧
  (∀ (temp : Nat) (t : Stack),
    let act := t.nowActs + t.recentActs.foldl (· + ·) 0
    let heat := if temp ≤ 85 then 0 else if temp ≤ 95 then 1 else 2
    let use := if 1000 * t.act4 ≤ act then 2 else if 1000 * t.act2 ≤ act then 1 else 0
    (evalRefresh temp t).tempClass = heat ∧ (evalRefresh temp t).actClass = use ∧
    (t.mult ≤ max heat (max use t.multMin) → (evalRefresh temp t).mult = max heat (max use t.multMin)) ∧
    (max heat (max use t.multMin) < t.mult → t.fallRun + 1 < 100 → (evalRefresh temp t).mult = t.mult) ∧
    (max heat (max use t.multMin) < t.mult → 100 ≤ t.fallRun + 1 →
      (evalRefresh temp t).mult = max t.fallTo (max heat (max use t.multMin))))

/-- STALL_RUN and the forms of ROW_OP (R194, R198, R209–R212, R227–R230, R98): a STALL_RUN whose checks pass gives each launch a program
job on its stall with its windows, its scalars and the image's MODE; ROW_OP PLAIN gives each pseudo-channel a service job with its
entries; DERIVE sets the slot BUILDING with its recipe and the index's CSN and gives each pseudo-channel its row operations; CLEAR
empties the slot and completes OK. An unknown FORM completes BAD_PARAM. Readings of the model's own: log entry 97. -/
def Obligations.StallCommandsQueueJobs : Prop :=
  ∀ (c : CmdRef) (d : CmdIn) (k : Cmd) (ps inp : List Byte) (s : State),
    let t := running c s
    let p := cmdPart k
    (Due 0x28 anyForm c d k ps inp s → stallRunCheck k ps inp s = .go →
      let n := field ps 0 2
      let run : StallRun := { ref := k.ref, part := p, launches := n, records := [], ended := 0, faulted := false, bad := none,
                              resultOk := d.resultOk }
      let launch : State → Nat → State := fun s i =>
        let l := launchBytes ps i
        addJob (field l 0 2) { newJob k.ref p k.queue.q i (.program (imageWords inp)) with
          wins := (List.range 8).map (launchWindow l)
          s := [0] ++ (List.range 7).map (fun r => BitVec.ofNat 32 (field l (4 + 4 * r) 4)) ++ List.replicate 8 0
          mode := field inp 10 1, maxSegs := field ps 4 4 } s
      exec (.stallRun c d) s = .next ((List.range n).foldl launch (onStk (fun x => { x with runs := x.runs ++ [run] }) t))) ∧
    (Due 0x29 (fun ps => field ps 0 1 == 0 || 2 < field ps 0 1) c d k ps inp s →
      (field ps 0 1 = 0 → rowPlainCheck k ps inp s = .go →
        let es := (List.range (field ps 20 4)).map (rowEntry inp)
        let stallOf : RowEntry → Nat := fun e => ((getRegion e.dReg t).map (·.stall)).getD 0
        let stalls := distinct (es.map stallOf)
        exec (.rowOpPlain c d) s = .next (stalls.foldl (fun s n =>
          addJob n (newJob k.ref p k.queue.q 0 (.rows (es.filter fun e => stallOf e == n) 0)) s)
          (addRowCmd (newRowCmd k 0 0 stalls.length []) t))) ∧
      (2 < field ps 0 1 → exec (.rowOpPlain c d) s = .next (complete c stBadParam 0 0 [] s))) ∧
    (∀ ix, Due 0x29 (fun ps => field ps 0 1 == 1) c d k ps inp s → rowDeriveCheck k ps inp s = .go →
      getIndex k.handle s = some ix →
      let cmd := newRowCmd k 1 (field ps 1 1) (min 256 (bitmapRows ix)) (recipeTerms ps)
      let built := onIndex k.handle (onFilter (field ps 1 1) fun _ =>
        { state := .building, terms := recipeTerms ps, refs := 0, csn := ix.csn }) t
      exec (.rowOpDerive c d) s = .next (deriveJobs cmd k.queue.q (bitmapRows ix) (addRowCmd cmd built))) ∧
    (Due 0x29 (fun ps => field ps 0 1 == 2) c d k ps inp s → rowClearCheck k ps inp s = .go →
      let clear := clearFilter (field ps 1 1)
      exec (.rowOpClear c d) s =
        .next (completeSt k.ref stOk (onMeta k.handle clear (onIndex k.handle clear t))))

/-! Models and tiles (chapters 8 and 9). -/

/-- The operations of MODEL_LOAD (R276–R280, R254, R261, R286): BEGIN enters a LOADING model with its header; CHUNK writes its bytes into
the image and notes the range; COMMIT makes a wholly written, good image READY with the scale records of every context, its activation
buffers and the pinned rows of its STALL layers, frees one for which no room is left with NO_RESOURCE, and any other with BAD_PARAM;
UNLOAD frees the model and what the shelf holds of it, and ends what still waits for it; RESET_SCALES waits for the steps of its
context, then writes the records anew; READ_SCALES gives them. Each completes OK but where said otherwise.
Readings of the model's own: log entries 49, 50, 118. -/
def Obligations.ModelsLoadInSteps : Prop :=
  ∀ (c : CmdRef) (d : CmdIn) (k : Cmd) (ps inp : List Byte) (s : State),
    let t := running c s
    (Due 0x20 (fun ps => opIs 0 ps || 5 < field ps 0 1) c d k ps inp s → loadBeginCheck k ps inp s = .go →
      exec (.modelLoadBegin c d) s = .next (completeSt k.ref stOk (onTil (fun x => { x with
        models := tput x.models k.handle (newModel (cmdPart k) (field ps 16 4) inp t) }) t))) ∧
    (Due 0x20 (opIs 1) c d k ps inp s → loadChunkCheck k ps inp s = .go →
      exec (.modelLoadChunk c d) s = .next (completeSt k.ref stOk (onModel k.handle (fun m => { m with
        image := writeBytes m.image (field ps 8 8) inp,
        written := addRange (field ps 8 8, field ps 8 8 + inp.length) m.written }) t))) ∧
    (∀ m, getModel k.handle s = some m →
      (Due 0x20 (opIs 2) c d k ps inp s → loadParamsBad k ps = false → modelStatus k s = none → m.ready = false →
        (fullyWritten m = true → imageGood m = true →
          let m' := readyModel m t
          let room := dramOk m.part (onModel k.handle (fun _ => m') t) = true ∧
            pinsFit (fun n => (stallBytes m' n + 1023) / 1024) m'.rows = true
          m'.ready = true ∧ m'.recs = (ctxNumbers m.part s).map (fun n => (n, newRecs m)) ∧
          m'.dram = m.dram - stallImage m + actBytes m ∧
          (room → exec (.modelLoadCommit c d) s = .next (completeSt k.ref stOk (onModel k.handle (fun _ => m') t))) ∧
          (¬room → exec (.modelLoadCommit c d) s = .next (completeSt k.ref stNoResource (freeModel k.handle t)))) ∧
        (fullyWritten m = false ∨ imageGood m = false →
          exec (.modelLoadCommit c d) s = .next (completeSt k.ref stBadParam (freeModel k.handle t)))) ∧
      (Due 0x20 (opIs 3) c d k ps inp s → loadParamsBad k ps = false → modelStatus k s = none → m.pinned = false →
        modelRuns k.handle s = false →
        exec (.modelLoadUnload c d) s = .next (completeSt k.ref stOk (freeModel k.handle (endModelUsers k.handle t)))) ∧
      (Due 0x20 (opIs 4) c d k ps inp s → loadParamsBad k ps = false → modelStatus k s = none → m.ready = true →
        tget? m.recs (field ps 1 1) ≠ none →
        exec (.modelLoadResetScales c d) s = .next (settleResets (onTil (fun x => { x with
          resets := x.resets ++ [(k.ref, k.handle, field ps 1 1)] }) t))) ∧
      (Due 0x20 (opIs 5) c d k ps inp s → loadParamsBad k ps = false → modelStatus k s = none → m.ready = true →
        tget? m.recs (field ps 1 1) ≠ none → (scaleBytes m (field ps 1 1)).length ≤ k.resultLen →
        exec (.modelLoadReadScales c d) s =
          .next (finish k.ref d.resultOk stOk 0 0 (scaleBytes m (field ps 1 1)) t)))

/-- MODEL_RUN, MODEL_PIN (R282, R283, R285, R289–R291): a run whose checks pass waits for its layers with its input at hand, or for the
block of the stage before; a PIN waits until every eligible layer is resident, then pins and counts them; UNPIN unpins at once.
Readings of the model's own: log entry 56. -/
def Obligations.ModelsRunAndArePinned : Prop :=
  ∀ (c : CmdRef) (d : CmdIn) (k : Cmd) (ps inp : List Byte) (s : State),
    let t := running c s
    (Due 0x21 anyForm c d k ps inp s → runCheck k ps inp s = .go → k.epoch = 0 →
      exec (.modelRun c d) s = .next (feedRuns (onTil (fun x => { x with runs := x.runs ++ [{
        ref := k.ref, part := cmdPart k, ctx := k.queue.q, handle := k.handle, rows := runRows ps, srcBulk := runSrcBulk ps,
        dstBulk := runDstBulk ps, seq := runSeq ps, comp := 0, input := if runSrcBulk ps then none else parseAct inp 0,
        outs := [], picked := [], steps := [], sending := false, slot := 0, resultOk := d.resultOk, bad := none }] }) t))) ∧
    (Due 0x22 (fun ps => !opIs 1 ps) c d k ps inp s → pinCheck true k ps inp s = .go →
      exec (.modelPin c d) s = .next (settlePins (onTil (fun x => { x with
        pins := x.pins ++ [{ ref := k.ref, handle := k.handle }] }) t))) ∧
    (Due 0x22 (opIs 1) c d k ps inp s → pinCheck false k ps inp s = .go →
      exec (.modelUnpin c d) s = .next (completeSt k.ref stOk (onModel k.handle (fun m => { m with pinned := false }) t)))

/-- LAYER_STEP_START, LAYER_STEP_END and TILE_LATE_STOP (R255–R259, R269, R275, R278, R283, R286, R287): a ready layer of a run whose
context runs, with its record free and room in staging, starts on its tiles with its scale record's scales and FREEZE, a STALL layer as
jobs on the stalls of its rows, a SELECT layer as rows for the selectors; once all that runs the step has ended, with its DMA done,
the step ends: a SELECT layer gives its picks, any other its output, its record and its counts, a re-run only after its reads; a tile
that reached no BAR 199 µs after a posted stop puts the step back to its start. Readings of the model's own: log entries 54, 113. -/
def Obligations.StepsStartAndEnd : Prop :=
  (∀ (c : CmdRef) (i : Nat) (r : Run) (m : Model) (a : Act) (s : State),
    getModelRun c s = some r → getModel r.handle s = some m → layerInput r m (layerAt m i) = some a →
    let l := layerAt m i
    (∀ tiles, stepReady r m i s = true → recordTaken r m i s = false → ctxRuns r.part r.ctx s = true →
      (getPtn r.part s).stop = none → s.til.resets.any (fun x => x.2.1 == r.handle && x.2.2 == r.ctx) = false →
      stageRoom m i r.rows s = true → stepTiles r.part l s = some tiles →
      let use := startUse r.handle i m s
      let t := onModel r.handle (fun m => { m with lastUse := use.2.til.uses + 1 })
        (onTil (fun x => { x with uses := use.2.til.uses + 1 }) use.2)
      let first := newStep i tiles (runsAlt m l a) t.til.freeze (((getRec m r.ctx i).map (·.scales)).getD [])
        (outGroups (qdescAt m i)) r.rows use.1
      (l.kind = 0 → exec (.layerStepStart c i) s = .next (addStep c first t)) ∧
      (l.kind = 1 → exec (.layerStepStart c i) s = .next (startLayerJobs r m i
        (addStep c { first with stalls := layerStalls m i, stage := layerStage m i r.rows } t))) ∧
      (l.kind = 2 → exec (.layerStepStart c i) s = .next (queuePicks r i a.rows (addStep c first t)))) ∧
    (∀ st ecc place, getStep c i s = some st → ctxRuns r.part r.ctx s = true → stepDone m a.rows st = true →
      (l.kind = 2 → exec (.layerStepEnd c i ecc place) s = .next (deliverRun c (settleResets (closeStep c i (fun r => { r with
        picked := st.picks.flatMap (·.2), outs := tput r.outs i a }) s)))) ∧
      (∀ old, l.kind ≠ 2 → getRec m r.ctx i = some old →
        let x := layerCtx m i a st.alt st.scales
        let done := if l.kind = 1 then stallStep m l x st else st
        let e := endStats x r.rows done old
        let recorded : State → State := fun s =>
          let t := onTilCounts r.part (countStep x done e) (onModel r.handle (fun m => { m with
            recs := tput m.recs r.ctx (tput ((tget? m.recs r.ctx).getD []) i e.record) }) s)
          deliverRun c (settleResets (closeStep c i (fun r => { r with outs := tput r.outs i e.out }) t))
        let read := rerunRead c r done ecc place s
        (e.rerun = false → exec (.layerStepEnd c i ecc place) s = .next (recorded s)) ∧
        (e.rerun = true → read.2 = true → exec (.layerStepEnd c i ecc place) s = .next (recorded read.1)) ∧
        (e.rerun = true → read.2 = false → exec (.layerStepEnd c i ecc place) s = .next read.1)))) ∧
  (∀ (n now at0 : Nat) (x : TileCtx) (s : State),
    let t := atTime now s
    tileCtx n t = some x → (getPtn x.run.part t).stop = some at0 → at0 + 199 ≤ timeUs t → x.work.ended = false →
    x.work.fresh = false → x.work.late = false →
    exec (.tileLateStop n now) s = .next (onShf x.run.part (fun c => { c with restarts := wrap64 (c.restarts + 1) })
      (onPart x.run.part (fun p => { p with counts := { p.counts with tileLate := wrap64 (p.counts.tileLate + 1) } })
        (onStep x.ref x.step.layer (restartStep x.run.rows) t))))

/-- SHELF_FILL and SHELF_FILL_COMPLETE (R289–R291): a step that waits joins a fill of its layer, or starts one when eviction makes room,
or streams, counted; a PIN starts a fill of an eligible layer that is neither resident nor being filled; a fill that ends is resident
and counted, and the PINs that waited for it complete; one that met a lost word leaves the shelf and ends what reads it (R293). A
command that is no PIN fills nothing for one.
Readings of the model's own: log entry 54. -/
def Obligations.ShelfFillsServeSteps : Prop :=
  (∀ (c : CmdRef) (i : Nat) (r : Run) (st : Step) (m : Model) (s : State),
    getModelRun c s = some r → getStep c i s = some st → getModel r.handle s = some m → st.use = .pending →
    let f := startFill r.handle i m s
    let go : State → Host.Outcome State Fault Refusal := fun t => .next (pinFill c i t)
    (shelfImage r.handle i s ≠ none → exec (.shelfFill c i) s = go (onStep c i (fun x => { x with use := .shelf }) s)) ∧
    (shelfImage r.handle i s = none →
      (f.2 = true → exec (.shelfFill c i) s = go (onStep c i (fun x => { x with use := .shelf }) f.1)) ∧
      (f.2 = false → exec (.shelfFill c i) s = go (onStep c i (fun x => { x with use := .stream })
        (onShf m.part (fun k => { k with streamed := wrap64 (k.streamed + 1) }) f.1))))) ∧
  (∀ (c : CmdRef) (i : Nat) (s : State), s.til.pins.find? (·.ref == c) = none → pinFill c i s = s) ∧
  (∀ (c : CmdRef) (i : Nat) (k : PinCmd) (m : Model) (s : State), getModelRun c s = none →
    s.til.pins.find? (·.ref == c) = some k → getModel k.handle s = some m → eligible m i s = true → i < m.layers →
    shelfImage k.handle i s = none → exec (.shelfFill c i) s = .next (startFill k.handle i m s).1) ∧
  (∀ (h i : Nat) (x : ShelfImg) (ecc : EccOutcome) (place : MemPlace) (s : State),
    shelfImage h i s = some x → x.filling = true →
    let read := dramRead ((fillUsers h i s).head?.bind fun c => findCmd c s) ecc place s
    (read.2 = none → exec (.shelfFillComplete h i ecc place) s = .next (endFill h i read.1)) ∧
    (∀ seq dropped, read.2 = some (seq, dropped) →
      exec (.shelfFillComplete h i ecc place) s = .next (fillLost h i seq dropped read.1)) ∧
    endFill h i s = settlePins (onShf x.part (fun c => { c with fillBytes := wrap64 (c.fillBytes + x.bytes) })
      (onTil (fun t => { t with shelf := updWhere (· == x) (fun y => { y with filling := false }) t.shelf }) s)))

/-- The tile instructions that direct a program, and the scalar ones (R268, R275): each moves the PC on; END ends the tile; BAR makes it
wait until every tile of the layer has reached it; LOOP decrements and jumps unless it reaches zero; BRZ jumps on zero; WAIT passes
once no transfer of its tokens is outstanding; sums, products and shifts go into S[D] modulo 2^32. -/
def Obligations.TileProgramsAreDirected : Prop :=
  ∀ (t : Nat) (x : TileCtx) (s : State),
    let w := pastWord x
    let put : TileWork → Host.Outcome State Fault Refusal := fun w => .next (setWork x w s)
    (TileIssuing t 0x00 [] x s → exec (.tileNop t) s = put w) ∧
    (TileIssuing t 0x01 [] x s → exec (.tileEnd t) s = put { w with ended := true }) ∧
    (TileIssuing t 0x02 [] x s → exec (.tileBar t) s = .next (onStep x.ref x.step.layer releaseBars
      (setWork x { w with bars := w.bars + 1, atBar := true, fresh := true } s))) ∧
    (∀ sd target, TileIssuing t 0x03 [(55, 52, sd), (11, 0, target)] x s →
      let v := setSreg sd ((sreg x.work sd + 2 ^ 32 - 1) % 2 ^ 32) w
      exec (.tileLoop t sd target) s = put (if sreg v sd ≠ 0 then { v with pc := target } else v)) ∧
    (∀ sd target, TileIssuing t 0x04 [(55, 52, sd), (11, 0, target)] x s →
      exec (.tileBrz t sd target) s = put (if sreg x.work sd = 0 then { w with pc := target } else w)) ∧
    (∀ mask, TileIssuing t 0x0A [(15, 0, mask)] x s →
      exec (.tileWait t mask) s = if (x.work.dmas.any fun d => bit mask d.token) then .next s else put w) ∧
    (∀ sd sa sb, TileIssuing t 0x18 [(55, 52, sd), (51, 48, sa), (47, 44, sb)] x s →
      exec (.tileSadd t sd sa sb) s = put (setSreg sd ((sreg x.work sa + sreg x.work sb) % 2 ^ 32) w)) ∧
    (∀ sd sa imm, let can := fun opc => TileIssuing t opc (tileFieldsS sd sa imm) x s
      (can 0x19 → exec (.tileSaddi t sd sa imm) s = put (setSreg sd ((sreg x.work sa + imm) % 2 ^ 32) w)) ∧
      (can 0x1A → exec (.tileSmuli t sd sa imm) s = put (setSreg sd ((sreg x.work sa * imm) % 2 ^ 32) w)) ∧
      (can 0x1B → exec (.tileSshli t sd sa imm) s = put (setSreg sd ((sreg x.work sa * 2 ^ (imm % 32)) % 2 ^ 32) w)))

/-- The tile instructions that move data and compute (R270–R274): a transfer within its array and the SRAM joins the outstanding
ones, a layer array's waits while the fill is not decided, any other ends the command PARTIAL with layer and PC; a transfer
whose bytes are there and whose codewords are not lost moves them when it completes; MMA, EPI and VEC write what their rules
compute into accumulators, SRAM and the step's statistics, and one that does not fit ends the command the same way. Readings of
the model's own: log entries 51, 52, 53, 55. -/
def Obligations.TilesMoveAndCompute : Prop :=
  ∀ (t : Nat) (x : TileCtx) (s : State),
    (∀ (out : Bool) (arr sa token len saddr : Nat),
      TileIssuing t (if out then 0x09 else 0x08) [(55, 52, arr), (51, 48, sa), (47, 44, token), (43, 30, len), (29, 16, saddr)] x s →
      let row : Instr := if out then .tileDmaOut t arr sa token len saddr else .tileDmaIn t arr sa token len saddr
      let d : TileDma := { out := out, arr := arr, off := sreg x.work sa, len := lenOf len, saddr := saddr, token := token }
      (x.step.use = .pending → arr < 4 → exec row s = .next s) ∧
      (¬(x.step.use = .pending ∧ arr < 4) →
        (dmaBad x d = true → exec row s = .next (tileFault x s)) ∧
        (dmaBad x d = false → exec row s = .next (setWork x { pastWord x with dmas := x.work.dmas ++ [d] } s)))) ∧
    (∀ token d ecc place, tileCtx t s = some x → (x.work.dmas.find? fun d => d.token == token && dmaReady x d) = some d →
      let u := dmaEcc x d ecc place s
      (u.2 = false → exec (.tileDmaComplete t token ecc place) s = .next u.1) ∧
      (∀ y, u.2 = true → tileCtx t u.1 = some y →
        exec (.tileDmaComplete t token ecc place) s = .next (setStep y (finishDma y d).1 (finishDma y d).2 u.1)) ∧
      (ecc = .clean → x.step.use = .shelf → d.arr < 4 →
        exec (.tileDmaComplete t token ecc place) s = .next (setStep x (finishDma x d).1 (finishDma x d).2 s))) ∧
    (∀ waddr aaddr rows acc kb zero,
      TileIssuing t 0x10 [(55, 42, waddr), (41, 28, aaddr), (27, 19, rows), (18, 10, acc), (9, 4, kb), (3, 3, b2n zero)] x s →
      let o : Mma := { waddr := waddr, aaddr := aaddr, rows := rowsOf rows, acc := acc, kb := blocksOf kb, zero := zero }
      let r := mma x.ctx o x.int (pastWord x)
      (mmaFits x.ctx o x.work = true → exec (.tileMma t waddr aaddr rows acc kb zero) s =
        .next (setStep x r.1 { x.step with accSat := x.step.accSat + r.2 } s)) ∧
      (mmaFits x.ctx o x.work = false → exec (.tileMma t waddr aaddr rows acc kb zero) s = .next (tileFault x s))) ∧
    (∀ oaddr rows acc fn bias baddr raw,
      TileIssuing t 0x11 [(55, 42, oaddr), (41, 33, rows), (32, 24, acc), (23, 20, fn), (19, 19, b2n bias), (18, 5, baddr),
        (4, 4, b2n raw)] x s →
      let o : Epi := { oaddr := oaddr, rows := rowsOf rows, acc := acc, fn := fn, bias := bias, baddr := baddr, raw := raw }
      let r := epi x.ctx o x.int (pastWord x) x.step
      exec (.tileEpi t oaddr rows acc fn bias baddr raw) s = .next (setStep x r.1 r.2 s)) ∧
    (∀ daddr xaddr yaddr fn, TileIssuing t 0x12 [(55, 42, daddr), (41, 28, xaddr), (27, 14, yaddr), (13, 10, fn)] x s →
      let o : Vec := { daddr := daddr, xaddr := xaddr, yaddr := yaddr, fn := fn }
      let r := vec x.ctx o (pastWord x) x.step
      (vecFits x.ctx o x.work = true → exec (.tileVec t daddr xaddr yaddr fn) s = .next (setStep x r.1 r.2 s)) ∧
      (vecFits x.ctx o x.work = false → exec (.tileVec t daddr xaddr yaddr fn) s = .next (tileFault x s)))

/-! Embedding tables (chapter 10). -/

/-- EMB_LOOKUP_POOL, EMB_UPDATE and the close of a step (R303–R314): a command whose checks pass joins its table's commands with the
replica copies it names and asks the owners for the rows it has not; once they are here, service jobs on the stalls read or write its
rows; an activation of such a job reads a row from its source, writes a record that LOAD brings, or updates a row of a close; then a
pooled lookup completes OK with its bags and the STEP read; DUMP gives the records; an update adds its contributions to the ledger,
or none with NO_RESOURCE; a close starts by adding its own bags, setting CLOSING and sending its gradient sets; once done it releases
the step's copies and sums, sets STEP and is OPEN. Readings of the model's own: log entries 57, 58, 60, 113. -/
def Obligations.TableCommandsReadAndUpdateRows : Prop :=
  (∀ (c : CmdRef) (d : CmdIn) (k : Cmd) (ps inp : List Byte) (tab : Tab) (s : State),
    getTab k.handle s = some tab → d.ecc = .clean →
    let t := running c s
    let go : EmbCmd → List Nat → Host.Outcome State Fault Refusal := fun e rows =>
      let e := { takeCopies e tab with asked := rows }
      .next (settleAllEmb (sendFetches e tab.desc rows (onEmb (fun x => { x with cmds := x.cmds ++ [e] }) t)))
    (Due 0x18 (fun ps => !bit (embFlags ps) 1) c d k ps inp s → poolCheck k ps inp s = .go →
      exec (.embLookupPool c d) s = go (newEmb .pool k ps inp d.resultOk)
        (rowsToFetch tab (embStep ps) (namedRows tab.desc (embBags ps) (embIndices ps) inp))) ∧
    (Due 0x18 (fun ps => bit (embFlags ps) 1) c d k ps inp s → dumpCheck k ps inp s = .go →
      exec (.embLookupDump c d) s = go (newEmb .dump k ps inp d.resultOk) []) ∧
    (Due 0x19 (fun ps => bits (embFlags ps) 2 1 == 0) c d k ps inp s → updateCheck false k ps inp s = .go →
      exec (.embUpdate c d) s = go (newEmb .update k ps inp true) (updateFetch tab ps inp)) ∧
    (Due 0x19 (fun ps => bits (embFlags ps) 2 1 == 1) c d k ps inp s → updateCheck true k ps inp s = .go →
      exec (.embUpdateClose c d) s =
        go (newEmb .close k ps (if embBags ps = 0 then zeros 8 else inp) true) (updateFetch tab ps inp)) ∧
    (Due 0x19 (fun ps => bit (embFlags ps) 2) c d k ps inp s → loadCheck k ps inp s = .go →
      exec (.embUpdateLoad c d) s = go (newEmb .load k ps inp true) [])) ∧
  (∀ (e : EmbCmd) (tab : Tab) (s : State), getTab e.handle s = some tab →
    (e.awaits = [] → e.started = false → settleOne e s = startJobs e tab.desc (jobRows tab.desc e).1 (jobRows tab.desc e).2 s) ∧
    (e.started = true →
      (e.kind = .pool → settleOne e s = finish e.ref e.resultOk stOk e.bags e.step (poolResult tab.desc e) (dropEmb e.ref
        (onEmbCounts e.part (fun x => { x with
          pooled := wrap64 (x.pooled + cmdIndices e)
          copyHits := wrap64 (x.copyHits +
            ((namedRows tab.desc e.bags (cmdIndices e) e.input).filter e.picked.contains).length) }) s))) ∧
      (e.kind = .dump → settleOne e s = finish e.ref e.resultOk stOk 1 0
        ((List.range (cmdIndices e)).flatMap fun i => fit (recStride tab.desc) ((tget? e.seen (idxOf 1 e.input i)).getD []))
        (dropEmb e.ref s)) ∧
      (e.kind = .load → settleOne e s = completeSt e.ref stOk (dropEmb e.ref s)) ∧
      (e.kind = .update → ledgerWith tab (contributions tab.desc e) = none →
        settleOne e s = completeSt e.ref stNoResource (dropEmb e.ref s)) ∧
      (∀ l, e.kind = .update → ledgerWith tab (contributions tab.desc e) = some l →
        settleOne e s = completeSt e.ref stOk (dropEmb e.ref
          (onTab e.handle (fun t => { t with ledger := l, adds := t.adds ++ [(e.ref, contributions tab.desc e)] })
            (onEmbCounts e.part (fun x => { x with
              ledgerAdds := wrap64 (x.ledgerAdds + (contributions tab.desc e).length) }) s)))))) ∧
  (∀ (e : EmbCmd) (tab : Tab) (p n : Nat) (s : State), getTab e.handle s = some tab →
    (e.kind = .pool ∨ e.kind = .update → workRow e s (p, n) = seeRow e.ref p ((rowSource tab e.step e.copies p).getD []) s) ∧
    (e.kind = .dump → workRow e s (p, n) = seeRow e.ref p (rowRec tab p) s) ∧
    (e.kind = .load → workRow e s (p, n) = onTab e.handle (putRec p (loadRec tab.desc e p n)) s) ∧
    (∀ g, e.kind = .close → e.phase = .commit → tget? tab.ledger p = some g →
      workRow e s (p, n) = onEmbCmd e.ref (fun x => { x with picked := x.picked ++ [p] })
        (onEmbCounts e.part (fun x => { x with updated := wrap64 (x.updated + 1) })
          (onTab e.handle (fun t => putRec p (updateRec t.desc e.hyper e.step (rowRec t p) g) t) s)))) ∧
  (∀ (c : CmdRef) (lost : List (Nat × MemPlace)) (e : EmbCmd) (tab : Tab) (l : Table (List W32)) (s : State),
    getEmb c s = some e → getTab e.handle s = some tab → e.kind = .close → e.phase = .waiting → e.awaits = [] →
    e.started = true → e.jobs = [] →
    stepBusy e s = false → stepRule tab e.step = .go → ledgerWith tab (contributions tab.desc e) = some l →
    let cs := contributions tab.desc e
    exec (.stepCloseStart c lost) s = .next (settleSets c lost (sendSets 0x0A { e with phase := .sets } tab.desc (fun k =>
      (l.filter fun x => x.1 % tab.desc.shards == k).map fun x => leBytes 8 x.1 ++ elemsOut tab.desc.elem x.2)
      (onEmbCmd c (fun x => { x with phase := .sets }) (onTab e.handle (fun t => { t with closing := true })
        (onTab e.handle (fun t => { t with ledger := l, adds := t.adds ++ [(e.ref, cs)] })
          (onEmbCounts e.part (fun x => { x with ledgerAdds := wrap64 (x.ledgerAdds + cs.length) }) s))))))) ∧
  (∀ (e : EmbCmd) (s : State), e.bad = none → e.shardLost = false →
    finishClose e s = complete e.ref stOk e.done e.step [] (dropEmb e.ref (onTab e.handle (fun t => { t with
      step := e.step, closing := false, fetched := [], ledger := [], adds := []
      sets := t.sets.filter fun x => 65536 * (e.step + 1) ≤ x.1
      setsDone := t.setsDone.filter fun x => 65536 * (e.step + 1) ≤ x
      refreshed := t.refreshed.filter fun x => 65536 * (e.step + 1) ≤ x }) s)))

/-- EMB_REPLICA_REFRESH and the messages of tables (R305, R312, R315–R317): the command asks each owner for the rows it may install, or
drops its copies and says so; a fetch is answered with the rows owned of those listed; gradient and refresh sets are taken once per
step and sender, a later copy or one of a closed step is only acknowledged; an owner grants holders, drops them, or answers rows; rows
and grants that come back are kept for the command that waits, which goes on; a replica command whose rows are in their slots completes
OK with their count, PARTIAL where there are fewer than it names. Readings of the model's own: log entry 59. -/
def Obligations.TablesExchangeRows : Prop :=
  (∀ (c : CmdRef) (d : CmdIn) (k : Cmd) (ps inp : List Byte) (s : State), replicaCheck k ps inp s = .go →
    let t := running c s
    (Due 0x1A (fun ps => opIs 0 ps || 2 < field ps 0 1) c d k ps inp s →
      exec (.embReplicaInstall c d) s = .next (beginReplica .install 0 k ps inp t)) ∧
    (Due 0x1A (opIs 1) c d k ps inp s → exec (.embReplicaDrop c d) s = .next (beginReplica .drop 1 k ps inp t)) ∧
    (Due 0x1A (opIs 2) c d k ps inp s → exec (.embReplicaRefresh c d) s = .next (beginReplica .refresh 2 k ps inp t))) ∧
  (∀ (src msg : Nat) (m : Msg) (c : Comp) (tab : Tab) (s : State), getTab c.handle (unholdMsg m (noted m s)) = some tab →
    let t := unholdMsg m (noted m s)
    (Serves 0x08 1 src msg m c s →
      (m.seq = 0 ∨ (m.seq = tab.step + 1 ∧ pastCommit c.handle t = false) → exec (.embFetch src msg) s =
        .next (respond m stOk m.epoch m.slot m.seq (rowEntries tab ((bodyRows 0 m.body).filter (ownsRow tab.desc))) t)) ∧
      (tab.step + 1 < m.seq → exec (.embFetch src msg) s = .next (holdMsg m t)) ∧
      (0 < m.seq → m.seq ≤ tab.step → exec (.embFetch src msg) s = .next (respondSt m stStale t))) ∧
    (∀ lost, Serves 0x0A 1 src msg m c s →
      (m.seq ≤ tab.step ∨ tab.setsDone.contains (setKey m.seq (shardOfNode c m.src)) = true →
        exec (.embGset src msg lost) s = .next (respondSt m stOk t)) ∧
      (tab.step < m.seq → tab.setsDone.contains (setKey m.seq (shardOfNode c m.src)) = false →
        let key := setKey m.seq (shardOfNode c m.src)
        let es := bodyEntries tab.desc m.body
        let t := onTab c.handle (fun t => { t with
          sets := tput t.sets key ((tget? t.sets key).getD [] ++ es)
          setsDone := if es.length < rowsPerMsg t.desc then t.setsDone ++ [key] else t.setsDone }) (respondSt m stOk t)
        exec (.embGset src msg lost) s =
          .next (match t.emb.cmds.find? fun e => e.handle == c.handle && e.kind == .close && e.phase == .sets with
            | none => t
            | some e => settleSets e.ref lost t))) ∧
    (Serves 0x0B 1 src msg m c s →
      (m.seq ≤ tab.step ∨ tab.refreshed.contains (setKey m.seq (shardOfNode c m.src)) = true →
        exec (.embRset src msg) s = .next (respondSt m stOk t)) ∧
      (tab.step < m.seq → tab.refreshed.contains (setKey m.seq (shardOfNode c m.src)) = false →
        let key := setKey m.seq (shardOfNode c m.src)
        let es := bodyEntries tab.desc m.body
        let t := onTab c.handle (fun t => { t with
          copies := es.foldl (fun f x => if (tget? f x.1).isSome then tput f x.1 x.2 else f) t.copies
          refreshed := if es.length < rowsPerMsg t.desc then t.refreshed ++ [key] else t.refreshed }) (respondSt m stOk t)
        exec (.embRset src msg) s =
          .next (match t.emb.cmds.find? fun e => e.handle == c.handle && e.kind == .close && e.phase == .refresh with
            | none => t
            | some e => settleRefresh e.ref t))) ∧
    (Serves 0x0C 1 src msg m c s →
      let k := shardOfNode c m.src
      let rows := (bodyRows 8 m.body).filter (ownsRow tab.desc)
      let g := grantRows k (1048576 - (dirCopies t + dirHolders t)) rows tab
      (tab.closing = true → exec (.embRepl src msg) s = .next (holdMsg m t)) ∧
      (tab.closing = false →
        (field m.body 0 8 = 0 → exec (.embRepl src msg) s =
          .next (respond m stOk m.epoch m.slot m.seq (rowEntries tab g.2) (onTab c.handle (fun _ => g.1) t))) ∧
        (field m.body 0 8 = 1 → exec (.embRepl src msg) s =
          .next (respond m stOk m.epoch m.slot m.seq (rows.flatMap (leBytes 8)) (onTab c.handle (dropHolder k rows) t))) ∧
        (2 ≤ field m.body 0 8 → exec (.embRepl src msg) s =
          .next (respond m stOk m.epoch m.slot m.seq (rowEntries tab rows) t))))) ∧
  (∀ (src msg : Nat) (r : Req) (m : Msg) (c : CmdRef) (e : EmbCmd) (tab : Tab) (s : State),
    let t := dropReq r.id (takeMsg m s)
    r.waiter = .command c → getEmb c t = some e → getTab e.handle t = some tab → m.status = stOk →
    let es := bodyEntries tab.desc m.body
    let into : Table (List Byte) → Table (List Byte) := fun f => es.foldl (fun f x => tput f x.1 x.2) f
    (Answers 0x09 src msg r m s →
      let t := onEmbCmd c (fun e => { e with asked := e.asked.filter fun p => !es.any fun x => x.1 == p })
        (onEmbCounts e.part (fun x => { x with fetched := wrap64 (x.fetched + es.length) }) t)
      (e.step = 0 → exec (.embRows src msg) s =
        .next (settleAllEmb (unawait c r.msg.slot (onEmbCmd c (fun e => { e with copies := into e.copies }) t)))) ∧
      (e.step ≠ 0 → exec (.embRows src msg) s =
        .next (settleAllEmb (unawait c r.msg.slot (onTab e.handle (fun t => { t with fetched := into t.fetched }) t))))) ∧
    (Answers 0x0D src msg r m s →
      (e.kind = .drop → exec (.embReplRsp src msg) s = .next (settleAllEmb (unawait c r.msg.slot
        (onEmbCmd c (fun x => { x with done := x.done + (bodyRows 0 m.body).length }) t)))) ∧
      (e.kind ≠ .drop → exec (.embReplRsp src msg) s = .next (settleAllEmb (unawait c r.msg.slot
        (onEmbCmd c (fun x => { x with copies := into x.copies }) t)))))) ∧
  (∀ (e : EmbCmd) (tab : Tab) (bs : List Byte) (p n : Nat) (s : State), getTab e.handle s = some tab →
    (e.kind = .install → tget? e.copies p = some bs → workRow e s (p, n) =
      onEmbCmd e.ref (fun y => { y with done := y.done + 1, asked := y.asked.erase p })
        (onTab e.handle (fun t => { t with copies := tput t.copies p bs }) s)) ∧
    (e.kind = .refresh → tget? e.copies p = some bs → (tget? tab.copies p).isSome = true → workRow e s (p, n) =
      onEmbCmd e.ref (fun y => { y with done := y.done + 1 })
        (onTab e.handle (fun t => { t with copies := tput t.copies p bs }) s)) ∧
    (e.started = true → e.kind = .install ∨ e.kind = .drop ∨ e.kind = .refresh → settleOne e s =
      complete e.ref (if e.done < e.named.length then stPartial else stOk) e.done 0 [] (dropEmb e.ref s)))

/-! Partitions, contexts and gangs (chapter 11). -/

/-- PART_CONFIG, every operation and sub-operation (R73, R297, R324–R329): one whose checks pass has its effect and completes OK. CREATE
makes a FREE partition IDLE on the port of the command with its shares; DESTROY empties it; GRANT, WITHDRAW and SHARES are staged, and
take effect at once in an IDLE or QUIESCED partition; the others act on regions, the port, indexes and tables; READ gives the
descriptor. Readings of the model's own: log entries 61, 65. -/
def Obligations.PartConfigHasItsEffect : Prop :=
  ∀ (c : CmdRef) (d : CmdIn) (k : Cmd) (ps inp : List Byte) (s : State),
    let t := running c s
    let p := pcPart ps
    let h := pcHandle ps
    let is : (List Byte → Bool) → Verdict → Prop := fun form v => Due 0x30 form c d k ps inp s ∧ v = .go
    let ok : State → Host.Outcome State Fault Refusal := fun t => .next (completeSt k.ref stOk t)
    (is (fun ps => pcIs 0 ps || 9 < pcOp ps) (createCheck k ps inp s) → exec (.partConfigCreate c d) s = ok (onPart p (fun x => { x with
      state := .idle, port := cmdPort k t, shares := parseShares ps }) (freshPage p t))) ∧
    (is (pcIs 1) (pcCheck [] (fun p _ s => firstFail [(partHolds p s, stBusy)]) k ps inp s) →
      let t := resetPartition p t
      exec (.partConfigDestroy c d) s = ok (freshPage p (gateUnits (unitList (getPtn p t).units) t))) ∧
    (is (pcIs 2) (pcCheck unitsUsed (fun p ps s => grantVerdict p (parseUnits ps) s) k ps inp s) →
      exec (.partConfigGrant c d) s = .next (stage p (.grant k.ref (parseUnits ps)) t)) ∧
    (is (pcIs 3) (pcCheck unitsUsed (fun p ps s => withdrawVerdict false p (parseUnits ps) s) k ps inp s) →
      exec (.partConfigWithdraw c d) s = .next (stage p (.withdraw k.ref (parseUnits ps)) t)) ∧
    (is (pcIs 4) (pcCheck sharesUsed (fun p ps s => sharesVerdict p (parseShares ps) s) k ps inp s) →
      exec (.partConfigShares c d) s = .next (stage p (.shares k.ref (parseShares ps)) t)) ∧
    (∀ g, newRegionHandle t = some g → is (pcIs 5) (pcCheck regionUsed regionCheck k ps inp s) →
      exec (.partConfigRegionAlloc c d) s = .next (complete k.ref stOk 0 g [] (putRegion g (parseRegion ps t) t))) ∧
    (∀ r, getRegion h s = some r → r.part = p → regionWindowed h s = false → pcBlockBad k ps [] = false → pcOwner k ps s = .go →
      Due 0x30 (pcIs 6) c d k ps inp s →
      exec (.partConfigRegionFree c d) s = ok (onPtn (fun x => { x with regions := tdel x.regions h }) t)) ∧
    (is (pcIs 7) (pcCheck [] (fun p _ s => firstFail [((partQueues p).any (fun q => (getQueue q s).state != .disabled),
        stConfigBusy)]) k ps inp s) →
      exec (.partConfigPort c d) s = ok (onPart p (fun x => { x with port := x.port.other }) t)) ∧
    (∀ cb vb, placeRuns (parseIdx ps) t = some (cb, vb) →
      is (fun ps => pcIsSub 8 0 ps || (pcIs 8 ps && 3 < pcSub ps)) (pcCheck idxUsed idxCreateCheck k ps inp s) →
      let ix := newIndex (parseIdx ps) cb vb (bitmapPins (parseIdx ps) t)
      exec (.partConfigIndexCreate c d) s = ok (writeMeta (metaBytes ix.desc)
        (onMut (fun m => { m with kept := tput m.kept h ix }) (putIndex h ix t)))) ∧
    (∀ ix, getIndex h s = some ix →
      (is (pcIsSub 8 1) (pcCheck idxUsed (fun p ps s => (idxVerdict p ps s).andThen (idxResizeCheck p ps s)) k ps inp s) →
        let t := dropFrames h (parseIdx ps).cacheFrames ix.frames.length t
        let set : Index → Index := fun ix => resized (parseIdx ps) ix t
        exec (.partConfigIndexResize c d) s = ok (onMeta h set (onIndex h set t))) ∧
      (is (pcIsSub 8 2) (pcCheck [] (fun p ps s =>
          (idxVerdict p ps s).andThen (firstFail [(idxUsedBy (pcHandle ps) s, stBusy)])) k ps inp s) →
        exec (.partConfigIndexDestroy c d) s = ok (dropIndex h ix t)) ∧
      (is (pcIsSub 8 3) ((pcCheck [] idxVerdict k ps inp s).andThen (firstFail [(k.resultLen < 128, stBadParam)])) →
        exec (.partConfigIndexRead c d) s = .next (finish k.ref d.resultOk stOk 0 0 (idxBytes h ix) t))) ∧
    (is (fun ps => pcIsSub 9 0 ps || (pcIs 9 ps && 3 < pcSub ps)) (pcCheck tabUsed (fun p ps s => firstFail [
        (tabBad ps (parseTab ps) || (getTab (pcHandle ps) s).isSome, stBadParam),
        (256 ≤ s.emb.tables.length || !tabFits p (pcHandle ps) (newTab (parseTab ps) s) s, stNoResource)]) k ps inp s) →
      exec (.partConfigTableCreate c d) s = ok (putTab h (newTab (parseTab ps) t) t)) ∧
    (∀ tab, getTab h s = some tab →
      (is (pcIsSub 9 1) (pcCheck tabUsed (fun p ps s => (tabVerdict p ps s).andThen (tabResizeCheck p ps s)) k ps inp s) →
        exec (.partConfigTableResize c d) s = ok (onTab h (fun tab => resizeTab h (parseTab ps) tab t) t)) ∧
      (is (pcIsSub 9 2) (pcCheck [] (fun p ps s =>
          (tabVerdict p ps s).andThen (firstFail [(tabUsedBy (pcHandle ps) s, stBusy)])) k ps inp s) →
        exec (.partConfigTableDestroy c d) s = ok (onEmb (fun x => { x with tables := tdel x.tables h }) t)) ∧
      (is (pcIsSub 9 3) ((pcCheck [] tabVerdict k ps inp s).andThen (firstFail [(k.resultLen < 128, stBadParam)])) →
        exec (.partConfigTableRead c d) s = .next (finish k.ref d.resultOk stOk 0 0 (tabBytes h tab) t)))

/-- Contexts and gangs in their turns (R330–R333, R338, R339, R346): CTX_CREATE makes a context, or stages it while its gang runs;
DESTROY removes it; PTN_CTX stages a new gang of a context that is not runnable and a new slice; the slice of the one ready gang renews;
a stop is posted 5 µs before another gang's turn, or at once for a gang with nothing to do; the switch waits for its stall jobs to
stand at a segment boundary and its tiles to stop, saves and parks, applies what is staged, counts, and goes on to the next ready gang,
IDLE or QUIESCED; an IDLE partition starts its next ready gang, whose queries and tiles resume; QUIESCE takes an
IDLE partition to QUIESCED and ends the slice of a running one within 5 µs; without it a QUIESCED one is IDLE.
Readings of the model's own: log entries 61, 62, 111. -/
def Obligations.ContextsTakeTurns : Prop :=
  (∀ (c : CmdRef) (d : CmdIn) (k : Cmd) (ps inp : List Byte) (s : State),
    let t := running c s
    let p := field ps 2 1
    let n := field ps 1 1
    let gang := field ps 3 1
    let us := field ps 4 4
    ctxHead k ps s = .go →
    (Due 0x31 (fun ps => !opIs 1 ps) c d k ps inp s → ctxVerdict p n gang us s = .go →
      exec (.ctxCreate c d) s =
        .next (if gangRuns p gang t then stage p (.ctxCreate k.ref n gang us) t else completeSt k.ref stOk (makeCtx p n gang us t))) ∧
    (Due 0x31 (opIs 1) c d k ps inp s → ctxDestroyVerdict p n s = .go →
      exec (.ctxDestroy c d) s = .next (completeSt k.ref stOk (onTil (fun x => { x with
        models := x.models.map fun e => (e.1, if e.2.part = p then { e.2 with recs := tdel e.2.recs n } else e.2) })
          (onPart p (fun x => { x with ctxs := tdel x.ctxs n }) t))))) ∧
  (∀ (f : Fn) (p n : Nat) (v : W32) (s : State), holdsPage f p = true → p < 64 → n < 16 → Reaches f (ptnPage p + 0x40 + 4 * n) s →
    let gang := bits v.toNat 27 24
    let us := bits v.toNat 13 0
    let x := getPtn p s
    (tget? x.ctxs n ≠ none → 50 ≤ us → us ≤ 10000 →
      let t := if gang = ctxGangField x n then s else if ctxRunnable p n s then countPtnBusy p s else stage p (.ctxGang n gang) s
      exec (.ptnCtxWrite f p n v) s = .next (if us = ctxSliceField x n then t else stage p (.ctxSlice n us) t)) ∧
    (tget? (getPtn p s).ctxs n = none ∨ us < 50 ∨ 10000 < us → exec (.ptnCtxWrite f p n v) s = .next s)) ∧
  (∀ (p now : Nat) (s : State), p < 64 →
    let t := atTime now s
    let x := getPtn p t
    let us := timeUs t
    (x.state = .running → x.stop = none →
      (x.sliceEnd ≤ us → gangReady p x.gang t = true → nextGang p x.gang t = some x.gang → x.staged = [] →
        exec (.sliceEnd p now) s = .next (onPart p (fun y => { y with sliceEnd := us + gangSlice p x.gang t }) t)) ∧
      (gangReady p x.gang t = false →
        exec (.stopPosted p now) s = .next (onPart p (fun y => { y with stop := some us, sliceEnd := us + 5 }) t)) ∧
      (gangReady p x.gang t = true → x.sliceEnd ≤ us + 5 → nextGang p x.gang t ≠ some x.gang ∨ x.staged ≠ [] →
        exec (.stopPosted p now) s = .next (onPart p (fun y => { y with stop := some us, sliceEnd := us + 5 }) t))) ∧
    (∀ g lost, x.state = .idle → nextGang p x.gang t = some g → exec (.gangStart p now lost) s = .next (startGang p g lost t)) ∧
    (∀ ns lost, let cs := gangCtxs p x.gang t
      x.state = .running ∨ x.state = .quiescing → x.stop ≠ none → x.sliceEnd ≤ us →
      jobsStopped p cs t = true → tilesStopped p cs t = true →
      exec (.contextSwitch p now ns lost) s = .next (afterSwitch p x.state lost (applyStaged p (onPart p (fun y => { y with
        counts := { y.counts with
          switches := wrap64 (y.counts.switches + 1), switchNsMax := max y.counts.switchNsMax ns } })
          (parkCtxs p cs (saveTiles p cs (parkQueries p (fun q => cs.contains q.ctx) t)))))))) ∧
  (∀ (p gang : Nat) (s : State),
    let cs := gangCtxs p gang s
    startGang p gang [] s = onPart p (fun x => { x with
      state := .running, gang := gang, sliceEnd := timeUs s + gangSlice p gang s, stop := none
      ctxs := x.ctxs.map fun e => if cs.contains e.1 then (e.1, { e.2 with parked := false }) else e })
      (resumeTiles p cs (resumeQueries p (fun q => cs.contains q.ctx) s))) ∧
  (∀ (f : Fn) (p : Nat) (v : W32) (s : State), holdsPage f p = true → p < 64 → Reaches f (ptnPage p + 4) s →
    let t := onPart p (fun x => { x with autoSubst := bit v.toNat 1, quiesce := bit v.toNat 0 }) s
    let x := getPtn p t
    (bit v.toNat 0 = true →
      (x.state = .idle → exec (.quiesceSet f p v) s = .next (applyStaged p (onPart p (fun x => { x with
        state := .quiesced, stop := none, counts := { x.counts with quiesces := wrap64 (x.counts.quiesces + 1) } })
          (parkQueries p (fun q => q.ctx == 16) t)))) ∧
      (x.state = .running → exec (.quiesceSet f p v) s = .next (onPart p (fun x => { x with
        state := .quiescing, stop := some (x.stop.getD (timeUs t)), sliceEnd := match x.stop with
          | some _ => min x.sliceEnd (timeUs t + 5)
          | none => timeUs t + 5 }) t))) ∧
    (bit v.toNat 0 = false → x.substWait = false ∨ bit v.toNat 1 = false →
      (x.state = .quiesced → exec (.quiesceClear f p v) s =
        .next (resumeQueries p (fun q => q.ctx == 16) (onPart p (fun x => { x with state := .idle }) t))) ∧
      (x.state ≠ .quiesced → exec (.quiesceClear f p v) s = .next t)))

/-! The fabric (chapter 12). -/

/-- The life of a lane and of what it carries (R351–R357, R361, R386, R387): ENABLE starts training, DISABLE ends it, TEST and
the polarities are taken by a DISABLED lane only; UP takes the neighbour's credits, grants this node's and routes the frames
that wait; a lane that loses its FEC lock or has 16 uncorrectable codewords in 1 ms goes DOWN and gives its unacknowledged
frames to other lanes; replay starts 4 µs without an ACK and a spent budget ends the lane; at a cell time a lane replays, else
starts or goes on with a frame, else is IDLE; a bad cell asks for a replay, a good one acknowledges, gives credits and is taken;
a frame received whole is delivered, forwarded, or dropped and told of. Readings of the model's own: log entries 22, 63, 64. -/
def Obligations.LanesCarryFrames : Prop :=
  ∀ (lane : Nat) (s : State),
    let x := getLane lane s
    let down : Lane → State → State := fun x s => let fs := unackedFrames x
      resendOf fs (fs.foldl (fun s f => routeFrame f s) (onLane lane (fun x => { emptyLane x .down with
        downs := wrap64 (x.downs + 1) }) s))
    (∀ (f : Fn) (v : W32), f.vf = 0 → lane < 36 → Reaches f (0x300100 + 4 * lane) s →
      let n := v.toNat
      let kept := if bits n 30 29 = 3 then x.test else bits n 30 29
      let same := kept = x.test ∧ bit n 28 = x.txInv ∧ bit n 27 = x.rxInv
      let busy := onFabCounts (fun c => { c with cfgBusy := wrap64 (c.cfgBusy + 1) }) s
      (bit n 31 = true → x.enable = false → exec (.laneEnable f lane v) s =
        .next (onLane lane (fun x => { x with state := .training, trainAt := timeUs s }) (onLane lane (fun x => { x with enable := true })
          (onLane lane (fun x => { x with test := kept, txInv := bit n 28, rxInv := bit n 27 }) s)))) ∧
      (bit n 31 = true → x.enable = true → (same → exec (.laneEnable f lane v) s = .next (onLane lane (fun x => { x with enable := true }) s)) ∧
        (¬same → exec (.laneEnable f lane v) s = .next (onLane lane (fun x => { x with enable := true }) busy))) ∧
      (bit n 31 = false → x.enable = true → same → exec (.laneDisable f lane v) s =
        .next (laneFails resendOf lane .disabled (onLane lane (fun x => { x with enable := false }) s)))) ∧
    (x.test = 1 → lane < 36 → exec (.prbs31CheckError lane) s = .next (onLane lane (fun x => { x with prbsErr := true }) s)) ∧
    (∀ peer credits, x.enable = true → x.state = .training ∨ x.state = .down → exec (.laneUp lane peer credits) s =
      .next (rerouteWaiting (onLane lane (fun x => { x with
        state := .up, peer := peer % 65536, ackAt := timeUs s
        credits := credits.foldl (fun t e => sset (fun _ => 0) t e.1 e.2) [] })
          (emit (.handshake lane s.nodeId (grantedCredits s)) s)))) ∧
    (∀ cause, x.state = .up → cause = .fecLock ∨ tooManyUncorr x = true → exec (.laneDown lane cause) s = .next (down x s)) ∧
    (∀ now, let t := atTime now s
      let us := timeUs t
      let y := getLane lane t
      (y.state = .down → exec (.laneTrainingRestart lane now) s =
        .next (onLane lane (fun x => { x with state := .training, trainAt := us }) t)) ∧
      (y.state = .training → y.trainAt + 500000 ≤ us → exec (.laneTrainingRestart lane now) s =
        .next (onLane lane (fun x => { x with trainAt := us, trainFail := wrap64 (x.trainFail + 1) }) t)) ∧
      (y.state = .up →
        (y.replay ≠ [] → y.ackAt + 4 ≤ us → exec (.replayTimeout lane now) s = .next (onLane lane (beginReplay us) t)) ∧
        (budgetOver y us = true → exec (.replayBudgetExpiry lane now) s = .next (down y t))) ∧
      (∀ f, y.txq.find? (fun f => f.part == 64 && f.src != t.nodeId && f.at0 + 100 ≤ us && !frameEligible y f t) = some f →
        exec (.transitDrop lane now) s = .next (dropTransit f (onLane lane (fun x => { x with txq := x.txq.erase f }) t)))) ∧
    (x.state = .up → x.test ≠ 1 →
      (∀ i c, x.again = some i → x.replay[i]? = some c → exec (.cellTime lane) s =
        .next (putCell lane (some c.cell) c.lseq (onLane lane (fun x => { x with
          replay := updAt (fun c => { c with sends := c.sends + 1, sentAt := timeUs s }) i x.replay
          again := if i + 1 < x.replay.length then some (i + 1) else none }) s))) ∧
      (x.again = none →
        (256 ≤ x.replay.length → exec (.cellTime lane) s = .next (putCell lane none 0 s)) ∧
        (x.replay.length < 256 → let t := chooseFrame lane s
          ((getLane lane t).cur = [] → exec (.cellTime lane) s = .next (putCell lane none 0 t)) ∧
          (∀ c f rest, (getLane lane t).cur = (c, f) :: rest →
            exec (.cellTime lane) s = .next (putCell lane (some c) x.nextSeq (sendFirst lane c f t)))))) ∧
    (∀ bs, x.state = .up →
      (cellBad x.expSeq true bs = true → exec (.cellReceive lane bs .clean) s =
        .next (onLane lane (fun x => { x with discarding := true, nak := x.nak || !x.discarding }) s)) ∧
      (cellBad x.expSeq true bs = false →
        let ack := field bs 4 2
        let t := onLane lane (fun x =>
          let x := if bit (field bs 1 1) 5 then beginReplay (timeUs s) (ackUpTo (timeUs s) ack false x) else ackUpTo (timeUs s) ack true x
          if field bs 6 1 = 0xFF then x else { x with
            credits := smod (fun _ => 0) x.credits (creditKey (field bs 6 1) (field bs 7 1 / 64)) (· + field bs 7 1 % 64) }) s
        exec (.cellReceive lane bs .clean) s = .next (if field bs 0 1 = 1 then takeCell lane (readCell bs) t else t))) ∧
    (∀ f, x.rxDone.find? (fun f => !frameWaits f s) = some f →
      let t := onLane lane (fun x => { x with rxDone := x.rxDone.erase f }) s
      (f.dst = s.nodeId → exec (.frameReceive lane) s = .next (deliver f (refund f.refund t))) ∧
      (f.dst ≠ s.nodeId → f.hops ≤ 1 ∨ routeValid f.dst t = false → exec (.frameReceive lane) s = .next (dropTransit f t)) ∧
      (f.dst ≠ s.nodeId → 1 < f.hops → routeValid f.dst t = true →
        exec (.frameReceive lane) s = .next (routeFrame { f with hops := f.hops - 1, part := 64 } t)))

/-- Requests and their answers (R362–R365, R372, R374, R380, R381): a sub-search that passes its checks enters this node's admission list;
a member's answer is noted and may end its search; a block is acknowledged once and kept until it is whole; an acknowledgement sends the
next part or ends the transfer; a request that times out is freed, counted and its node probed; a probed node that stays silent is
LOST in every composition that names it; LOST, DROPPED, PROBE and CANCEL are acted on; a duplicate entry is released after 4 × T_req.
Readings of the model's own: log entries 42, 63, 66, 67. -/
def Obligations.RequestsAndAnswersMeet : Prop :=
  ∀ (src msg : Nat) (m : Msg) (s : State),
    (∀ c, Serves 0x01 0 src msg m c s →
      let t := unholdMsg m (noted m s)
      let k := subCmd m c (2 ^ 32 + t.fab.nextRemote) (timeUs t)
      let t := onHost (fun h => { h with cmds := h.cmds ++ [k] }) (onFab (fun x => { x with
        nextRemote := x.nextRemote + 1, subs := x.subs ++ [{ ref := k.ref, msg := m }] }) t)
      k.opcode ∈ [1, 2, 3] → searchCheck k.opcode k (k.packet.drop 40) (m.body.drop 64) t = .go →
      exec (.searchSub src msg) s = .next (enterAdmission k.opcode k (k.packet.drop 40) (m.body.drop 64) t)) ∧
    (∀ c, Serves 0x10 2 src msg m c s →
      let t := respondSt m stOk (unholdMsg m (noted m s))
      (c.consumed.contains m.seq = true → exec (.actBlock src msg) s = .next t) ∧
      (c.consumed.contains m.seq = false → getBlock m.comp m.slot m.seq t = none → exec (.actBlock src msg) s =
        .next (feedRuns (onFab (fun x => { x with blocks := x.blocks ++ [{
          comp := m.comp, slot := m.slot, seq := m.seq, bytes := m.body }] }) (forgetBlock m.comp m.slot m.seq t))))) ∧
    (∀ (r : Req) (c : CmdRef), r.waiter = .command c → let t := dropReq r.id (takeMsg m s)
      (Answers 0x02 src msg r m s → exec (.searchRsp src msg) s =
        .next (settleSearch c (noteAnswerOf c r.msg.slot m.status (answerDetail m (field m.body 16 8)) (m.body.drop 32)
          (onCompSearch c (fun x => { x with awaits := x.awaits.erase r.msg.slot }) t)))) ∧
      (Answers 0x11 src msg r m s → m.status = stOk →
        (∀ b rest, r.rest = b :: rest → exec (.bulkAck src msg) s =
          .next (sendReq r.part { r.msg with body := b, resent := false } r.waiter rest t)) ∧
        (r.rest = [] → (r.msg.kind = 0x10 → exec (.bulkAck src msg) s = .next (ackedRun c t)) ∧
          (r.msg.kind ≠ 0x10 → exec (.bulkAck src msg) s = .next (unawait c r.msg.slot t))))) ∧
    (let t := takeMsg m s;
      (inboxMsg 0x28 src msg s = some m →
        exec (.probe src msg) s = .next (sendOnly (mkMsg m.src m.dpart 0x29 0 0 0 0 []) t)) ∧
      (inboxMsg 0x29 src msg s = some m →
        exec (.probeAck src msg) s = .next (onFab (fun x => { x with probes := x.probes.filter (·.node != m.src) }) t)) ∧
      (inboxMsg 0x2A src msg s = some m → let node := field m.body 0 2
        exec (.lostNotice src msg) s = .next (((compsWith node t).map (·.1)).foldl (markLost node) t)) ∧
      (inboxMsg 0x2B src msg s = some m → exec (.droppedNotice src msg) s =
        .next ((t.fab.reqs.filter fun r => r.msg.msgId == field m.body 0 4).foldl (fun s r => resendReq r s) t)) ∧
      (inboxMsg 0x2C src msg s = some m →
        let mine : Msg → Bool := fun x => x.src == m.src && x.reqId == m.reqId
        let u := onFab (fun x => { x with held := x.held.filter fun h => !mine h.1 }) t
        (u.fab.subs.find? (fun x => mine x.msg) = none → exec (.cancelRequest src msg) s = .next u) ∧
        (∀ x, u.fab.subs.find? (fun x => mine x.msg) = some x →
          ((getQuery x.ref u).any (·.admittedIn) = true → exec (.cancelRequest src msg) s = .next u) ∧
          ((getQuery x.ref u).any (·.admittedIn) = false → exec (.cancelRequest src msg) s =
            .next (onFab (fun y => { y with subs := y.subs.filter (·.ref != x.ref) })
              (onHost (fun h => { h with cmds := dropFirst x.ref h.cmds }) (dropQuery x.ref u))))))) ∧
    (∀ now, let t := atTime now s
      (∀ r c, t.fab.reqs.find? (·.id == msg) = some r → r.at0 + r.treq ≤ timeUs t → r.waiter = .command c →
        let u := onXq r.part (fun c => { c with timeouts := wrap64 (c.timeouts + 1) }) (dropReq msg t)
        let probed := if u.fab.probes.any (·.node == r.msg.dst) then u
          else sendOnly (mkMsg r.msg.dst r.msg.dpart 0x28 0 0 0 0 []) (onFab (fun x => { x with
            probes := x.probes ++ [{ node := r.msg.dst, at0 := timeUs t, treq := r.treq }] }) u)
        exec (.requestTimeout msg now) s = .next (endWaiter r.msg.kind c r.msg.slot stTimeout probed)) ∧
      (∀ p, t.fab.probes.find? (·.node == src) = some p → p.at0 + p.treq ≤ timeUs t →
        let u := onFab (fun x => { x with probes := x.probes.filter (·.node != src) }) t
        exec (.memberLost src now) s =
          .next ((compsWith src u).foldl (tellLost src) (((compsWith src u).map (·.1)).foldl (markLost src) u))) ∧
      exec (.fabricDupExpiry src msg now) s = .next (onFab (fun x => { x with
        fdups := x.fdups.filter fun d => !(d.src == src && d.reqId == msg && d.at0 + d.hold ≤ timeUs t) }) t))

/-- Compositions and their slots (R366–R370, R375–R379, R391, R384): INSTALL enters the composition, REMOVE ends its users and drops it with
what it kept, READ gives it; at the end of a drain window the node owns its slot and gives up others; HANDOFF offers a slot and sends
its records; OFFER, STATE, COMMIT and ACCEPT move it; a handoff that times out keeps the slot; two owners, or none, are decided; a sweep
discards what no owner holds; NODE_ID is written while every lane is DISABLED, a route whenever its lanes exist.
Readings of the model's own: log entries 47, 65, 66. -/
def Obligations.SlotsChangeHands : Prop :=
  (∀ (c : CmdRef) (d : CmdIn) (k : Cmd) (ps inp : List Byte) (s : State),
    let t := running c s
    let id := cmpId ps
    (Due 0x38 (fun ps => opIs 0 ps || 2 < field ps 0 1) c d k ps inp s → installCheck k ps inp s = .go →
      exec (.composeInstall c d) s = .next (completeSt k.ref stOk (putComp id (installed (getComp id t) ps inp t) t))) ∧
    (∀ x, getComp id s = some x → composeBlockBad k ps = false → k.dataLen = 0 →
      (Due 0x38 (opIs 1) c d k ps inp s → exec (.composeRemove c d) s = .next (completeSt k.ref stOk (onFab (fun f => { f with
        comps := tdel f.comps id, blocks := f.blocks.filter (·.comp != id), fdups := f.fdups.filter (·.comp != id) })
          (endUsers id x t)))) ∧
      (Due 0x38 (opIs 2) c d k ps inp s → readLen id s ≤ k.resultLen →
        exec (.composeRead c d) s = .next (finish k.ref d.resultOk stOk 0 0 (compBytes id x t) t))) ∧
    (Due 0x39 (fun _ => true) c d k ps inp s → handoffCheck k ps inp s = .go →
      let id := field ps 0 4
      let slot := field ps 8 4
      exec (.handoff c d) s = .next (sendRecs id slot (field ps 16 4) (field ps 12 2)
        (onSlot id slot (fun x => { x with cmd := some k.ref, query := none }) (setSlot id slot .offering t))))) ∧
  (∀ (id slot now : Nat) (c : Comp) (s : State), let t := atTime now s
    let us := timeUs t
    let x := getSlot c slot
    getComp id t = some c →
    (∀ e, c.windowEnd = some e → e ≤ us →
      let me := ownSlot c.members t
      exec (.drainWindowEnd id now) s = .next (onComp id (fun c => { c with
        windowEnd := none, prev := none, slots := (slotsAfter me us c.slots).map fun e =>
          if e.1 = me then if e.2.state = .none then (e.1, { e.2 with state := .owned, since := us }) else e
          else if e.2.state = .owned then (e.1, { e.2 with state := .released, since := us }) else e }) t)) ∧
    (x.token ≠ 0 → x.at0 + 4 * treqOf id t ≤ us → x.state = .offering → exec (.handoffTimeout id slot now) s =
      .next (endHandoff id slot stTimeout .owned (onSlot id slot (fun x => { x with query := some x.peer, queryAt := us }) t))) ∧
    (∀ node, x.query = some node → x.queryAt + treqOf id t ≤ us → exec (.ownerQueryRetry id slot now) s =
      .next (askOwner id c slot node (onSlot id slot (fun x => { x with queryAt := us }) t))) ∧
    (c.sweptAt + 4 * treqOf id t ≤ us → exec (.orphanSweep id now) s = .next (onComp id (fun c => { c with sweptAt := us })
      (((recSlots id c t).filter fun n => orphaned id c us n t).foldl (fun s n => discardRecs id n s) t)))) ∧
  (∀ (c : CmdRef) (k : Cmd) (n now : Nat) (e : Nat × Comp) (s : State), let t := atTime now s
    findCmd c t = some k → kindOf k.opcode = some n → compFor n k.handle t = some e → k.phase = .waiting → e.2.epoch < k.epoch →
    k.fetched + drainOf e.2 t ≤ timeUs t → exec (.epochHoldExpiry (.command c) now) s = .next (completeSt c stNotOwner t)) ∧
  (∀ (src msg : Nat) (m : Msg) (c : Comp) (s : State),
    let t := takeMsg m s
    let x := getSlot c m.slot
    let start : Slot → Slot := fun x => { x with rxToken := m.seq, announced := field m.body 0 4, rx := [], committed := false }
    (inboxMsg 0x20 src msg s = some m → getComp m.comp s = some c → m.epoch ≤ c.epoch → x.rxToken ≠ m.seq → x.lastToken ≠ m.seq →
      m.seq < 0x80000000 → x.state = .none ∨ x.state = .released → exec (.handoffOffer src msg) s =
        .next (onSlot m.comp m.slot start (setSlot m.comp m.slot .receiving t))) ∧
    (inboxMsg 0x21 src msg s = some m → (fabricDup m t).2 = true → getComp m.comp (noted m s) = some c → x.rxToken = m.seq →
      x.lastToken ≠ m.seq → exec (.handoffState src msg) s =
        .next (acceptSlot m (respondSt m stOk (onSlot m.comp m.slot (fun x => { x with rx := x.rx ++ m.body })
          (unholdMsg m (noted m s)))))) ∧
    (inboxMsg 0x22 src msg s = some m → getComp m.comp s = some c → x.rxToken = m.seq → x.lastToken ≠ m.seq →
      exec (.handoffCommit src msg) s = .next (acceptSlot m (onSlot m.comp m.slot (fun x => { x with committed := true }) t))) ∧
    (getComp m.comp t = some c →
      (inboxMsg 0x23 src msg s = some m → x.token = m.seq → x.peer = m.src → x.state = .offering →
        (m.status = stOk → exec (.handoffAccept src msg) s =
          .next (endHandoff m.comp m.slot stOk .released (dropRecs m.comp m.slot t))) ∧
        (m.status ≠ stOk → exec (.handoffAccept src msg) s = .next (endHandoff m.comp m.slot stRefused .owned t))) ∧
      (inboxMsg 0x24 src msg s = some m → exec (.ownerQuery src msg) s =
        .next (decideOwner m c (sendOnly (mkMsg m.src m.dpart 0x25 m.comp c.epoch m.slot 0 (leBytes 1 x.state.code)) t))) ∧
      (inboxMsg 0x25 src msg s = some m → exec (.ownerAns src msg) s =
        .next (decideOwner m c (onSlot m.comp m.slot (fun x => { x with query := none }) t))))) ∧
  (∀ (f : Fn) (node : Nat) (v : W32) (w : W64) (s : State), f.vf = 0 →
    (Reaches f 0x300000 s → bits v.toNat 15 0 ≠ s.nodeId →
      ((s.fab.lanes.all fun e => e.2.state == .disabled) = true →
        exec (.nodeIdWrite f v) s = .next { s with nodeId := bits v.toNat 15 0 }) ∧
      ((s.fab.lanes.all fun e => e.2.state == .disabled) = false →
        exec (.nodeIdWrite f v) s = .next (onFabCounts (fun c => { c with cfgBusy := wrap64 (c.cfgBusy + 1) }) s))) ∧
    (node < 65536 → Reaches f (0x380000 + 8 * node) s →
      let bad := (List.range 4).any fun i => bit w.toNat (7 * i + 6) && decide (35 < bits w.toNat (7 * i + 5) (7 * i))
      (bad = true → exec (.routingEntryWrite f node w) s = .next s) ∧
      (bad = false → exec (.routingEntryWrite f node w) s = .next (rerouteWaiting (onFab (fun x => { x with
        routes := sset (fun _ => 0) x.routes node (2 ^ 63 * b2n (bit w.toNat 63) + bits w.toNat 27 0) }) s)))))

/-! Traffic management (chapter 13). -/

/-- Policers, shapers and the sampling ring (R394, R395, R398, R400, R403–R409): each tick refills every enabled bucket and
credit up to its limit; a commit takes the staged fields with full or empty buckets, or sets CFG_ERR on fields that may not be;
a round writes an entry per sampled partition and kind, counts them all lost for want of room, or stops the ring on a failed
write; sampling starts at TAIL 0, and refuses a change of its port or size while it runs, the other fields taking effect; HEAD
moves up to TAIL at most. Readings of the model's own: log entries 21, 68. -/
def Obligations.MetersRefillAndSample : Prop :=
  (∀ s : State, keysRise s.tm.policers = true → keysRise s.tm.shapers = true →
    (∃ ps, exec .policerRefill s = .next (onTm (fun t => { t with policers := ps }) s) ∧
      ∀ n, sget policerReset ps n = refillPolicer (getPolicer n s)) ∧
    (∃ hs, exec .shaperRefill s = .next (drainPorts (onTm (fun t => { t with shapers := hs }) s)) ∧
      ∀ n, sget shaperReset hs n = refillShaper (getShaper n s))) ∧
  (∀ (f : Fn) (n : Nat) (v : W32) (s : State), f.vf = 0 → n < 192 → bit v.toNat 31 = true →
    (Reaches f (0x201010 + 0x20 * n) s →
      let p := { getPolicer n s with cfgErr := (getPolicer n s).cfgErr && !bit v.toNat 28 }
      let c := p.staged.getD p.cfg
      (polCfgOk c = true → exec (.policerCommit f n v) s = .next (onPolicer n (fun _ => { p with
        cfg := c, staged := none, tc := if bit v.toNat 30 then 0 else c.cbs, te := if bit v.toNat 30 then 0 else c.ebs }) s)) ∧
      (polCfgOk c = false → exec (.policerCommit f n v) s = .next (onPolicer n (fun _ => { p with cfgErr := true }) s))) ∧
    (Reaches f (0x205008 + 0x10 * n) s →
      let p := { getShaper n s with cfgErr := (getShaper n s).cfgErr && !bit v.toNat 28 }
      let c := p.staged.getD p.cfg
      (leastBurst n ≤ c.burst → exec (.shaperCommit f n v) s = .next (drainPorts (onShaper n (fun _ => { p with
        cfg := c, staged := none, credit := if bit v.toNat 30 then 0 else c.burst }) s))) ∧
      (c.burst < leastBurst n →
        exec (.shaperCommit f n v) s = .next (drainPorts (onShaper n (fun _ => { p with cfgErr := true }) s))))) ∧
  (∀ (now : Nat) (ok : Bool) (s : State), let t := atTime now s
    let es := roundEntries t
    let ends : State → Host.Outcome State Fault Refusal := fun u =>
      .next (onTm (fun x => { x with round := x.round + 1, lastRound := timeUs t }) u)
    t.tm.ringEnable = true → t.tm.lastRound + t.tm.intervalUs ≤ timeUs t →
    (sampleRoom t < es.length → exec (.samplingRound now ok) s =
      ends (onTm (fun x => { x with samplesLost := wrap64 (x.samplesLost + es.length) }) t)) ∧
    (es.length ≤ sampleRoom t → es = [] ∨ ok = true → exec (.samplingRound now ok) s = ends (es.foldl putSample t)) ∧
    (es.length ≤ sampleRoom t → es ≠ [] → ok = false → exec (.samplingRound now ok) s =
      ends (fileRec (mkRec 0x08 2 5 (locHost { port := t.tm.ringPort, vf := 0 } (t.tm.ringBase + 32 * t.tm.ringTail)))
        (onTm (fun x => { x with ringEnable := false, ringDmaErr := true }) t)))) ∧
  (∀ (f : Fn) (v : W32) (w : W64) (s : State), f.vf = 0 →
    (Reaches f 0x200018 s →
      let n := v.toNat
      let port := if bit n 30 then Port.b else Port.a
      let log2 := if 8 ≤ bits n 29 25 ∧ bits n 29 25 ≤ 20 then bits n 29 25 else s.tm.ringLog2
      let live : State → State := onTm (fun x => { x with
        ringEnable := bit n 31, kinds := bits n 24 21
        intervalUs := if bits n 15 0 = 0 then s.tm.intervalUs else bits n 15 0 })
      let set : State → State := onTm (fun x => { x with ringPort := port, ringLog2 := log2 })
      (s.tm.ringEnable = false → bit n 31 = true → exec (.samplingEnable f v) s =
        .next (onTm (fun x => { x with ringTail := 0, ringPhase := true, lastRound := timeUs s }) (live (set s)))) ∧
      (s.tm.ringEnable = false → bit n 31 = false → exec (.samplingEnable f v) s = .next (live (set s))) ∧
      (s.tm.ringEnable = true → port = s.tm.ringPort → log2 = s.tm.ringLog2 →
        exec (.samplingEnable f v) s = .next (live (set s))) ∧
      (s.tm.ringEnable = true → port ≠ s.tm.ringPort ∨ log2 ≠ s.tm.ringLog2 →
        exec (.samplingEnable f v) s = .next (live (countTmBusy s)))) ∧
    (Reaches f 0x200028 s →
      let h := bits w.toNat 19 0
      let n := 2 ^ s.tm.ringLog2
      let ahead := (h + n - s.tm.ringHead) % n ≤ (s.tm.ringTail + n - s.tm.ringHead) % n
      (h < n → ahead → exec (.ringHeadWrite f w) s = .next (onTm (fun x => { x with ringHead := h }) s)) ∧
      (n ≤ h ∨ ¬ahead → exec (.ringHeadWrite f w) s = .next (fileBadValue f 0 0x200028 0xFF 0xFF s))))

/-! The media (chapter 14). -/

/-- The media commands and the journal (R413, R414, R430–R434, R444–R447): MED_PROFILE stores its profile in NOR; MED_FORMAT formats;
MED_CHECKPOINT starts a checkpoint, or joins the one that runs; MED_RETIRE_LUN fails a LUN and counts its valid pages; MED_INFO reports;
the parts are checked once after power-on, a mismatch failing its channel, and the mount runs while MOUNTING; a flush that is due
writes a segment where the ring has room, else it waits, counted once, and a checkpoint starts; checkpoints start by time, and one not
committed in 30 s is abandoned. Readings of the model's own: log entries 70, 71, 72, 73. -/
def Obligations.MediaCommandsAct : Prop :=
  (∀ (c : CmdRef) (d : CmdIn) (k : Cmd) (ps inp : List Byte) (bad : List Nat) (s : State),
    let t := running c s
    let due : Nat → Prop := fun op => Due op (fun _ => true) c d k ps inp s
    let served := s.med.state ≠ .mounting
    (due 0x40 → served → k.dataLen = 128 → profileBad inp = false → s.med.state = .unconfigured ∨ s.med.state = .unformatted →
      exec (.medProfile c d) s = .next (completeSt k.ref stOk (onMed (fun m => { m with norProfile := some inp }) t))) ∧
    (due 0x41 → served → k.dataLen = 0 → formatBad ps = false → s.srch.indexes = [] → s.med.state ≠ .unconfigured →
      s.med.held = false → capacityOk (parseFormat ps).logicalPages (parseFormat ps).width (formatFlash (parseFormat ps) bad s) = true →
      nodeDramOk (formatFlash (parseFormat ps) bad s) = true →
      exec (.medFormat c d bad) s = .next (completeSt k.ref stOk (formatFlash (parseFormat ps) bad t))) ∧
    (due 0x42 → served → k.dataLen = 0 → mediaUp s = true →
      exec (.medCheckpoint c d) s = .next (startCkpt (onMed (fun m => { m with ckptWaiters := m.ckptWaiters ++ [k.ref] }) t))) ∧
    (due 0x43 → served → k.dataLen = 0 → field ps 0 2 < lunCount s →
      exec (.medRetireLun c d) s = .next (complete k.ref stOk
        (validPages (fun ppn _ => ppnLun ppn t == field ps 0 2) t).length 0 [] (failLun (field ps 0 2) t))) ∧
    (due 0x44 → k.dataLen = 0 →
      exec (.medInfo c d) s = .next (finish k.ref d.resultOk stOk 0 0 (infoBytes t) t))) ∧
  (∀ (parts : List PartReport) (lost : List Nat) (s : State), s.board.boot.stage = .ready → s.med.wpHigh = false →
    let t := checkParts parts s
    (t.med.state = .mounting → exec (.mediaMount parts lost) s = .next (mountMedia lost t)) ∧
    (t.med.state ≠ .mounting → exec (.mediaMount parts lost) s = .next t) ∧
    (∀ b r i, s.med.profile = some b → parts = [r] → r.channel < 48 → firstMismatch b r = some i →
      t = onMed (fun m => { m with wpHigh := true }) (failChannel r.channel i s))) ∧
  (∀ (now : Nat) (s : State), let t := atTime now s
    let us := timeUs t
    let es := takeBody 524288 t.med.entries
    let seg := makeSegment false (bodyLen es) es t
    (mediaUp t = true → t.med.writing = none → flushNow t = true →
      (ringFits seg.pages t = true → exec (.journalFlush now) s = .next (issueSegPage (onMed (fun m => { m with
        entries := m.entries.drop es.length, flushDue := false, flushWaits := false, lastFlush := us, nextSeg := m.nextSeg + 1
        writing := some { seg := seg, page := 0, left := [], committed := false } }) t))) ∧
      (ringFits seg.pages t = false →
        (t.med.flushWaits = false → exec (.journalFlush now) s = .next (startCkpt (onMed (fun m => { m with flushWaits := true })
          (onMedCounts (fun c => { c with journalWait := wrap64 (c.journalWait + 1) }) t)))) ∧
        (t.med.flushWaits = true →
          exec (.journalFlush now) s = .next (startCkpt (onMed (fun m => { m with flushWaits := true }) t))))) ∧
    (ckptDue t = true → exec (.checkpointStart now) s = .next (startCkpt t)) ∧
    (∀ k, t.med.running = some k → k.start + 30000000 ≤ us → exec (.checkpointAbandon now) s =
      .next (sweepEmpty (onMed (fun m => { m with running := none, entries := m.entries.filter fun e => match e with
        | .ckptCommit n _ => n != k.num
        | _ => true }) t))))

/-- The work of a LUN (R421–R427, R437, R438, R443): the next read of the hub joins its queue and may suspend what runs; a read
that ends is counted and answered, an uncorrectable one with a record; a program that ends lands its page, a failed one goes
elsewhere and retires its block; an erase that ends frees its block, or retires it; a suspended operation resumes; a LUN that
fails gives up its work and is rebuilt; below GC_LOW the superblock with the fewest valid pages is emptied; once a millisecond
at most WL_RATE pages of cold data move while wear is uneven. Readings of the model's own: log entries 69, 70, 73, 74, 125. -/
def Obligations.FlashWorksAndWears : Prop :=
  ∀ (u : Nat) (s : State),
    (∀ now, let t := atTime now s
      let us := timeUs t
      (∀ p left r, (getLun u t).reads.length < 32 → nextTurn u t = some (p, left) → hubRead u p t = some r →
        let v := onMed (fun m => { m with hub := sset (fun _ => []) m.hub p ((sget (fun _ => []) m.hub p).erase r) }) t
        let into : Bool → Lun → Lun := fun stop l => { l with reads := l.reads ++ [{ r with asked := stop }], turn := p, left := left - 1 }
        (maySuspend (getLun u t) t = true → exec (.flashReadEnqueue u now) s = .next (beginArray u (onLun u
          (fun l => into true (suspendHead l)) (onMedCounts (fun c => { c with suspends := wrap64 (c.suspends + 1) }) v)))) ∧
        (maySuspend (getLun u t) t = false →
          exec (.flashReadEnqueue u now) s = .next (beginArray u (onLun u (into false) v)))) ∧
      (∀ r f, let b := beginArray u t
        (getLun u b).reads.find? (·.begun) = some r → r.part < 64 →
        let res := readResult r u f (onLun u (fun l => startHead (timeUs b) { l with reads := l.reads.erase r }) b)
        let count : Bool → State → State := fun good => onMedPart r.part (fun c => { c with
          reads := wrap64 (c.reads + 1), readUs := wrap64 (c.readUs + (timeUs b - r.queued))
          uncorr := if good then c.uncorr else wrap64 (c.uncorr + 1) })
        let answer : Option (Nat × Bool) → State → Host.Outcome State Fault Refusal := fun bad v =>
          .next (beginArray u (deliverRead r bad v))
        (res.1 = true → exec (.flashReadComplete u f now) s = answer none (count true res.2)) ∧
        (res.1 = false →
          let e := fileErr (readRec r u f (count false res.2)) none false (count false res.2)
          exec (.flashReadComplete u f now) s = answer (some (e.2.1, e.2.2)) e.1)) ∧
      (∀ o os, (getLun u t).ops = o :: os → o.suspended = true →
        (getLun u t).reads = [] ∨ (8 ≤ o.reads ∧ ((getLun u t).reads.any (·.begun)) = false) →
        exec (.operationResume u now) s = .next (onLun u (fun l => { l with
          ops := { o with suspended := false, since := us, reads := 0 } :: os }) t))) ∧
    (∀ o os, (getLun u s).ops = o :: os → o.started = true → o.suspended = false →
      let t := dropOp u s
      (∀ ppn tag why, o.work = .program ppn tag why →
        exec (.flashProgramComplete u true) s = .next (queueGroups (landProgram ppn tag why t)) ∧
        exec (.flashProgramComplete u false) s = .next (programFailed u ppn tag why t)) ∧
      (o.work = .segPage → exec (.flashProgramComplete u true) s = .next (segPageDone u true (countProgram t)) ∧
        exec (.flashProgramComplete u false) s = .next (issueOp u .segPage t)) ∧
      (∀ n, o.work = .anchor n → exec (.flashProgramComplete u true) s = .next (anchorDone n (countProgram t)) ∧
        exec (.flashProgramComplete u false) s = .next (issueOp u (.anchor n) t)) ∧
      (∀ b, o.work = .erase b → exec (.flashEraseComplete u true) s = .next (eraseDone u b true t) ∧
        exec (.flashEraseComplete u false) s = .next (retireBlock b (flashFail 0xFFFFFFFF (ppnOf b 0 t) u 0xFF t)))) ∧
    (u < lunCount s → lunAlive u s = true →
      let t := (getLun u s).ops.foldl (orphanOp u) (flashFail 0xFFFFFFFF 0xFFFFFFFF u 0xFF
        (onLun u (fun l => { l with state := .failed, ops := [] }) s))
      exec (.lunFailed u) s = .next (checkCapacity ((rebuildPages u t).foldl (copyPage false false) t))) ∧
    (mediaUp s = true → u < setCount s →
      (s.med.gcHigh ≤ freeSupers u s →
        exec (.garbageCollection u) s = .next (onMed (fun m => { m with collecting := m.collecting.filter (· != u) }) s)) ∧
      (∀ sb, freeSupers u s < s.med.gcHigh → freeSupers u s < s.med.gcLow ∨ s.med.collecting.contains u = true →
        let t := onMed (fun m => { m with collecting := if m.collecting.contains u then m.collecting else u :: m.collecting }) s
        leastBy ((closedSupers t).map fun e => (e.1, (superValid e.1 t).length)) = some sb →
        exec (.garbageCollection u) s = .next (emptySuper sb t))) ∧
    (∀ now, let t := atTime now s
      mediaUp t = true → t.med.coldAt + 1000 ≤ timeUs t →
      let moved : State → Host.Outcome State Fault Refusal := fun v =>
        .next ((v.med.coldLeft.take v.med.wlRate).foldl (copyPage false true)
          (onMed (fun m => { m with coldLeft := m.coldLeft.drop m.wlRate, coldAt := timeUs t }) v))
      (t.med.coldLeft ≠ [] → exec (.coldRelocation now) s = moved t) ∧
      (t.med.coldLeft = [] →
        (∀ sb, eraseMin t + 2000 < eraseMax t →
          ((closedSupers t).any fun e => e.2.members.any fun b => (getNand b t).erases == eraseMin t && (getNand b t).state != .retired) = true →
          leastBy ((closedSupers t).map fun e => (e.1, superWear e.2 t)) = some sb →
          exec (.coldRelocation now) s = moved (sweepEmpty (onMed (fun m => { m with
            wlActive := true, victims := m.victims ++ [sb], coldLeft := superValid sb t }) t))) ∧
        (eraseMax t ≤ eraseMin t + 2000 →
          exec (.coldRelocation now) s = moved (onMed (fun m => { m with wlActive := false }) t))))

/-! Criers, gating, errors and the board (chapters 1, 15, 16 and 18). -/

/-- Criers (R452, R453, R455, R456, R459, R460, R466–R468) and gating (R463): a post fills an empty message crier that is enabled,
and wakes its receiver; any other is rejected; a heartbeat post arms the watch of a port whose link is up; TAKE and WITHDRAW empty a
full crier, and only by the endpoint it names; the timeout marks it and leaves it full; firmware configures criers 0–95, a PF 96–125
and of its own heartbeat crier the timeout. A unit whose condition has held is gated, and a gated one that is needed wakes. The events of
errors and repair complete (R341, R476, R477, R482, R483, R489): a handled record is marked, handled records retire, a clean codeword or
word files nothing, a flit resent keeps its link, a spare takes its unit back into service, a unit that overruns its stop is acted on.
Readings of the model's own: log entries 81, 82. -/
def Obligations.CriersAndUnits : Prop :=
  (∀ (e : Endpoint) (n : Nat) (v : W32) (s : State), n < 128 → EndpointReaches e (crierOff n 4) s →
    let c := getCrier n s
    let named := c.sender = endpointCode e ∧ c.enable = true
    (¬named ∨ (n < 126 ∧ c.full = true) → exec (.crierPost e n v) s = .next (rejectCrier e n (crierOff n 4) s)) ∧
    (named → n < 126 → c.full = false → exec (.crierPost e n v) s = .next (notifyEndpoint c.receiver (countPost
      (onCrier n (fun c => { c with full := true, notice := v.toNat, timer := some (timeUs s, c.timeoutUs) }) s)))) ∧
    (named → ∀ p, heartbeatPort n = some p → s.host.linkUp.contains p = true →
      exec (.crierPost e n v) s = .next (onCrier n (fun c => { c with timer := some (timeUs s, c.timeoutUs) })
        (onHost (fun h => { h with
          hbArmed := if h.hbArmed.contains p then h.hbArmed else h.hbArmed ++ [p]
          hbLost := h.hbLost.filter (· != p) }) (countPost s))))) ∧
  (∀ (e : Endpoint) (n : Nat) (s : State), n < 128 → EndpointReaches e (crierOff n 0x10) s →
    let c := getCrier n s
    (c.receiver ≠ endpointCode e → exec (.crierTake e n) s = .next (rejectCrier e n (crierOff n 0x10) s)) ∧
    (c.receiver = endpointCode e → exec (.crierTake e n) s = .next
      (if c.full then notifyEndpoint c.sender (onCrier n (fun c => { emptied c with emptied := true }) s) else s)) ∧
    (c.sender ≠ endpointCode e → exec (.crierWithdraw e n) s = .next (rejectCrier e n (crierOff n 0x10) s)) ∧
    (c.sender = endpointCode e → exec (.crierWithdraw e n) s = .next (if c.full then onCrier n emptied s else s))) ∧
  (∀ (n now : Nat) (s : State), n < 126 → let t := atTime now s
    ∀ start us, (getCrier n t).timer = some (start, us) → (getCrier n t).full = true → start + us ≤ timeUs t →
      exec (.crierTimeout n now) s = .next (notifyEndpoint (getCrier n t).sender
        (onMbx (fun m => { m with timeouts := wrap64 (m.timeouts + 1) })
          (onCrier n (fun c => { c with timedOut := true, timer := none }) t)))) ∧
  (∀ (e : Endpoint) (n : Nat) (v : W32) (s : State), EndpointReaches e (crierOff n 0) s → namesReserved v.toNat = false →
    let c := getCrier n s
    let en := bit v.toNat 31
    let snd := bits v.toNat 27 24
    let rcv := bits v.toNat 23 20
    let host := e = .host .a ∨ e = .host .b
    ((n < 96 ∧ ¬host) ∨ (96 ≤ n ∧ n < 126 ∧ host) →
      let kept := setTimeout (bits v.toNat 19 0) (if c.enable && !en then emptied c else c)
      let fixed := (c.enable = true ∧ en = true) ∨ (c.enable = false ∧ c.full = true)
      ((snd = c.sender ∧ rcv = c.receiver) ∨ ¬fixed →
        exec (.mbxCcfgWrite e n v) s = .next (onCrier n (fun _ => { kept with enable := en, sender := snd, receiver := rcv }) s)) ∧
      (fixed → snd ≠ c.sender ∨ rcv ≠ c.receiver →
        exec (.mbxCcfgWrite e n v) s = .next (onMbx (fun m => { m with cfgBusy := wrap64 (m.cfgBusy + 1) })
          (onCrier n (fun _ => { kept with enable := en }) s)))) ∧
    ((n < 96 ∧ host) ∨ (96 ≤ n ∧ n < 126 ∧ ¬host) → exec (.mbxCcfgWrite e n v) s = .next s) ∧
    (∀ p, e = .host p → heartbeatPort n = some p →
      exec (.mbxCcfgWrite e n v) s = .next (onCrier n (setTimeout (bits v.toNat 19 0)) s)) ∧
    (∀ p, e = .host p → heartbeatPort n = some p.other → exec (.mbxCcfgWrite e n v) s = .next s)) ∧
  (∀ (kind : UnitKind) (n since now ns : Nat) (s : State), n < gateTotal kind →
    let t := atTime now s
    (unitAwake kind n t = true → s.board.pwr.noGate = false → gateCondition kind n t = true → since + gateDelay since t ≤ timeUs t →
      exec (.gatingEntry kind n since now) s = .next (setAwake kind n false t)) ∧
    (gateCondition kind n t = false ∨ s.board.pwr.noGate = true → exec (.gatingEntry kind n since now) s = .next t) ∧
    (unitAwake kind n s = false → s.board.pwr.noGate = true ∨ gateCondition kind n s = false →
      let u := setAwake kind n true s
      let q := unitQuadrant kind n
      exec (.unitWake kind n ns) s = .next (onPwr (fun p => { p with wakes := wrap64 (p.wakes + 1), wakeNsMax := max p.wakeNsMax ns })
        (if kind = .quadrantNet ∨ unitAwake .quadrantNet q u = true then u else setAwake .quadrantNet q true u)))) ∧
  (∀ (sev seq now : Nat) (f : Fn) (v : W32) (s : State), sev < 4 →
    (∃ t, exec (.recordHandled sev seq now) s = .next t ∧ ∀ r ∈ (getErrQueue sev t).recs, r.seq = seq → 2 ≤ sev → r.handled = true) ∧
    (∃ t, exec (.errorQueueRetire f sev v) s = .next t ∧ (bit v.toNat 31 = true → (getErrQueue sev t).lost = false) ∧
      (f.vf = 0 → f.port.num = s.err.owner → (∀ r ∈ (getErrQueue sev s).recs, r.handled = true) →
        retireCount (getErrQueue sev s) (v.toNat % 32) ≤ (getErrQueue sev s).recs.length →
        (getErrQueue sev t).head = v.toNat % 32 ∧
          (getErrQueue sev t).recs = (getErrQueue sev s).recs.drop (retireCount (getErrQueue sev s) (v.toNat % 32))))) ∧
  (∀ (stack pc row unit : Nat) (s : State), stack < 8 → pc < 32 → row < 1179648 → unit < 16 → s.err.scrubH ≠ 0 →
    inWriteSet (32 * stack + pc) row s = false →
    ∃ t, exec (.patrolScrub stack pc (row % 32) row unit .clean .clean) s = .next t ∧ t.err.queues = s.err.queues ∧
      t.err.rewritten.contains { stack := stack, pc := pc, bank := row % 32, row := row, unit := unit } = false) ∧
  (∀ (struct place unit word boundary link : Nat) (owner : Option UnitKind) (c : Option CmdRef) (s : State),
    exec (.sramScrub struct place unit word owner .clean) s = .next s ∧
    (boundary < 4 → link < 16 → s.err.nocOut.contains (boundary, link) = false →
      ∃ t, exec (.nocFlitFailure boundary link false c) s = .next t ∧ t.err.nocRetry = wrap64 (s.err.nocRetry + 1) ∧
        t.err.nocOut = s.err.nocOut)) ∧
  (∀ (kind : UnitKind) (n : Nat) (u : UnitOut) (s : State), unitOwner kind n s = none →
    findOut kind n s = some u → u.retired = false → sparesLeft kind n s ≠ 0 →
    ∃ t, exec (.substitution kind n true) s = .next t ∧ findOut kind n t = none ∧ sparesLeft kind n t = sparesLeft kind n s - 1) ∧
  (∀ (kind : UnitKind) (n : Nat) (s : State), removable kind n s = true →
    ∃ t, t.err.watchdog = wrap64 (s.err.watchdog + 1) ∧ t.err.outs = s.err.outs ∧
      exec (.unitWatchdog kind n) s = .next (settleHalt (fun _ => takeOut kind n true t) s))

/-- Errors (R341, R474–R477, R482, R483, R489, R491, R493, R494): HANDLED sets when it is due; the owner port's PF retires handled
records only; a scrub counts and records what it finds, and a codeword found wrong again at the first read after its write-back has its
row qualify for repair; a flit that fails twice takes its link out of service and ends its transaction
UNCORRECTABLE; a spare takes the number of a unit whose owner is quiesced, a bad spare is entered as such; a unit that overruns its stop
point goes out of service. Readings of the model's own: log entries 76, 77, 78, 79, 106. -/
def Obligations.ErrorsAndScrubs : Prop :=
  (∀ (sev seq now : Nat) (s : State), sev < 4 → let t := atTime now s
    exec (.recordHandled sev seq now) s = .next (onErrQueue sev (fun q => { q with
      recs := updWhere (fun r => r.seq == seq && (2 ≤ sev || r.timeFirst + 1000 * t.err.mergeMs ≤ timeUs t))
        (fun r => { r with handled := true }) q.recs }) t)) ∧
  (∀ (f : Fn) (sev : Nat) (v : W32) (s : State), sev < 4 →
    let t := if bit v.toNat 31 then onErrQueue sev (fun q => { q with lost := false }) s else s
    let q := getErrQueue sev s
    let h := v.toNat % 32
    let n := if q.recs.length = 32 ∧ h = q.head then 32 else (h + 32 - q.head) % 32
    (f.vf = 0 → f.port.num = s.err.owner → n ≤ q.recs.length → (∀ r ∈ q.recs.take n, r.handled = true) →
      exec (.errorQueueRetire f sev v) s = .next (onErrQueue sev (fun q => { q with recs := q.recs.drop n, head := h }) t)) ∧
    (f.vf ≠ 0 ∨ f.port.num ≠ s.err.owner ∨ q.recs.length < n ∨ (∃ r ∈ q.recs.take n, r.handled = false) →
      exec (.errorQueueRetire f sev v) s = .next t)) ∧
  (∀ (stack pc bank row unit : Nat) (again : EccOutcome) (s : State),
    stack < 8 → pc < 32 → row < 1179648 → bank = row % 32 → unit < 16 → s.err.scrubH ≠ 0 →
    let pass : State → State := fun t => if pc = 31 ∧ row = 1179647 ∧ unit = 15 then
      onDram stack (fun d => { d with passes := wrap64 (d.passes + 1) }) t else t
    (inWriteSet (32 * stack + pc) row s = true → ∀ first, exec (.patrolScrub stack pc bank row unit first again) s = .next s) ∧
    (inWriteSet (32 * stack + pc) row s = false →
      let p : MemPlace := { stack := stack, pc := pc, bank := bank, row := row, unit := unit }
      exec (.patrolScrub stack pc bank row unit .clean again) s = .next (pass (noteRead p s)) ∧
      exec (.patrolScrub stack pc bank row unit .uncorrectable again) s =
        .next (pass (dramLost none stack pc bank row unit s).1) ∧
      ∀ n, let t := dramCorrected stack pc bank row unit n s
        let u := if n < 2 then onErr (fun e => { e with rewritten := p :: e.rewritten })
          (onDram stack (fun d => { d with fixed := wrap64 (d.fixed + 1) }) t) else t
        exec (.patrolScrub stack pc bank row unit (.corrected n) .clean) s = .next (pass (noteRead p u)) ∧
        exec (.patrolScrub stack pc bank row unit (.corrected n) .uncorrectable) s =
          .next (pass (dramLost none stack pc bank row unit u).1) ∧
        ∀ m, exec (.patrolScrub stack pc bank row unit (.corrected n) (.corrected m)) s =
          .next (pass (dramCorrected stack pc bank row unit m u)))) ∧
  (∀ (stack pc bank row unit n : Nat) (s : State),
    let p : MemPlace := { stack := stack, pc := pc, bank := bank, row := row, unit := unit }
    let counted := onDram stack (fun d => { d with ce := wrap64 (d.ce + 1) }) (noteRead p s)
    let fixed := if 2 ≤ n then onErr (fun e => { e with rewritten := p :: e.rewritten })
      (onDram stack (fun d => { d with fixed := wrap64 (d.fixed + 1) }) counted) else counted
    let filed := fileRec (mkRec 0x10 1 1 (locDram stack pc bank n row unit)) fixed
    (s.err.rewritten.contains p = false → dramCorrected stack pc bank row unit n s = filed) ∧
    (s.err.rewritten.contains p = true → dramCorrected stack pc bank row unit n s = qualifyRow stack pc bank row unit filed)) ∧
  (∀ (struct place unit word n : Nat) (owner : Option UnitKind) (s : State),
    let corrected : State → State := fun s => fileRec (mkRec 0x12 1 2 (locSram struct place unit word n))
      (onErr (fun e => { e with sramCe := wrap64 (e.sramCe + 1) }) s)
    exec (.sramScrub struct place unit word owner .clean) s = .next s ∧
    exec (.sramScrub struct place unit word none (.corrected n)) s = .next (settleHalt corrected s) ∧
    (∀ kind, exec (.sramScrub struct place unit word (some kind) (.corrected n)) s =
      .next (settleHalt (fun s => countCe kind unit (corrected s)) s)) ∧
    exec (.sramScrub struct place unit word owner .uncorrectable) s =
      .next (settleHalt (sramLost struct place unit word owner) s) ∧
    (struct ≠ 7 → struct ≠ 8 → exec (.sramScrub struct place unit word none .uncorrectable) s =
      .next (settleHalt (fun s => (fileErr (mkRec 0x13 (sramSev struct) 2 (locSram struct place unit word 0)) none
        (sramSev struct == 3) (onErr (fun e => { e with sramUe := wrap64 (e.sramUe + 1) }) s)).1) s))) ∧
  (∀ (b l : Nat) (c : Option CmdRef) (s : State), b < 4 → l < 16 → s.err.nocOut.contains (b, l) = false →
    let resent : State → State := onErr fun e => { e with nocRetry := wrap64 (e.nocRetry + 1) }
    exec (.nocFlitFailure b l false c) s = .next (resent s) ∧
    exec (.nocFlitFailure b l true none) s = .next (settleHalt (fun s => fileRec (mkRec 0x14 2 3 (locNoc b l))
      (onErr (fun e => { e with nocUe := wrap64 (e.nocUe + 1), nocOut := e.nocOut ++ [(b, l)] }) (resent s))) s) ∧
    ∀ c' k, c = some c' → findCmd c' s = some k →
      exec (.nocFlitFailure b l true c) s = .next (settleHalt (fun s =>
        let r := fileErr (cmdRec k (mkRec 0x14 2 3 (locNoc b l))) none false
          (onErr (fun e => { e with nocUe := wrap64 (e.nocUe + 1), nocOut := e.nocOut ++ [(b, l)] }) (resent s))
        endUncorr r.2.1 r.2.2 r.1 c') s)) ∧
  (∀ (kind : UnitKind) (n : Nat) (u : UnitOut) (s : State),
    findOut kind n s = some u → u.retired = false → substReady kind n s = true → sparesLeft kind n s ≠ 0 →
    let p := (unitOwner kind n s).getD 64
    let t := useSpare kind n s
    exec (.substitution kind n true) s = .next (settleHalt (fun _ => settleWait p
      ((if p < 64 then onPart p (fun x => { x with counts := { x.counts with substs := wrap64 (x.counts.substs + 1) } }) else id)
        (onErr (fun e => { e with outs := e.outs.filter fun x => !(x.kind == kind && x.unit == n) })
          (fileRec { unitRec 0x21 0 kind n (logRepair (unitRepair kind n 0 u.seq) t) with nestedSeq := u.seq }
            (logRepair (unitRepair kind n 0 u.seq) t))))) s) ∧
    (let bad := logRepair { unitRepair kind n 0 u.seq with kind := 9, logical := 0xFFFF } t
     let filed := (fileErr (unitRec 0x20 2 kind n bad) (some u.seq) false bad).1
     exec (.substitution kind n false) s =
      .next (settleHalt (fun _ => if sparesLeft kind n filed = 0 then retireUnit kind n u.seq false filed else filed) s))) ∧
  (∀ (kind : UnitKind) (n : Nat) (s : State),
    (removable kind n s = true → exec (.unitWatchdog kind n) s = .next (settleHalt (fun s => takeOut kind n true
      (onErr (fun e => { e with watchdog := wrap64 (e.watchdog + 1) }) (fileErr (unitRec 0x23 3 kind n s) none false s).1)) s)) ∧
    (removable kind n s = false → exec (.unitWatchdog kind n) s = .next s))

/-- Power, heat and the SMBus (R26, R440, R442, R538–R541, R544, R545, R548, R553): a sample above 1,000 W, an excursion of 5 ms and a
100 ms average above 850 W throttle; heat throttles, and trips beyond its limit; the bank's readings hold and release writes; a loss of
input runs the hold-up sequence and holds the module in reset until input returns; the SMBus reads what the island keeps and NACKs a
CONTROL write without its enable or its PEC. Readings of the model's own: log entries 83, 84, 85, 86. -/
def Obligations.PowerAndSmbus : Prop :=
  (∀ (w mv now : Nat) (s : State), let t := atTime now s
    let p := s.board.pwr
    let start := if 850 < w then some (p.excStart.getD (timeUs t)) else none
    let recent := addSample (timeUs t) w p.recent
    let enter := 1000 < w ∨ (∃ b, start = some b ∧ b + 5000 ≤ timeUs t) ∨ 85000000 < (recent.map (·.2)).foldl (· + ·) 0
    ∃ throttle : Bool, (throttle = true ↔ enter ∨ (p.throttle = true ∧ 850 < w)) ∧
      exec (.powerSample w mv now) s = .next (onPwr (fun p => { p with
        inputW := min 1023 w, excursion := 850 < w, excStart := start, recent := recent, throttle := throttle
        excursions := wrap64 (p.excursions + b2n (decide (850 < w) && !p.excursion))
        throttles := wrap64 (p.throttles + b2n (throttle && !p.throttle)) })
          (onIsland (fun i => { i with inputMv := min 65535 (mv / 10) }) t))) ∧
  (∀ (hub lid : Nat) (dies : List Nat) (s : State), let hot := dies.foldl max 0
    ∃ throttle : Bool,
      (throttle = true ↔ 100 ≤ hub ∨ 100 ≤ hot ∨ (s.board.pwr.tThrottle = true ∧ (97 < hub ∨ 97 < hot))) ∧
      (let t := onPwr (fun p => { p with
        hubTemp := min 255 hub, stackTemp := min 255 hot, lidTemp := min 255 lid, tThrottle := throttle }) s
       let tripped := onIsland (fun i => { i with thermTrip := i.powered }) t
       (hub < 110 → hot < 105 → exec (.thermalSample hub dies lid) s = .next t) ∧
       (110 ≤ hub ∨ 105 ≤ hot → portsPowered s = true →
        exec (.thermalSample hub dies lid) s = .next (shutDown .tripped tripped)) ∧
       (110 ≤ hub ∨ 105 ≤ hot → portsPowered s = false → exec (.thermalSample hub dies lid) s = .next tripped))) ∧
  (∀ (n : Nat) (s : State), ∃ u u' : State,
    u = onIsland (fun i => { i with bankV := min 255 n }) s ∧ u' = onIsland (fun i => { i with bankNf := n }) s ∧
    (∀ (i : Instr) (t : State), (i = .bankMeasurement n ∧ t = u) ∨ (i = .bankCapacitanceTest n ∧ t = u') →
      (bankNj t < 620000000 → exec i s = .next (if s.med.held then t else holdWrites t)) ∧
      (620000000 ≤ bankNj t →
        exec i s = .next (if s.med.held = true ∧ 90 ≤ holdupPct t then releaseWrites t else t)))) ∧
  (∀ (mv d : Nat) (ov : Bool) (s : State), let phase := s.board.boot.phase
    let input : State → State := onIsland fun i => { i with inputMv := mv / 10 }
    let start : ResetCause → State → State := fun c => onBoot fun b => { b with phase := .starting c }
    (mv < 44000 → 2 ≤ d → portsPowered s = true → exec (.holdupStart mv d) s = .next (input (shutDown .heldUp s))) ∧
    (44000 ≤ mv ∨ d < 2 ∨ portsPowered s = false → exec (.holdupStart mv d) s = .next s) ∧
    (46000 ≤ mv → 100 ≤ d →
      (phase = .heldUp → exec (.inputRestored mv d) s = .next (start .holdup (input s))) ∧
      (phase = .off → s.board.island.modEn = true → s.board.island.powered = true →
        exec (.inputRestored mv d) s = .next (start .powerOn (input s))) ∧
      (phase = .tripped ∨ phase = .up → exec (.inputRestored mv d) s = .next (input s))) ∧
    (mv < 46000 ∨ d < 100 → exec (.inputRestored mv d) s = .next s) ∧
    (let t := onIsland (fun i => { i with inputFault := i.powered }) s
     exec (.inputFault ov) s = .next (if portsPowered s then shutDown .heldUp t else t))) ∧
  (∀ s : State,
    let fresh : Bool → State → State := fun powered =>
      onIsland fun i => { islandReset with powered := powered, modEn := i.modEn, bankV := i.bankV, bankNf := i.bankNf }
    (s.board.island.powered = false → exec .standbyIslandPowerUp s = .next (fresh true s)) ∧
    (portsPowered s = true → exec .standbyIslandPowerLoss s = .next (fresh false (goDown .off s))) ∧
    (portsPowered s = false → exec .standbyIslandPowerLoss s =
      .next (fresh false (onBoot (fun b => { b with phase := .off }) s)))) ∧
  (∀ s : State, let i := s.board.island
    let p := s.board.pwr
    let tells : List Nat → Host.Outcome State Fault Refusal := fun l => .next (emit (.smbus (some (l.map (BitVec.ofNat 8)))) s)
    i.powered = true →
    (exec .smbStatus s = .next (emit (.smbus (some (leBytes 1 (smbStatusByte s)))) s)) ∧
    (exec .smbInputMv s = tells [i.inputMv % 256, i.inputMv / 256]) ∧
    (exec .smbInputW s = tells [p.inputW % 256, p.inputW / 256]) ∧
    (exec .smbTemps s = tells [p.hubTemp, p.stackTemp, p.lidTemp, 0]) ∧
    (exec .smbHoldup s = tells [holdupPct s]) ∧
    (exec .smbSerial s = .next (emit (.smbus (some (if i.ready then serialBytes s else zeros 16))) s)) ∧
    (exec .smbCause s = tells [s.board.boot.cause.code]) ∧
    (exec .smbAlertResponse s = .next (emit (.smbus
      (if i.thermTrip || i.inputFault then some (leBytes 1 (2 * (0x60 + Config.smbAddr.toNat))) else none)) s)) ∧
    (let ack := emit (.smbus (some [])) s
     (exec (.smbClearSticky true) s = .next (onIsland (fun i => { i with thermTrip := false, inputFault := false }) ack)) ∧
     (i.resetEn = true → exec (.smbReset true) s = .next (if powerGood s then goDown (.starting .smbus) ack else ack)) ∧
     (i.recoveryEn = true → exec (.smbArmRecovery true) s = .next (onIsland (fun i => { i with armedRecovery := true }) ack))) ∧
    (∀ c, c = .smbClearSticky false ∨ c = .smbReset false ∨ c = .smbArmRecovery false ∨
        (i.resetEn = false ∧ c = .smbReset true) ∨ (i.recoveryEn = false ∧ c = .smbArmRecovery true) →
      exec c s = .next (emit (.smbus none) s)))

/-! Power-on, updates and security (chapter 17). -/

/-- The power-on sequence and the resets (R442, R508, R509, R515, R519, R521, R530, R533, R541, R542): the sequence waits for
the bank where power was removed; without a valid identity block or slot it stops in NO_IDENTITY or RECOVERY, and so does an
armed recovery; copy 0 of the block goes before copy 1; a valid slot is committed, with its manifest, signatures, certificate
and SVN in order, and countersigned under the owner lock; a slot it finds comes up READY, on trial where the record says so.
Each reset is taken from any stage past MOD_PG; it leaves the NOR records, the flash and the island, and every other block as
power-on leaves it. Readings of the model's own: log entries 75, 80, 87, 88, 94, 122, 127. -/
def Obligations.BootAndResets : Prop :=
  (∀ (c : ResetCause) (f : BootFindings) (s : State), s.board.boot.phase = .starting c →
    let removed := c = .powerOn ∨ c = .holdup
    let t := onBoot (fun b => { b with cause := c }) (onIsland (fun i => { i with pg := true }) { s with cycles := 0 })
    (removed → holdupPct s < 90 ∨ bankNj s < 620000000 → exec (.powerOn f) s = .next s) ∧
    (¬removed ∨ (90 ≤ holdupPct s ∧ 620000000 ≤ bankNj s) →
      (chosenCopy f t = none → exec (.powerOn f) s = .next (stopAt .noIdentity t)) ∧
      (∀ m, chosenCopy f t = some m →
        let i := useIdentity m t
        let u := if removed then onIsland (fun i => { i with armedRecovery := false }) i else i
        let forced := removed ∧ s.board.island.armedRecovery = true ∧ s.board.island.recoveryEn = true
        let choice := chooseSlot (fun n => if n = 0 then slotValid 0 f.slotA u else slotValid 1 f.slotB u) s.board.boot.record
        let v := onBoot (fun b => { b with record := choice.1 }) u
        (forced → exec (.powerOn f) s = .next (stopAt .recovery u)) ∧
        (¬forced →
          (choice.2.1 = none → exec (.powerOn f) s = .next (stopAt .recovery v)) ∧
          (∀ n, choice.2.1 = some n → exec (.powerOn f) s =
            .next (bringUp n (!choice.2.2 && s.board.boot.record.trial != 0xFF) choice.2.2 f (loadFactory m v))))))) ∧
  (∀ (f : BootFindings) (n : Nat) (v : SlotSigs) (s : State),
    (copyOk f.copy0 f.sigs0 s = true → chosenCopy f s = some f.copy0) ∧
    (copyOk f.copy0 f.sigs0 s = false → copyOk f.copy1 f.sigs1 s = true → chosenCopy f s = some f.copy1) ∧
    (slotValid n v s = true → (getFwSlot n s).commit = true ∧ manifestOk (getFwSlot n s) s = true ∧
      s.board.boot.minSvn ≤ slotSvn (getFwSlot n s) ∧ v.cert = true ∧ v.image = true ∧
      certForm 1 (firmwareCert (getFwSlot n s)) = true ∧ isRoot s (certIssuer (firmwareCert (getFwSlot n s))) = true ∧
      (s.board.boot.owner.locked = true → v.owner = true ∧ s.board.boot.owner.key ≠ none))) ∧
  (∀ (c : ResetCause) (us now : Nat) (s : State),
    let reset : ResetCause → State → State := fun c s => if powerGood s then goDown (.starting c) s else s
    (s.board.boot.resetReq = some c → exec (.moduleReset c) s = .next (reset c s)) ∧
    (s.board.boot.resetReq ≠ some c → exec (.moduleReset c) s = .next s) ∧
    (10 ≤ us → exec (.pinReset us) s = .next (reset .pin s)) ∧
    (us < 10 → exec (.pinReset us) s = .next s) ∧
    (s.board.boot.stage = .ready → exec .firmwareWatchdog s = .next (reset .watchdog s)) ∧
    (∀ t, s.board.boot.trialEnd = some t → t ≤ timeUs (atTime now s) → exec (.trialExpiry now) s =
      .next (reset .trialExpired (onBoot (fun b => { b with record := appendRec { b.record with tries := 0 } }) (atTime now s)))) ∧
    (∀ f v, f.vf = 0 → Reaches f 0xC0000C s → s.board.boot.owner.locked = false → recoveryFn s = false →
      let t := onBoot (fun b => { b with smbResetEn := bit (BitVec.toNat v) 30, smbRecoveryEn := bit (BitVec.toNat v) 29 }) s
      (bit v.toNat 31 = false → exec (.bootCtrlReset f v) s = .next t) ∧
      (bit v.toNat 31 = true → v.toNat % 65536 = 0x5253 → exec (.bootCtrlReset f v) s = .next (reset .host t)) ∧
      (bit v.toNat 31 = true → v.toNat % 65536 ≠ 0x5253 →
        exec (.bootCtrlReset f v) s = .next (fileBadValue f 0 0xC0000C 0xFF 0xFF t)))) ∧
  (∀ (us : Nat) (s : State),
    let high := onIsland (fun i => { i with modEn := true }) s
    let low := onIsland (fun i => { i with modEn := false, pg := false }) s
    (s.board.boot.phase = .off → s.board.island.powered = true → 4600 ≤ s.board.island.inputMv →
      exec .modEnRise s = .next (onBoot (fun b => { b with phase := .starting .powerOn }) high)) ∧
    (s.board.boot.phase ≠ .off ∨ s.board.island.powered = false ∨ s.board.island.inputMv < 4600 →
      exec .modEnRise s = .next high) ∧
    (10 ≤ us → portsPowered s = true → exec (.modEnFall us) s = .next (goDown .off low)) ∧
    (10 ≤ us → portsPowered s = false → exec (.modEnFall us) s = .next (onBoot (fun b => { b with phase := .off }) low)) ∧
    (us < 10 → exec (.modEnFall us) s = .next s)) ∧
  (∀ (p : Phase) (s : State), let t := goDown p s
    t.host = { hostReset with perst := s.host.perst } ∧ t.ptn = ptnStReset ∧ t.tm = tmReset ∧ t.srch = searchReset ∧
    t.sel = selReset ∧ t.stk = stallStReset ∧ t.til = tileStReset ∧ t.emb = embReset ∧ t.fab = fabReset ∧
    t.med = (powerCycleFlash (gaspFlash s)).med ∧ t.board.island = s.board.island ∧ t.board.boot.phase = p ∧
    t.board.boot.stage = .rom ∧ t.board.boot.record = s.board.boot.record ∧ t.board.boot.owner = s.board.boot.owner ∧
    t.board.boot.minSvn = s.board.boot.minSvn ∧ t.board.boot.slotA = s.board.boot.slotA ∧
    t.board.boot.slotB = s.board.boot.slotB ∧ t.err.field = s.err.field ∧ t.err.halted = false)

/-- FW_STAGE, FW_ARM, FW_CONFIRM, OWNER and ATTEST (R516–R520, R524, R526, R528), each where its checks pass: BEGIN erases the
inactive slot and opens the session; CHUNK programs it; FW_ARM writes the commit record and the trial; FW_CONFIRM makes the trial
slot the active one; OWNER reads with a fresh challenge, installs a key, locks and unlocks; ATTEST spends an index and answers, or
waits 5 ms after the last; and the recovery function's ERASE, WRITE, ARM and RESET (R522, R523).
Readings of the model's own: log entries 88, 89, 91, 92, 93, 122. -/
def Obligations.FirmwareOwnerAttest : Prop :=
  (∀ (c : CmdRef) (d : CmdIn) (k : Cmd) (ps inp : List Byte) (ok : Bool) (s : State),
    let t := running c s
    let b := s.board.boot
    let n := 1 - b.slot
    let due : Nat → (List Byte → Bool) → Nat → Prop := fun op form len => Due op form c d k ps inp s ∧ k.dataLen = len
    let owns := b.session = none ∨ ∃ x, b.session = some x ∧ x.port = cmdPort k s
    (due 0x50 (fun ps => !opIs 1 ps) 0 → field ps 0 1 = 0 → updateRefused s = false →
      exec (.fwStageBegin c d) s = .next (completeSt k.ref stOk (onBoot (fun b => { b with
        session := some { port := cmdPort k t, done := [] } }) (onFwSlot n (fun _ => fwSlotEmpty) t)))) ∧
    (∀ x, due 0x50 (opIs 1) k.dataLen → let off := field ps 8 4
      off % 4096 = 0 → 1 ≤ k.dataLen → k.dataLen ≤ 1048576 → off + k.dataLen ≤ 0x17FF000 → b.session = some x →
      x.port = cmdPort k s → programmed x off k.dataLen = false → crc32c inp = field ps 4 4 →
      exec (.fwStageChunk c d) s = .next (completeSt k.ref stOk (onBoot (fun b => { b with
        session := b.session.map fun x => { x with done := x.done ++ [(off, inp.length)] } })
          (onFwSlot n (fun x => { x with bytes := writeBytes x.bytes off inp }) t)))) ∧
    (due 0x51 (fun _ => true) 0 → field ps 0 1 ≤ 1 → updateRefused s = false → owns →
      ∀ v, ownerAgrees n v s = true → imagePasses n v s = true →
      let u := onBoot (fun b => { b with
        record := appendRec { b.record with trial := n, tries := 3 }, session := none }) (onFwSlot n (fun x => { x with commit := true }) t)
      exec (.fwArm c d v) s = .next (complete k.ref stOk 0 (manifest (getFwSlot n t) 8 4) []
        (if field ps 0 1 = 1 then onBoot (fun b => { b with resetReq := some .fwArm }) u else u))) ∧
    (due 0x52 (fun _ => true) 0 →
      (b.trial = false → exec (.fwConfirm c d) s = .next (completeSt k.ref stOk t)) ∧
      (b.trial = true → s.med.state ≠ .mounting → healthy s = true → exec (.fwConfirm c d) s =
        .next (complete k.ref stOk 1 0 [] (raiseSvn b.slot (onBoot (fun b => { b with
          record := appendRec { b.record with active := b.slot, trial := 0xFF, last := 0 }, trial := false, trialEnd := none }) t))))) ∧
    (due 0x54 (fun ps => opIs 0 ps || 3 < field ps 0 1) 0 → field ps 0 1 = 0 →
      let ch := (List.range 32).map (Config.freeByte s.free)
      exec (.ownerRead c d) s = .next (finish k.ref d.resultOk stOk 0 0 (ownerBytes b.owner ch)
        (takeFree 1 (onBoot (fun b => { b with challenge := some ch }) t)))) ∧
    (due 0x54 (opIs 1) 60 → b.owner.locked = false → keyOk inp = true →
      exec (.ownerInstallKey c d) s = .next (completeSt k.ref stOk (onBoot (fun b => { b with
        owner := { b.owner with key := some inp, seq := b.owner.seq + 1 } }) t))) ∧
    (due 0x54 (opIs 2) 0 → countersigned (getFwSlot b.slot s) ok s = true → exec (.ownerLock c d ok) s =
      .next (completeSt k.ref stOk (onBoot (fun b => { b with
        owner := { b.owner with locked := true, seq := b.owner.seq + 1 } }) t))) ∧
    (due 0x54 (opIs 3) 2964 →
      let spent := onBoot (fun b => { b with challenge := none }) t
      (ok = true → hssForm inp = true → b.challenge ≠ none → b.owner.key ≠ none → exec (.ownerUnlock c d ok) s =
        .next (completeSt k.ref stOk (onBoot (fun b => { b with
          owner := { b.owner with locked := false, seq := b.owner.seq + 1 } }) spent))) ∧
      (ok = false ∨ hssForm inp = false ∨ b.challenge = none ∨ b.owner.key = none →
        exec (.ownerUnlock c d ok) s = .next (completeSt k.ref stRefused spent))) ∧
    (due 0x53 (fun _ => true) 32 →
      (attestFree s = true → b.attWaiting = [] → exec (.attest c d) s = .next (runAttest k.ref inp d.resultOk t)) ∧
      (attestFree s = false ∨ b.attWaiting ≠ [] → exec (.attest c d) s =
        .next (onBoot (fun b => { b with attWaiting := b.attWaiting ++ [(k.ref, inp, d.resultOk)] }) t)))) ∧
  (∀ (c : CmdRef) (nonce : List Byte) (ok : Bool) (now q : Nat) (s : State), s.board.boot.attNext = some q →
    let started := onBoot (fun b => { b with attLast := some (timeUs s) }) s
    (q < 2 ^ 20 → runAttest c nonce ok s = let u := onBoot (fun b => { b with attNext := some (q + 1) }) started
      finish c ok stOk 0 0 (attestBytes q nonce u) u) ∧
    (2 ^ 20 ≤ q → runAttest c nonce ok s = completeSt c stNoResource started) ∧
    (∀ rest, let t := atTime now s
      s.board.boot.attWaiting = (c, nonce, ok) :: rest → attestFree t = true →
      exec (.attestStart now) s = .next (runAttest c nonce ok (onBoot (fun b => { b with attWaiting := rest }) t)))) ∧
  (∀ (p : Port) (chunk : Nat) (data : List Byte) (v : SlotSigs) (s : State), s.board.boot.stage = .recovery →
    let ends : Nat → State → State := fun e => onBoot fun b => { b with rcv := { state := if e = 0 then 2 else 3, error := e } }
    let mine := ∃ x, s.board.boot.session = some x ∧ x.port = p
    let filled := onBoot (fun b => { b with window := writeBytes b.window 0 (fit 65536 data) }) s
    (s.board.boot.session = none ∨ mine →
      exec (.rcvErase p) s = .next (ends 0 (onBoot (fun b => { b with session := some { port := p, done := [] } })
        (onFwSlot 0 (fun _ => fwSlotEmpty) s))) ∧
      exec (.rcvReset p) s = .next (onBoot (fun b => { b with resetReq := some .recoveryDone }) s)) ∧
    (mine →
      (let bs := readBytes filled.board.boot.window 0 (if chunk = 383 then 61440 else 65536)
       chunk ≤ 383 → (∀ x, s.board.boot.session = some x → programmed x (65536 * chunk) bs.length = false) →
        exec (.rcvWrite p chunk data) s = .next (ends 0 (onBoot (fun b => { b with
          session := b.session.map fun x => { x with done := x.done ++ [(65536 * chunk, bs.length)] } })
            (onFwSlot 0 (fun x => { x with bytes := writeBytes x.bytes (65536 * chunk) bs }) filled)))) ∧
      (90 ≤ holdupPct s → ownerAgrees 0 v s = true → imagePasses 0 v s = true →
        exec (.rcvArm p v) s = .next (ends 0 (onBoot (fun b => { b with
          record := appendRec { b.record with active := 0, trial := 0, tries := 3, last := 2 }, session := none })
            (onFwSlot 0 (fun x => { x with commit := true }) s))))) ∧
    ((∃ x, s.board.boot.session = some x ∧ x.port ≠ p) →
      (∀ i, i = .rcvErase p ∨ i = .rcvArm p v ∨ i = .rcvReset p → exec i s = .next (ends 1 s)) ∧
      exec (.rcvWrite p chunk data) s = .next (ends 1 filled)))

/-! The whole machine. -/

/-- What reset leaves, by the values that the spec gives (R12, R42, R68, R373, R464, R466, R482, R496, R533): no command waits, the
counters are 0, every queue is DISABLED, every partition FREE, no link up, no index, model or composition, ERR_CFG and BOOT_CTRL as
their tables have them, HALTED clear; and the byte memories stand in their canonical form. That the block begins at the start of its
power-on sequence, with the ROM about to run, is the model's choice. Readings of the model's own: log entry 8. -/
def Obligations.ResetIsAsTheSpecSays : Prop :=
  let s := State.reset
  s.pending = [] ∧ s.cycles = 0 ∧ MemoryCanonical s ∧
  (∀ q, (getQueue q s).state = .disabled ∧ (getQueue q s).enable = false) ∧
  (∀ p, (getPtn p s).state = .free) ∧ s.host.linkUp = [] ∧ s.host.hbArmed = [] ∧ s.host.cmds = [] ∧
  s.srch.indexes = [] ∧ s.til.models = [] ∧ s.fab.comps = [] ∧
  (∀ n, n < 126 → (getCrier n s).full = false ∧ (getCrier n s).timeoutUs = 10000) ∧
  s.err.intMin = 2 ∧ s.err.ceLimit = 64 ∧ s.err.scrubH = 24 ∧ s.err.mergeMs = 100 ∧ s.err.halted = false ∧ allRecs s = [] ∧
  s.board.boot.smbResetEn = true ∧ s.board.boot.smbRecoveryEn = true ∧ s.board.boot.stage = .rom ∧
  s.board.boot.phase = .starting .powerOn

/-- Every step keeps the byte memories in their canonical form, addresses rising and no zero listed, so that equal memories are
equal data: the regions (R20), the model images (R279), the firmware slots (R511), the identity block (R507) and the DATA window
(R522). Readings of the model's own: log entry 12. -/
def Obligations.StepsKeepMemoryCanonical : Prop :=
  ∀ s t : State, MemoryCanonical s → step s = .next t → MemoryCanonical t

/-- A step takes one command off the queue and puts none in; what the block has sent out is never changed, only added to; the number
of the next free value never falls, so no free value is used as two. The record of outputs and the number are the model's own.
Readings of the model's own: log entries 6, 7. -/
def Obligations.StepsConsumeAndRecord : Prop :=
  ∀ s t : State, step s = .next t → t.pending = s.pending.tail ∧ s.out <:+ t.out ∧ s.free ≤ t.free
end

