-- ==== Sys2Proof/Laws/State.lean ====
section
/-!
SUPPORT. What each named operation leaves in each field of the state, all true by unfolding.
-/
namespace Sys2Proof.Machine

variable (s : State)

/-! `onHost`. -/

@[simp] theorem onHost_host (f : HostSt → HostSt) : (onHost f s).host = f s.host := rfl
@[simp] theorem onHost_pending (f : HostSt → HostSt) : (onHost f s).pending = s.pending := rfl
@[simp] theorem onHost_out (f : HostSt → HostSt) : (onHost f s).out = s.out := rfl
@[simp] theorem onHost_free (f : HostSt → HostSt) : (onHost f s).free = s.free := rfl
@[simp] theorem onHost_cycles (f : HostSt → HostSt) : (onHost f s).cycles = s.cycles := rfl
@[simp] theorem onHost_nodeId (f : HostSt → HostSt) : (onHost f s).nodeId = s.nodeId := rfl
@[simp] theorem onHost_ptn (f : HostSt → HostSt) : (onHost f s).ptn = s.ptn := rfl
@[simp] theorem onHost_tm (f : HostSt → HostSt) : (onHost f s).tm = s.tm := rfl
@[simp] theorem onHost_err (f : HostSt → HostSt) : (onHost f s).err = s.err := rfl
@[simp] theorem onHost_srch (f : HostSt → HostSt) : (onHost f s).srch = s.srch := rfl
@[simp] theorem onHost_sel (f : HostSt → HostSt) : (onHost f s).sel = s.sel := rfl
@[simp] theorem onHost_grp (f : HostSt → HostSt) : (onHost f s).grp = s.grp := rfl
@[simp] theorem onHost_stk (f : HostSt → HostSt) : (onHost f s).stk = s.stk := rfl
@[simp] theorem onHost_til (f : HostSt → HostSt) : (onHost f s).til = s.til := rfl
@[simp] theorem onHost_emb (f : HostSt → HostSt) : (onHost f s).emb = s.emb := rfl
@[simp] theorem onHost_fab (f : HostSt → HostSt) : (onHost f s).fab = s.fab := rfl
@[simp] theorem onHost_med (f : HostSt → HostSt) : (onHost f s).med = s.med := rfl
@[simp] theorem onHost_board (f : HostSt → HostSt) : (onHost f s).board = s.board := rfl
@[simp] theorem onHost_onHost (f g : HostSt → HostSt) : onHost f (onHost g s) = onHost (fun x => f (g x)) s := rfl

/-! `onPtn`. -/

@[simp] theorem onPtn_ptn (f : PtnSt → PtnSt) : (onPtn f s).ptn = f s.ptn := rfl
@[simp] theorem onPtn_pending (f : PtnSt → PtnSt) : (onPtn f s).pending = s.pending := rfl
@[simp] theorem onPtn_out (f : PtnSt → PtnSt) : (onPtn f s).out = s.out := rfl
@[simp] theorem onPtn_free (f : PtnSt → PtnSt) : (onPtn f s).free = s.free := rfl
@[simp] theorem onPtn_cycles (f : PtnSt → PtnSt) : (onPtn f s).cycles = s.cycles := rfl
@[simp] theorem onPtn_nodeId (f : PtnSt → PtnSt) : (onPtn f s).nodeId = s.nodeId := rfl
@[simp] theorem onPtn_host (f : PtnSt → PtnSt) : (onPtn f s).host = s.host := rfl
@[simp] theorem onPtn_tm (f : PtnSt → PtnSt) : (onPtn f s).tm = s.tm := rfl
@[simp] theorem onPtn_err (f : PtnSt → PtnSt) : (onPtn f s).err = s.err := rfl
@[simp] theorem onPtn_srch (f : PtnSt → PtnSt) : (onPtn f s).srch = s.srch := rfl
@[simp] theorem onPtn_sel (f : PtnSt → PtnSt) : (onPtn f s).sel = s.sel := rfl
@[simp] theorem onPtn_grp (f : PtnSt → PtnSt) : (onPtn f s).grp = s.grp := rfl
@[simp] theorem onPtn_stk (f : PtnSt → PtnSt) : (onPtn f s).stk = s.stk := rfl
@[simp] theorem onPtn_til (f : PtnSt → PtnSt) : (onPtn f s).til = s.til := rfl
@[simp] theorem onPtn_emb (f : PtnSt → PtnSt) : (onPtn f s).emb = s.emb := rfl
@[simp] theorem onPtn_fab (f : PtnSt → PtnSt) : (onPtn f s).fab = s.fab := rfl
@[simp] theorem onPtn_med (f : PtnSt → PtnSt) : (onPtn f s).med = s.med := rfl
@[simp] theorem onPtn_board (f : PtnSt → PtnSt) : (onPtn f s).board = s.board := rfl
@[simp] theorem onPtn_onPtn (f g : PtnSt → PtnSt) : onPtn f (onPtn g s) = onPtn (fun x => f (g x)) s := rfl

/-! `onTm`. -/

@[simp] theorem onTm_tm (f : TmSt → TmSt) : (onTm f s).tm = f s.tm := rfl
@[simp] theorem onTm_pending (f : TmSt → TmSt) : (onTm f s).pending = s.pending := rfl
@[simp] theorem onTm_out (f : TmSt → TmSt) : (onTm f s).out = s.out := rfl
@[simp] theorem onTm_free (f : TmSt → TmSt) : (onTm f s).free = s.free := rfl
@[simp] theorem onTm_cycles (f : TmSt → TmSt) : (onTm f s).cycles = s.cycles := rfl
@[simp] theorem onTm_nodeId (f : TmSt → TmSt) : (onTm f s).nodeId = s.nodeId := rfl
@[simp] theorem onTm_host (f : TmSt → TmSt) : (onTm f s).host = s.host := rfl
@[simp] theorem onTm_ptn (f : TmSt → TmSt) : (onTm f s).ptn = s.ptn := rfl
@[simp] theorem onTm_err (f : TmSt → TmSt) : (onTm f s).err = s.err := rfl
@[simp] theorem onTm_srch (f : TmSt → TmSt) : (onTm f s).srch = s.srch := rfl
@[simp] theorem onTm_sel (f : TmSt → TmSt) : (onTm f s).sel = s.sel := rfl
@[simp] theorem onTm_grp (f : TmSt → TmSt) : (onTm f s).grp = s.grp := rfl
@[simp] theorem onTm_stk (f : TmSt → TmSt) : (onTm f s).stk = s.stk := rfl
@[simp] theorem onTm_til (f : TmSt → TmSt) : (onTm f s).til = s.til := rfl
@[simp] theorem onTm_emb (f : TmSt → TmSt) : (onTm f s).emb = s.emb := rfl
@[simp] theorem onTm_fab (f : TmSt → TmSt) : (onTm f s).fab = s.fab := rfl
@[simp] theorem onTm_med (f : TmSt → TmSt) : (onTm f s).med = s.med := rfl
@[simp] theorem onTm_board (f : TmSt → TmSt) : (onTm f s).board = s.board := rfl
@[simp] theorem onTm_onTm (f g : TmSt → TmSt) : onTm f (onTm g s) = onTm (fun x => f (g x)) s := rfl

/-! `onErr`. -/

@[simp] theorem onErr_err (f : ErrSt → ErrSt) : (onErr f s).err = f s.err := rfl
@[simp] theorem onErr_pending (f : ErrSt → ErrSt) : (onErr f s).pending = s.pending := rfl
@[simp] theorem onErr_out (f : ErrSt → ErrSt) : (onErr f s).out = s.out := rfl
@[simp] theorem onErr_free (f : ErrSt → ErrSt) : (onErr f s).free = s.free := rfl
@[simp] theorem onErr_cycles (f : ErrSt → ErrSt) : (onErr f s).cycles = s.cycles := rfl
@[simp] theorem onErr_nodeId (f : ErrSt → ErrSt) : (onErr f s).nodeId = s.nodeId := rfl
@[simp] theorem onErr_host (f : ErrSt → ErrSt) : (onErr f s).host = s.host := rfl
@[simp] theorem onErr_ptn (f : ErrSt → ErrSt) : (onErr f s).ptn = s.ptn := rfl
@[simp] theorem onErr_tm (f : ErrSt → ErrSt) : (onErr f s).tm = s.tm := rfl
@[simp] theorem onErr_srch (f : ErrSt → ErrSt) : (onErr f s).srch = s.srch := rfl
@[simp] theorem onErr_sel (f : ErrSt → ErrSt) : (onErr f s).sel = s.sel := rfl
@[simp] theorem onErr_grp (f : ErrSt → ErrSt) : (onErr f s).grp = s.grp := rfl
@[simp] theorem onErr_stk (f : ErrSt → ErrSt) : (onErr f s).stk = s.stk := rfl
@[simp] theorem onErr_til (f : ErrSt → ErrSt) : (onErr f s).til = s.til := rfl
@[simp] theorem onErr_emb (f : ErrSt → ErrSt) : (onErr f s).emb = s.emb := rfl
@[simp] theorem onErr_fab (f : ErrSt → ErrSt) : (onErr f s).fab = s.fab := rfl
@[simp] theorem onErr_med (f : ErrSt → ErrSt) : (onErr f s).med = s.med := rfl
@[simp] theorem onErr_board (f : ErrSt → ErrSt) : (onErr f s).board = s.board := rfl
@[simp] theorem onErr_onErr (f g : ErrSt → ErrSt) : onErr f (onErr g s) = onErr (fun x => f (g x)) s := rfl

/-! `onSrch`. -/

@[simp] theorem onSrch_srch (f : SearchSt → SearchSt) : (onSrch f s).srch = f s.srch := rfl
@[simp] theorem onSrch_pending (f : SearchSt → SearchSt) : (onSrch f s).pending = s.pending := rfl
@[simp] theorem onSrch_out (f : SearchSt → SearchSt) : (onSrch f s).out = s.out := rfl
@[simp] theorem onSrch_free (f : SearchSt → SearchSt) : (onSrch f s).free = s.free := rfl
@[simp] theorem onSrch_cycles (f : SearchSt → SearchSt) : (onSrch f s).cycles = s.cycles := rfl
@[simp] theorem onSrch_nodeId (f : SearchSt → SearchSt) : (onSrch f s).nodeId = s.nodeId := rfl
@[simp] theorem onSrch_host (f : SearchSt → SearchSt) : (onSrch f s).host = s.host := rfl
@[simp] theorem onSrch_ptn (f : SearchSt → SearchSt) : (onSrch f s).ptn = s.ptn := rfl
@[simp] theorem onSrch_tm (f : SearchSt → SearchSt) : (onSrch f s).tm = s.tm := rfl
@[simp] theorem onSrch_err (f : SearchSt → SearchSt) : (onSrch f s).err = s.err := rfl
@[simp] theorem onSrch_sel (f : SearchSt → SearchSt) : (onSrch f s).sel = s.sel := rfl
@[simp] theorem onSrch_grp (f : SearchSt → SearchSt) : (onSrch f s).grp = s.grp := rfl
@[simp] theorem onSrch_stk (f : SearchSt → SearchSt) : (onSrch f s).stk = s.stk := rfl
@[simp] theorem onSrch_til (f : SearchSt → SearchSt) : (onSrch f s).til = s.til := rfl
@[simp] theorem onSrch_emb (f : SearchSt → SearchSt) : (onSrch f s).emb = s.emb := rfl
@[simp] theorem onSrch_fab (f : SearchSt → SearchSt) : (onSrch f s).fab = s.fab := rfl
@[simp] theorem onSrch_med (f : SearchSt → SearchSt) : (onSrch f s).med = s.med := rfl
@[simp] theorem onSrch_board (f : SearchSt → SearchSt) : (onSrch f s).board = s.board := rfl
@[simp] theorem onSrch_onSrch (f g : SearchSt → SearchSt) : onSrch f (onSrch g s) = onSrch (fun x => f (g x)) s := rfl

/-! `onSel`. -/

@[simp] theorem onSel_sel (f : SelSt → SelSt) : (onSel f s).sel = f s.sel := rfl
@[simp] theorem onSel_pending (f : SelSt → SelSt) : (onSel f s).pending = s.pending := rfl
@[simp] theorem onSel_out (f : SelSt → SelSt) : (onSel f s).out = s.out := rfl
@[simp] theorem onSel_free (f : SelSt → SelSt) : (onSel f s).free = s.free := rfl
@[simp] theorem onSel_cycles (f : SelSt → SelSt) : (onSel f s).cycles = s.cycles := rfl
@[simp] theorem onSel_nodeId (f : SelSt → SelSt) : (onSel f s).nodeId = s.nodeId := rfl
@[simp] theorem onSel_host (f : SelSt → SelSt) : (onSel f s).host = s.host := rfl
@[simp] theorem onSel_ptn (f : SelSt → SelSt) : (onSel f s).ptn = s.ptn := rfl
@[simp] theorem onSel_tm (f : SelSt → SelSt) : (onSel f s).tm = s.tm := rfl
@[simp] theorem onSel_err (f : SelSt → SelSt) : (onSel f s).err = s.err := rfl
@[simp] theorem onSel_srch (f : SelSt → SelSt) : (onSel f s).srch = s.srch := rfl
@[simp] theorem onSel_grp (f : SelSt → SelSt) : (onSel f s).grp = s.grp := rfl
@[simp] theorem onSel_stk (f : SelSt → SelSt) : (onSel f s).stk = s.stk := rfl
@[simp] theorem onSel_til (f : SelSt → SelSt) : (onSel f s).til = s.til := rfl
@[simp] theorem onSel_emb (f : SelSt → SelSt) : (onSel f s).emb = s.emb := rfl
@[simp] theorem onSel_fab (f : SelSt → SelSt) : (onSel f s).fab = s.fab := rfl
@[simp] theorem onSel_med (f : SelSt → SelSt) : (onSel f s).med = s.med := rfl
@[simp] theorem onSel_board (f : SelSt → SelSt) : (onSel f s).board = s.board := rfl
@[simp] theorem onSel_onSel (f g : SelSt → SelSt) : onSel f (onSel g s) = onSel (fun x => f (g x)) s := rfl

/-! `onMut`. -/

@[simp] theorem onMut_grp (f : MutSt → MutSt) : (onMut f s).grp = f s.grp := rfl
@[simp] theorem onMut_pending (f : MutSt → MutSt) : (onMut f s).pending = s.pending := rfl
@[simp] theorem onMut_out (f : MutSt → MutSt) : (onMut f s).out = s.out := rfl
@[simp] theorem onMut_free (f : MutSt → MutSt) : (onMut f s).free = s.free := rfl
@[simp] theorem onMut_cycles (f : MutSt → MutSt) : (onMut f s).cycles = s.cycles := rfl
@[simp] theorem onMut_nodeId (f : MutSt → MutSt) : (onMut f s).nodeId = s.nodeId := rfl
@[simp] theorem onMut_host (f : MutSt → MutSt) : (onMut f s).host = s.host := rfl
@[simp] theorem onMut_ptn (f : MutSt → MutSt) : (onMut f s).ptn = s.ptn := rfl
@[simp] theorem onMut_tm (f : MutSt → MutSt) : (onMut f s).tm = s.tm := rfl
@[simp] theorem onMut_err (f : MutSt → MutSt) : (onMut f s).err = s.err := rfl
@[simp] theorem onMut_srch (f : MutSt → MutSt) : (onMut f s).srch = s.srch := rfl
@[simp] theorem onMut_sel (f : MutSt → MutSt) : (onMut f s).sel = s.sel := rfl
@[simp] theorem onMut_stk (f : MutSt → MutSt) : (onMut f s).stk = s.stk := rfl
@[simp] theorem onMut_til (f : MutSt → MutSt) : (onMut f s).til = s.til := rfl
@[simp] theorem onMut_emb (f : MutSt → MutSt) : (onMut f s).emb = s.emb := rfl
@[simp] theorem onMut_fab (f : MutSt → MutSt) : (onMut f s).fab = s.fab := rfl
@[simp] theorem onMut_med (f : MutSt → MutSt) : (onMut f s).med = s.med := rfl
@[simp] theorem onMut_board (f : MutSt → MutSt) : (onMut f s).board = s.board := rfl
@[simp] theorem onMut_onMut (f g : MutSt → MutSt) : onMut f (onMut g s) = onMut (fun x => f (g x)) s := rfl

/-! `onStk`. -/

@[simp] theorem onStk_stk (f : StallSt → StallSt) : (onStk f s).stk = f s.stk := rfl
@[simp] theorem onStk_pending (f : StallSt → StallSt) : (onStk f s).pending = s.pending := rfl
@[simp] theorem onStk_out (f : StallSt → StallSt) : (onStk f s).out = s.out := rfl
@[simp] theorem onStk_free (f : StallSt → StallSt) : (onStk f s).free = s.free := rfl
@[simp] theorem onStk_cycles (f : StallSt → StallSt) : (onStk f s).cycles = s.cycles := rfl
@[simp] theorem onStk_nodeId (f : StallSt → StallSt) : (onStk f s).nodeId = s.nodeId := rfl
@[simp] theorem onStk_host (f : StallSt → StallSt) : (onStk f s).host = s.host := rfl
@[simp] theorem onStk_ptn (f : StallSt → StallSt) : (onStk f s).ptn = s.ptn := rfl
@[simp] theorem onStk_tm (f : StallSt → StallSt) : (onStk f s).tm = s.tm := rfl
@[simp] theorem onStk_err (f : StallSt → StallSt) : (onStk f s).err = s.err := rfl
@[simp] theorem onStk_srch (f : StallSt → StallSt) : (onStk f s).srch = s.srch := rfl
@[simp] theorem onStk_sel (f : StallSt → StallSt) : (onStk f s).sel = s.sel := rfl
@[simp] theorem onStk_grp (f : StallSt → StallSt) : (onStk f s).grp = s.grp := rfl
@[simp] theorem onStk_til (f : StallSt → StallSt) : (onStk f s).til = s.til := rfl
@[simp] theorem onStk_emb (f : StallSt → StallSt) : (onStk f s).emb = s.emb := rfl
@[simp] theorem onStk_fab (f : StallSt → StallSt) : (onStk f s).fab = s.fab := rfl
@[simp] theorem onStk_med (f : StallSt → StallSt) : (onStk f s).med = s.med := rfl
@[simp] theorem onStk_board (f : StallSt → StallSt) : (onStk f s).board = s.board := rfl
@[simp] theorem onStk_onStk (f g : StallSt → StallSt) : onStk f (onStk g s) = onStk (fun x => f (g x)) s := rfl

/-! `onTil`. -/

@[simp] theorem onTil_til (f : TileSt → TileSt) : (onTil f s).til = f s.til := rfl
@[simp] theorem onTil_pending (f : TileSt → TileSt) : (onTil f s).pending = s.pending := rfl
@[simp] theorem onTil_out (f : TileSt → TileSt) : (onTil f s).out = s.out := rfl
@[simp] theorem onTil_free (f : TileSt → TileSt) : (onTil f s).free = s.free := rfl
@[simp] theorem onTil_cycles (f : TileSt → TileSt) : (onTil f s).cycles = s.cycles := rfl
@[simp] theorem onTil_nodeId (f : TileSt → TileSt) : (onTil f s).nodeId = s.nodeId := rfl
@[simp] theorem onTil_host (f : TileSt → TileSt) : (onTil f s).host = s.host := rfl
@[simp] theorem onTil_ptn (f : TileSt → TileSt) : (onTil f s).ptn = s.ptn := rfl
@[simp] theorem onTil_tm (f : TileSt → TileSt) : (onTil f s).tm = s.tm := rfl
@[simp] theorem onTil_err (f : TileSt → TileSt) : (onTil f s).err = s.err := rfl
@[simp] theorem onTil_srch (f : TileSt → TileSt) : (onTil f s).srch = s.srch := rfl
@[simp] theorem onTil_sel (f : TileSt → TileSt) : (onTil f s).sel = s.sel := rfl
@[simp] theorem onTil_grp (f : TileSt → TileSt) : (onTil f s).grp = s.grp := rfl
@[simp] theorem onTil_stk (f : TileSt → TileSt) : (onTil f s).stk = s.stk := rfl
@[simp] theorem onTil_emb (f : TileSt → TileSt) : (onTil f s).emb = s.emb := rfl
@[simp] theorem onTil_fab (f : TileSt → TileSt) : (onTil f s).fab = s.fab := rfl
@[simp] theorem onTil_med (f : TileSt → TileSt) : (onTil f s).med = s.med := rfl
@[simp] theorem onTil_board (f : TileSt → TileSt) : (onTil f s).board = s.board := rfl
@[simp] theorem onTil_onTil (f g : TileSt → TileSt) : onTil f (onTil g s) = onTil (fun x => f (g x)) s := rfl

/-! `onEmb`. -/

@[simp] theorem onEmb_emb (f : EmbSt → EmbSt) : (onEmb f s).emb = f s.emb := rfl
@[simp] theorem onEmb_pending (f : EmbSt → EmbSt) : (onEmb f s).pending = s.pending := rfl
@[simp] theorem onEmb_out (f : EmbSt → EmbSt) : (onEmb f s).out = s.out := rfl
@[simp] theorem onEmb_free (f : EmbSt → EmbSt) : (onEmb f s).free = s.free := rfl
@[simp] theorem onEmb_cycles (f : EmbSt → EmbSt) : (onEmb f s).cycles = s.cycles := rfl
@[simp] theorem onEmb_nodeId (f : EmbSt → EmbSt) : (onEmb f s).nodeId = s.nodeId := rfl
@[simp] theorem onEmb_host (f : EmbSt → EmbSt) : (onEmb f s).host = s.host := rfl
@[simp] theorem onEmb_ptn (f : EmbSt → EmbSt) : (onEmb f s).ptn = s.ptn := rfl
@[simp] theorem onEmb_tm (f : EmbSt → EmbSt) : (onEmb f s).tm = s.tm := rfl
@[simp] theorem onEmb_err (f : EmbSt → EmbSt) : (onEmb f s).err = s.err := rfl
@[simp] theorem onEmb_srch (f : EmbSt → EmbSt) : (onEmb f s).srch = s.srch := rfl
@[simp] theorem onEmb_sel (f : EmbSt → EmbSt) : (onEmb f s).sel = s.sel := rfl
@[simp] theorem onEmb_grp (f : EmbSt → EmbSt) : (onEmb f s).grp = s.grp := rfl
@[simp] theorem onEmb_stk (f : EmbSt → EmbSt) : (onEmb f s).stk = s.stk := rfl
@[simp] theorem onEmb_til (f : EmbSt → EmbSt) : (onEmb f s).til = s.til := rfl
@[simp] theorem onEmb_fab (f : EmbSt → EmbSt) : (onEmb f s).fab = s.fab := rfl
@[simp] theorem onEmb_med (f : EmbSt → EmbSt) : (onEmb f s).med = s.med := rfl
@[simp] theorem onEmb_board (f : EmbSt → EmbSt) : (onEmb f s).board = s.board := rfl
@[simp] theorem onEmb_onEmb (f g : EmbSt → EmbSt) : onEmb f (onEmb g s) = onEmb (fun x => f (g x)) s := rfl

/-! `onFab`. -/

@[simp] theorem onFab_fab (f : FabSt → FabSt) : (onFab f s).fab = f s.fab := rfl
@[simp] theorem onFab_pending (f : FabSt → FabSt) : (onFab f s).pending = s.pending := rfl
@[simp] theorem onFab_out (f : FabSt → FabSt) : (onFab f s).out = s.out := rfl
@[simp] theorem onFab_free (f : FabSt → FabSt) : (onFab f s).free = s.free := rfl
@[simp] theorem onFab_cycles (f : FabSt → FabSt) : (onFab f s).cycles = s.cycles := rfl
@[simp] theorem onFab_nodeId (f : FabSt → FabSt) : (onFab f s).nodeId = s.nodeId := rfl
@[simp] theorem onFab_host (f : FabSt → FabSt) : (onFab f s).host = s.host := rfl
@[simp] theorem onFab_ptn (f : FabSt → FabSt) : (onFab f s).ptn = s.ptn := rfl
@[simp] theorem onFab_tm (f : FabSt → FabSt) : (onFab f s).tm = s.tm := rfl
@[simp] theorem onFab_err (f : FabSt → FabSt) : (onFab f s).err = s.err := rfl
@[simp] theorem onFab_srch (f : FabSt → FabSt) : (onFab f s).srch = s.srch := rfl
@[simp] theorem onFab_sel (f : FabSt → FabSt) : (onFab f s).sel = s.sel := rfl
@[simp] theorem onFab_grp (f : FabSt → FabSt) : (onFab f s).grp = s.grp := rfl
@[simp] theorem onFab_stk (f : FabSt → FabSt) : (onFab f s).stk = s.stk := rfl
@[simp] theorem onFab_til (f : FabSt → FabSt) : (onFab f s).til = s.til := rfl
@[simp] theorem onFab_emb (f : FabSt → FabSt) : (onFab f s).emb = s.emb := rfl
@[simp] theorem onFab_med (f : FabSt → FabSt) : (onFab f s).med = s.med := rfl
@[simp] theorem onFab_board (f : FabSt → FabSt) : (onFab f s).board = s.board := rfl
@[simp] theorem onFab_onFab (f g : FabSt → FabSt) : onFab f (onFab g s) = onFab (fun x => f (g x)) s := rfl

/-! `onMed`. -/

@[simp] theorem onMed_med (f : FlashSt → FlashSt) : (onMed f s).med = f s.med := rfl
@[simp] theorem onMed_pending (f : FlashSt → FlashSt) : (onMed f s).pending = s.pending := rfl
@[simp] theorem onMed_out (f : FlashSt → FlashSt) : (onMed f s).out = s.out := rfl
@[simp] theorem onMed_free (f : FlashSt → FlashSt) : (onMed f s).free = s.free := rfl
@[simp] theorem onMed_cycles (f : FlashSt → FlashSt) : (onMed f s).cycles = s.cycles := rfl
@[simp] theorem onMed_nodeId (f : FlashSt → FlashSt) : (onMed f s).nodeId = s.nodeId := rfl
@[simp] theorem onMed_host (f : FlashSt → FlashSt) : (onMed f s).host = s.host := rfl
@[simp] theorem onMed_ptn (f : FlashSt → FlashSt) : (onMed f s).ptn = s.ptn := rfl
@[simp] theorem onMed_tm (f : FlashSt → FlashSt) : (onMed f s).tm = s.tm := rfl
@[simp] theorem onMed_err (f : FlashSt → FlashSt) : (onMed f s).err = s.err := rfl
@[simp] theorem onMed_srch (f : FlashSt → FlashSt) : (onMed f s).srch = s.srch := rfl
@[simp] theorem onMed_sel (f : FlashSt → FlashSt) : (onMed f s).sel = s.sel := rfl
@[simp] theorem onMed_grp (f : FlashSt → FlashSt) : (onMed f s).grp = s.grp := rfl
@[simp] theorem onMed_stk (f : FlashSt → FlashSt) : (onMed f s).stk = s.stk := rfl
@[simp] theorem onMed_til (f : FlashSt → FlashSt) : (onMed f s).til = s.til := rfl
@[simp] theorem onMed_emb (f : FlashSt → FlashSt) : (onMed f s).emb = s.emb := rfl
@[simp] theorem onMed_fab (f : FlashSt → FlashSt) : (onMed f s).fab = s.fab := rfl
@[simp] theorem onMed_board (f : FlashSt → FlashSt) : (onMed f s).board = s.board := rfl
@[simp] theorem onMed_onMed (f g : FlashSt → FlashSt) : onMed f (onMed g s) = onMed (fun x => f (g x)) s := rfl

/-! `onBoard`. -/

@[simp] theorem onBoard_board (f : BoardSt → BoardSt) : (onBoard f s).board = f s.board := rfl
@[simp] theorem onBoard_pending (f : BoardSt → BoardSt) : (onBoard f s).pending = s.pending := rfl
@[simp] theorem onBoard_out (f : BoardSt → BoardSt) : (onBoard f s).out = s.out := rfl
@[simp] theorem onBoard_free (f : BoardSt → BoardSt) : (onBoard f s).free = s.free := rfl
@[simp] theorem onBoard_cycles (f : BoardSt → BoardSt) : (onBoard f s).cycles = s.cycles := rfl
@[simp] theorem onBoard_nodeId (f : BoardSt → BoardSt) : (onBoard f s).nodeId = s.nodeId := rfl
@[simp] theorem onBoard_host (f : BoardSt → BoardSt) : (onBoard f s).host = s.host := rfl
@[simp] theorem onBoard_ptn (f : BoardSt → BoardSt) : (onBoard f s).ptn = s.ptn := rfl
@[simp] theorem onBoard_tm (f : BoardSt → BoardSt) : (onBoard f s).tm = s.tm := rfl
@[simp] theorem onBoard_err (f : BoardSt → BoardSt) : (onBoard f s).err = s.err := rfl
@[simp] theorem onBoard_srch (f : BoardSt → BoardSt) : (onBoard f s).srch = s.srch := rfl
@[simp] theorem onBoard_sel (f : BoardSt → BoardSt) : (onBoard f s).sel = s.sel := rfl
@[simp] theorem onBoard_grp (f : BoardSt → BoardSt) : (onBoard f s).grp = s.grp := rfl
@[simp] theorem onBoard_stk (f : BoardSt → BoardSt) : (onBoard f s).stk = s.stk := rfl
@[simp] theorem onBoard_til (f : BoardSt → BoardSt) : (onBoard f s).til = s.til := rfl
@[simp] theorem onBoard_emb (f : BoardSt → BoardSt) : (onBoard f s).emb = s.emb := rfl
@[simp] theorem onBoard_fab (f : BoardSt → BoardSt) : (onBoard f s).fab = s.fab := rfl
@[simp] theorem onBoard_med (f : BoardSt → BoardSt) : (onBoard f s).med = s.med := rfl
@[simp] theorem onBoard_onBoard (f g : BoardSt → BoardSt) : onBoard f (onBoard g s) = onBoard (fun x => f (g x)) s := rfl

/-! `emit`. -/

@[simp] theorem emit_out (o : Out) : (emit o s).out = o :: s.out := rfl
@[simp] theorem emit_pending (o : Out) : (emit o s).pending = s.pending := rfl
@[simp] theorem emit_free (o : Out) : (emit o s).free = s.free := rfl
@[simp] theorem emit_cycles (o : Out) : (emit o s).cycles = s.cycles := rfl
@[simp] theorem emit_nodeId (o : Out) : (emit o s).nodeId = s.nodeId := rfl
@[simp] theorem emit_host (o : Out) : (emit o s).host = s.host := rfl
@[simp] theorem emit_ptn (o : Out) : (emit o s).ptn = s.ptn := rfl
@[simp] theorem emit_tm (o : Out) : (emit o s).tm = s.tm := rfl
@[simp] theorem emit_err (o : Out) : (emit o s).err = s.err := rfl
@[simp] theorem emit_srch (o : Out) : (emit o s).srch = s.srch := rfl
@[simp] theorem emit_sel (o : Out) : (emit o s).sel = s.sel := rfl
@[simp] theorem emit_grp (o : Out) : (emit o s).grp = s.grp := rfl
@[simp] theorem emit_stk (o : Out) : (emit o s).stk = s.stk := rfl
@[simp] theorem emit_til (o : Out) : (emit o s).til = s.til := rfl
@[simp] theorem emit_emb (o : Out) : (emit o s).emb = s.emb := rfl
@[simp] theorem emit_fab (o : Out) : (emit o s).fab = s.fab := rfl
@[simp] theorem emit_med (o : Out) : (emit o s).med = s.med := rfl
@[simp] theorem emit_board (o : Out) : (emit o s).board = s.board := rfl

/-! `atTime`. -/

@[simp] theorem atTime_cycles (now : Nat) : (atTime now s).cycles = max s.cycles ((96 * now + 4) / 5) := rfl
@[simp] theorem atTime_pending (now : Nat) : (atTime now s).pending = s.pending := rfl
@[simp] theorem atTime_out (now : Nat) : (atTime now s).out = s.out := rfl
@[simp] theorem atTime_free (now : Nat) : (atTime now s).free = s.free := rfl
@[simp] theorem atTime_nodeId (now : Nat) : (atTime now s).nodeId = s.nodeId := rfl
@[simp] theorem atTime_host (now : Nat) : (atTime now s).host = s.host := rfl
@[simp] theorem atTime_ptn (now : Nat) : (atTime now s).ptn = s.ptn := rfl
@[simp] theorem atTime_tm (now : Nat) : (atTime now s).tm = s.tm := rfl
@[simp] theorem atTime_err (now : Nat) : (atTime now s).err = s.err := rfl
@[simp] theorem atTime_srch (now : Nat) : (atTime now s).srch = s.srch := rfl
@[simp] theorem atTime_sel (now : Nat) : (atTime now s).sel = s.sel := rfl
@[simp] theorem atTime_grp (now : Nat) : (atTime now s).grp = s.grp := rfl
@[simp] theorem atTime_stk (now : Nat) : (atTime now s).stk = s.stk := rfl
@[simp] theorem atTime_til (now : Nat) : (atTime now s).til = s.til := rfl
@[simp] theorem atTime_emb (now : Nat) : (atTime now s).emb = s.emb := rfl
@[simp] theorem atTime_fab (now : Nat) : (atTime now s).fab = s.fab := rfl
@[simp] theorem atTime_med (now : Nat) : (atTime now s).med = s.med := rfl
@[simp] theorem atTime_board (now : Nat) : (atTime now s).board = s.board := rfl

/-! `takeFree`. -/

@[simp] theorem takeFree_free (n : Nat) : (takeFree n s).free = s.free + n := rfl
@[simp] theorem takeFree_pending (n : Nat) : (takeFree n s).pending = s.pending := rfl
@[simp] theorem takeFree_out (n : Nat) : (takeFree n s).out = s.out := rfl
@[simp] theorem takeFree_cycles (n : Nat) : (takeFree n s).cycles = s.cycles := rfl
@[simp] theorem takeFree_nodeId (n : Nat) : (takeFree n s).nodeId = s.nodeId := rfl
@[simp] theorem takeFree_host (n : Nat) : (takeFree n s).host = s.host := rfl
@[simp] theorem takeFree_ptn (n : Nat) : (takeFree n s).ptn = s.ptn := rfl
@[simp] theorem takeFree_tm (n : Nat) : (takeFree n s).tm = s.tm := rfl
@[simp] theorem takeFree_err (n : Nat) : (takeFree n s).err = s.err := rfl
@[simp] theorem takeFree_srch (n : Nat) : (takeFree n s).srch = s.srch := rfl
@[simp] theorem takeFree_sel (n : Nat) : (takeFree n s).sel = s.sel := rfl
@[simp] theorem takeFree_grp (n : Nat) : (takeFree n s).grp = s.grp := rfl
@[simp] theorem takeFree_stk (n : Nat) : (takeFree n s).stk = s.stk := rfl
@[simp] theorem takeFree_til (n : Nat) : (takeFree n s).til = s.til := rfl
@[simp] theorem takeFree_emb (n : Nat) : (takeFree n s).emb = s.emb := rfl
@[simp] theorem takeFree_fab (n : Nat) : (takeFree n s).fab = s.fab := rfl
@[simp] theorem takeFree_med (n : Nat) : (takeFree n s).med = s.med := rfl
@[simp] theorem takeFree_board (n : Nat) : (takeFree n s).board = s.board := rfl

/-! The clock and the ports under block updates. -/

@[simp] theorem onHost_timeUs (f : HostSt → HostSt) : timeUs (onHost f s) = timeUs s := rfl
@[simp] theorem onPtn_timeUs (f : PtnSt → PtnSt) : timeUs (onPtn f s) = timeUs s := rfl
@[simp] theorem onTm_timeUs (f : TmSt → TmSt) : timeUs (onTm f s) = timeUs s := rfl
@[simp] theorem onErr_timeUs (f : ErrSt → ErrSt) : timeUs (onErr f s) = timeUs s := rfl
@[simp] theorem onSrch_timeUs (f : SearchSt → SearchSt) : timeUs (onSrch f s) = timeUs s := rfl
@[simp] theorem onSel_timeUs (f : SelSt → SelSt) : timeUs (onSel f s) = timeUs s := rfl
@[simp] theorem onMut_timeUs (f : MutSt → MutSt) : timeUs (onMut f s) = timeUs s := rfl
@[simp] theorem onStk_timeUs (f : StallSt → StallSt) : timeUs (onStk f s) = timeUs s := rfl
@[simp] theorem onTil_timeUs (f : TileSt → TileSt) : timeUs (onTil f s) = timeUs s := rfl
@[simp] theorem onEmb_timeUs (f : EmbSt → EmbSt) : timeUs (onEmb f s) = timeUs s := rfl
@[simp] theorem onFab_timeUs (f : FabSt → FabSt) : timeUs (onFab f s) = timeUs s := rfl
@[simp] theorem onMed_timeUs (f : FlashSt → FlashSt) : timeUs (onMed f s) = timeUs s := rfl
@[simp] theorem onBoard_timeUs (f : BoardSt → BoardSt) : timeUs (onBoard f s) = timeUs s := rfl
@[simp] theorem emit_timeUs (o : Out) : timeUs (emit o s) = timeUs s := rfl
@[simp] theorem takeFree_timeUs (n : Nat) : timeUs (takeFree n s) = timeUs s := rfl

end Sys2Proof.Machine
end

