-- ==== Sys2Proof/Laws/Begin.lean ====
section
/-!
SUPPORT. What the start of a fetched command answers (R51, R52, R61, R62, R339), and what a write that reaches its register does
(R33, R36, R37).
-/
namespace Sys2Proof.Machine

variable {op : Nat} {form : List Byte → Bool} {c : CmdRef} {d : CmdIn} {k : Cmd} {ps inp : List Byte} {s : State}
variable {check : Cmd → List Byte → List Byte → State → Verdict} {act : Cmd → List Byte → List Byte → State → State}

/-- A command found by a name has that name. -/
theorem findCmd_ref (h : findCmd c s = some k) : k.ref = c := by
  have := List.find?_some h
  simpa using this

/-- What the start of a due command answers, by the verdicts of its checks: those that need no input, then those of its
chapter. -/
theorem beginWith_due {early : Cmd → List Byte → State → Verdict} (h : Due op form c d k ps inp s) :
    beginWith op form early c d check act s =
      settleVerdict k (early k ps s) (settleVerdict k (check k ps inp s) fun s => act k ps inp (running c s)) s := by
  obtain ⟨h1, h2, h3, h4, h5, h6, h7, h8, h9⟩ := h
  simp only [beginWith, h1, h2, h3, h4, h5, h6, h7, h8, running, settleVerdict]
  cases early k ps s <;> simp
  cases check k ps inp s <;> simp [h9]

/-- A command whose checks pass begins. -/
theorem beginWith_go {early : Cmd → List Byte → State → Verdict} (h : Due op form c d k ps inp s)
    (he : early k ps s = .go) (hc : check k ps inp s = .go) :
    beginWith op form early c d check act s = act k ps inp (running c s) := by
  rw [beginWith_due h, he, hc]; rfl

/-- A command whose checks pass begins. -/
theorem begin_go (h : Due op form c d k ps inp s) (hc : check k ps inp s = .go) :
    begin op form c d check act s = act k ps inp (running c s) := beginWith_go h rfl hc

/-- The same as an outcome. -/
theorem next_begin {t : State} (h : Due op form c d k ps inp s) (hc : check k ps inp s = .go)
    (ht : act k ps inp (running c s) = t) :
    (.next (begin op form c d check act s) : Host.Outcome State Fault Refusal) = .next t := by
  rw [begin_go h hc, ht]

/-- The same for a command some of whose checks come before its input is read. -/
theorem next_beginWith {early : Cmd → List Byte → State → Verdict} {t : State} (h : Due op form c d k ps inp s)
    (he : early k ps s = .go) (hc : check k ps inp s = .go) (ht : act k ps inp (running c s) = t) :
    (.next (beginWith op form early c d check act s) : Host.Outcome State Fault Refusal) = .next t := by
  rw [beginWith_go h he hc, ht]

/-- A command whose checks refuse it completes with their status. -/
theorem begin_fail {st detail : Nat} (h : Due op form c d k ps inp s) (hc : check k ps inp s = .fail st detail) :
    begin op form c d check act s = complete c st 0 detail [] (countTurned k st s) := by
  unfold begin
  rw [beginWith_due h, hc, ← findCmd_ref h.found]; rfl

/-- A command whose checks let it wait stays as it is. -/
theorem begin_hold (h : Due op form c d k ps inp s) (hc : check k ps inp s = .hold) :
    begin op form c d check act s = s := by
  unfold begin
  rw [beginWith_due h, hc]; rfl

/-- A live function numbers at most 64 VFs. -/
theorem fnLive_vf {f : Fn} (h : fnLive f s = true) : f.vf ≤ 64 := by
  simp only [fnLive, Bool.or_eq_true, beq_iff_eq, Bool.and_eq_true, decide_eq_true_eq] at h
  omega

/-- A write that reaches its register has its effect and no other. -/
theorem writeAt_reaches {f : Fn} {off : Nat} {act : State → State} (h : Reaches f off s) : writeAt f off act s = act s := by
  obtain ⟨h1, h2, h3, h4⟩ := h
  have hv : f.vf ≤ 64 := by
    rcases h1 with h1 | h1
    · omega
    · exact fnLive_vf h1
  have hl : ¬(f.vf ≠ 0 ∧ (!fnLive f s) = true) := by
    rintro ⟨a, b⟩
    rcases h1 with h1 | h1
    · exact a h1
    · simp [h1] at b
  have hf : flushLatch f s = s := by simp [flushLatch, h2]
  unfold writeAt
  rw [if_neg hl, if_neg (by omega)]
  simp [hf, h3, h4]

/-- A write of an endpoint that reaches its register has its effect and no other. -/
theorem endpointWrite_reaches {e : Endpoint} {off : Nat} {act : State → State} (h : EndpointReaches e off s) :
    endpointWrite e off act s = act s := by
  cases e with
  | host p => exact writeAt_reaches h
  | core n => simp only [EndpointReaches] at h; simp [endpointWrite, h]
  | aoc => simp [endpointWrite, endpointOk]

end Sys2Proof.Machine
end

