-- ==== Sys2Proof/Laws/Maps.lean ====
section
/-!
SUPPORT. Laws of sparse tables and byte memories: a read after a write, and the canonical form kept.
-/
namespace Sys2Proof.Machine

variable {α : Type}

theorem tget?_tdel_same (m : Table α) (i : Nat) : tget? (tdel m i) i = none := by
  induction m with
  | nil => rfl
  | cons e m ih =>
    by_cases h : e.1 = i
    · simpa [tdel, h] using ih
    · simpa [tdel, h, tget?] using ih

theorem tget?_tdel_ne (m : Table α) {i j : Nat} (h : j ≠ i) : tget? (tdel m i) j = tget? m j := by
  induction m with
  | nil => rfl
  | cons e m ih =>
    by_cases h' : e.1 = i
    · subst h'
      simpa [tdel, tget?, Ne.symm h] using ih
    · by_cases hj : e.1 = j
      · simp [tdel, tget?, hj, h]
      · simpa [tdel, tget?, h', hj] using ih

theorem tget?_tins_same (v : α) (m : Table α) {i : Nat} (h : tget? m i = none) : tget? (tins i v m) i = some v := by
  induction m with
  | nil => simp [tins, tget?]
  | cons e m ih =>
    by_cases he : e.1 = i
    · simp [tget?, he] at h
    · have h' : tget? m i = none := by simpa [tget?, he] using h
      by_cases hl : i < e.1
      · simp [tins, tget?, hl]
      · simpa [tins, tget?, hl, he] using ih h'

theorem tget?_tins_ne (v : α) (m : Table α) {i j : Nat} (h : j ≠ i) : tget? (tins i v m) j = tget? m j := by
  induction m with
  | nil => simp [tins, tget?, Ne.symm h]
  | cons e m ih =>
    by_cases hl : i < e.1
    · simp [tins, tget?, hl, Ne.symm h]
    · by_cases hj : e.1 = j
      · subst hj
        simp [tins, tget?, hl]
      · simpa [tins, tget?, hl, hj] using ih

/-- A key reads what was put there. -/
@[simp] theorem tget?_tput_same (m : Table α) (i : Nat) (v : α) : tget? (tput m i v) i = some v :=
  tget?_tins_same v _ (tget?_tdel_same m i)

/-- Another key reads what it read before. -/
theorem tget?_tput_ne (m : Table α) (v : α) {i j : Nat} (h : j ≠ i) : tget? (tput m i v) j = tget? m j := by
  rw [tput, tget?_tins_ne v _ h, tget?_tdel_ne m h]

/-- A key of a sparse table reads what was stored there. -/
@[simp] theorem sget_sset_same [DecidableEq α] (d : Nat → α) (m : Table α) (i : Nat) (v : α) :
    sget d (sset d m i v) i = v := by
  unfold sset sget
  split
  · simp_all [tget?_tdel_same]
  · simp

/-- Another key reads what it read before. -/
theorem sget_sset_ne [DecidableEq α] (d : Nat → α) (m : Table α) (v : α) {i j : Nat} (h : j ≠ i) :
    sget d (sset d m i v) j = sget d m j := by
  unfold sset sget
  split
  · rw [tget?_tdel_ne m h]
  · rw [tget?_tput_ne m v h]

/-- A changed key reads the changed value. -/
@[simp] theorem sget_smod_same [DecidableEq α] (d : Nat → α) (m : Table α) (i : Nat) (f : α → α) :
    sget d (smod d m i f) i = f (sget d m i) := by simp [smod]

/-- Another key reads what it read before. -/
theorem sget_smod_ne [DecidableEq α] (d : Nat → α) (m : Table α) (f : α → α) {i j : Nat} (h : j ≠ i) :
    sget d (smod d m i f) j = sget d m j := sget_sset_ne d m _ h

theorem tdel_tdel (m : Table α) (i : Nat) : tdel (tdel m i) i = tdel m i := by
  simp [tdel]

theorem tdel_tins (v : α) (m : Table α) (i : Nat) : tdel (tins i v m) i = tdel m i := by
  induction m with
  | nil => simp [tins, tdel]
  | cons e m ih =>
    by_cases hl : i < e.1
    · simp [tins, tdel, hl]
    · by_cases he : e.1 = i
      · simpa [tins, tdel, hl, he] using ih
      · simpa [tins, tdel, hl, he] using ih

theorem tdel_tput (v : α) (m : Table α) (i : Nat) : tdel (tput m i v) i = tdel m i := by
  rw [tput, tdel_tins, tdel_tdel]

theorem tput_tput (v w : α) (m : Table α) (i : Nat) : tput (tput m i v) i w = tput m i w := by
  rw [tput, tdel_tput, tput]

theorem tput_tdel (v : α) (m : Table α) (i : Nat) : tput (tdel m i) i v = tput m i v := by rw [tput, tdel_tdel, tput]

/-- The later of two stores of one key counts. -/
@[simp] theorem sset_sset [DecidableEq α] (d : Nat → α) (m : Table α) (i : Nat) (v w : α) :
    sset d (sset d m i v) i w = sset d m i w := by
  by_cases hv : v = d i <;> by_cases hw : w = d i <;> simp [sset, hv, hw, tdel_tdel, tdel_tput, tput_tput, tput_tdel]

/-- Two changes of one key are one. -/
@[simp] theorem smod_smod [DecidableEq α] (d : Nat → α) (m : Table α) (i : Nat) (f g : α → α) :
    smod d (smod d m i f) i g = smod d m i (fun x => g (f x)) := by simp [smod]

/-! The canonical form. -/

/-- All keys of a table lie above `i`. -/
def above (i : Nat) (m : Table α) : Prop := ∀ e ∈ m, i < e.1

theorem keysRise_cons (e : Nat × α) (m : Table α) : keysRise (e :: m) = true ↔ above e.1 m ∧ keysRise m = true := by
  obtain ⟨i, v⟩ := e
  induction m generalizing i v with
  | nil => simp [keysRise, above]
  | cons f m ih =>
    obtain ⟨j, w⟩ := f
    simp only [keysRise, Bool.and_eq_true, decide_eq_true_eq, ih j w, above, List.mem_cons, forall_eq_or_imp]
    constructor
    · rintro ⟨h, ha, hm⟩
      exact ⟨⟨h, fun e he => lt_trans h (ha e he)⟩, ha, hm⟩
    · rintro ⟨⟨h, _⟩, ha, hm⟩
      exact ⟨h, ha, hm⟩

theorem keysRise_filter (p : Nat × α → Bool) (m : Table α) (h : keysRise m = true) : keysRise (m.filter p) = true := by
  induction m with
  | nil => simpa using h
  | cons e m ih =>
    rw [keysRise_cons] at h
    by_cases hp : p e
    · rw [List.filter_cons_of_pos hp, keysRise_cons]
      exact ⟨fun x hx => h.1 x (List.mem_of_mem_filter hx), ih h.2⟩
    · rw [List.filter_cons_of_neg (by simpa using hp)]
      exact ih h.2

theorem keysRise_tdel (m : Table α) (i : Nat) (h : keysRise m = true) : keysRise (tdel m i) = true :=
  keysRise_filter _ m h

theorem mem_tins {i : Nat} {v : α} {m : Table α} {e : Nat × α} (h : e ∈ tins i v m) : e = (i, v) ∨ e ∈ m := by
  induction m with
  | nil => simpa [tins] using h
  | cons f m ih =>
    simp only [tins] at h
    split at h
    · simpa using h
    · rcases List.mem_cons.1 h with h | h
      · exact .inr (h ▸ List.mem_cons_self ..)
      · exact (ih h).imp_right (List.mem_cons_of_mem _)

theorem keysRise_tins (v : α) (m : Table α) {i : Nat} (h : keysRise m = true) (hi : ∀ e ∈ m, e.1 ≠ i) :
    keysRise (tins i v m) = true := by
  induction m with
  | nil => simp [tins, keysRise]
  | cons f m ih =>
    have h' := (keysRise_cons f m).1 h
    simp only [tins]
    split
    · rename_i hl
      rw [keysRise_cons]
      refine ⟨fun e he => ?_, h⟩
      rcases List.mem_cons.1 he with he | he
      · simpa [he] using hl
      · exact lt_trans hl (h'.1 e he)
    · rename_i hl
      rw [keysRise_cons]
      refine ⟨fun e he => ?_, ih h'.2 fun e he => hi e (List.mem_cons_of_mem _ he)⟩
      rcases mem_tins he with he | he
      · have := hi f (List.mem_cons_self ..)
        subst he
        simp only
        omega
      · exact h'.1 e he

/-- Putting a pair keeps the keys rising. -/
theorem keysRise_tput (m : Table α) (i : Nat) (v : α) (h : keysRise m = true) : keysRise (tput m i v) = true :=
  keysRise_tins v _ (keysRise_tdel m i h) (by simp [tdel])

/-- A list of pairs whose values are mapped keeps its keys. -/
theorem keysRise_map {β : Type} (f : Nat × α → β) (m : Table α) (h : keysRise m = true) :
    keysRise (m.map fun e => (e.1, f e)) = true := by
  induction m with
  | nil => rfl
  | cons e m ih =>
    rw [keysRise_cons] at h
    rw [List.map_cons, keysRise_cons]
    refine ⟨fun x hx => ?_, ih h.2⟩
    obtain ⟨y, hy, rfl⟩ := List.mem_map.1 hx
    exact h.1 y hy

/-- The canonical form of a sparse table: keys strictly rising, no default listed. -/
def sparse [DecidableEq α] (d : Nat → α) (m : Table α) : Prop := keysRise m = true ∧ ∀ e ∈ m, e.2 ≠ d e.1

/-- A store keeps the canonical form. -/
theorem sparse_sset [DecidableEq α] (d : Nat → α) (m : Table α) (i : Nat) (v : α) (h : sparse d m) :
    sparse d (sset d m i v) := by
  unfold sset
  split
  · exact ⟨keysRise_tdel m i h.1, fun e he => h.2 e (List.mem_of_mem_filter he)⟩
  · rename_i hv
    refine ⟨keysRise_tput m i v h.1, fun e he => ?_⟩
    rcases mem_tins he with he | he
    · simpa [he] using hv
    · exact h.2 e (List.mem_of_mem_filter he)

/-- A change of one key keeps the canonical form. -/
theorem sparse_smod [DecidableEq α] (d : Nat → α) (m : Table α) (i : Nat) (f : α → α) (h : sparse d m) :
    sparse d (smod d m i f) := sparse_sset d m i _ h

/-! Byte memories. -/

/-- A stored byte reads back. -/
@[simp] theorem readByte_writeByte_same (m : Memory) (a : Nat) (b : Byte) : readByte (writeByte m a b) a = b :=
  sget_sset_same _ m a b

/-- Another address reads as before. -/
theorem readByte_writeByte_ne (m : Memory) (b : Byte) {a i : Nat} (h : i ≠ a) :
    readByte (writeByte m a b) i = readByte m i := sget_sset_ne _ m b h

/-- An address outside the stored bytes reads as before. -/
theorem readByte_writeBytes_out (m : Memory) (a : Nat) (bs : List Byte) {i : Nat} (h : i < a ∨ a + bs.length ≤ i) :
    readByte (writeBytes m a bs) i = readByte m i := by
  induction bs generalizing m a with
  | nil => rfl
  | cons b bs ih =>
    simp only [List.length_cons] at h
    rw [writeBytes, ih _ _ (by omega), readByte_writeByte_ne m b (by omega)]

/-- A stored byte keeps the canonical form. -/
theorem wf_writeByte (m : Memory) (a : Nat) (b : Byte) (h : m.wf) : (writeByte m a b).wf :=
  sparse_sset (fun _ => (0 : Byte)) m a b h

/-- Stored bytes keep the canonical form. -/
theorem wf_writeBytes (m : Memory) (a : Nat) (bs : List Byte) (h : m.wf) : (writeBytes m a bs).wf := by
  induction bs generalizing m a with
  | nil => exact h
  | cons b bs ih => exact ih _ _ (wf_writeByte m a b h)

/-- A stored number keeps the canonical form. -/
theorem wf_writeLe (m : Memory) (a n v : Nat) (h : m.wf) : (writeLe m a n v).wf := wf_writeBytes m a _ h

/-- Cleared bytes keep the canonical form. -/
theorem wf_clearBytes (m : Memory) (a n : Nat) (h : m.wf) : (clearBytes m a n).wf :=
  ⟨keysRise_filter _ m h.1, fun e he => h.2 e (List.mem_of_mem_filter he)⟩

/-- Bytes stored one by one, from anywhere, keep the canonical form. -/
theorem wf_foldl_writeByte (es : List (Nat × Byte)) (m : Memory) (h : m.wf) :
    Memory.wf (es.foldl (fun t e => writeByte t e.1 e.2) m) := by
  induction es generalizing m with
  | nil => exact h
  | cons e es ih => exact ih _ (wf_writeByte m e.1 e.2 h)

/-- An empty memory is canonical. -/
theorem wf_nil : Memory.wf [] := ⟨rfl, by simp⟩

end Sys2Proof.Machine
end

