-- ==== Sys2Proof/Laws/Ecc.lean ====
section
/-!
SUPPORT. What reading DRAM codewords for a command can do, and that an identity block from outside is put into canonical form.
-/
namespace Sys2Proof.Machine

/-- A read of DRAM codewords answers a record exactly when one is lost. -/
theorem dramRead_lost (k : Option Cmd) (ecc : EccOutcome) (p : MemPlace) (s : State) :
    (dramRead k ecc p s).2.isSome = true ↔ ecc = .uncorrectable := by
  cases ecc <;> simp [dramRead]

/-- With no codeword lost, a read notes its place, counts what it corrected, and answers nothing. -/
theorem dramRead_whole (k : Option Cmd) (p : MemPlace) (s : State) :
    dramRead k .clean p s = (noteRead p s, none) ∧
    ∀ n, dramRead k (.corrected n) p s = (dramCorrected p.stack p.pc p.bank p.row p.unit n s, none) := ⟨rfl, fun _ => rfl⟩

/-- An identity block, as NOR gives it, is held in canonical form. -/
theorem wf_storeMem (m : Memory) : Memory.wf (storeMem m) := wf_foldl_writeByte m [] wf_nil

end Sys2Proof.Machine
end

