-- ==== Sys2Proof/Laws/Fabric.lean ====
section
/-!
SUPPORT. What the handling of a message answers (R363, R364, R368, R375).
-/
namespace Sys2Proof.Machine

variable {kind compKind src msg : Nat} {m : Msg} {c : Comp} {r : Req} {s : State}

/-- A request this node serves runs once. -/
theorem handleReq_serves (h : Serves kind compKind src msg m c s) (run : Msg → Comp → State → State) :
    handleReq kind compKind src msg run s = run m c (unholdMsg m (noted m s)) := by
  obtain ⟨h1, h2, h3, h4, ⟨l, h5⟩, h6⟩ := h
  unfold handleReq
  simp only [h1, h2, if_true]
  change gateReq compKind m run (noted m s) = _
  simp only [gateReq, h3, h4, h5, h6]
  simp

/-- An answer of a request record is taken, and the record freed. -/
theorem handleRsp_answers (h : Answers kind src msg r m s) (run : Req → Msg → State → State) :
    handleRsp kind src msg run s = run r m (dropReq r.id (takeMsg m s)) := by
  obtain ⟨h1, h2⟩ := h
  unfold handleRsp
  simp only [h1, h2]

/-- A CTRL message that has come is handled. -/
theorem handleCtrl_arrived (h : inboxMsg kind src msg s = some m) (run : Msg → State → State) :
    handleCtrl kind src msg run s = run m (takeMsg m s) := by
  unfold handleCtrl
  simp only [h]

end Sys2Proof.Machine
end

