-- ==== Sys2Proof/Laws/Queues.lean ====
section
/-!
SUPPORT. Access laws of queue pairs, partitions, lanes and criers: what is read after a change.
-/
namespace Sys2Proof.Machine

variable (s : State)

@[simp] theorem getQueue_onQueue_same (q : QRef) (f : Queue → Queue) : getQueue q (onQueue q f s) = f (getQueue q s) := by
  simp [getQueue, onQueue]

theorem getQueue_onQueue_ne {q r : QRef} (f : Queue → Queue) (h : qkey r ≠ qkey q) :
    getQueue r (onQueue q f s) = getQueue r s := by
  simp [getQueue, onQueue, sget_smod_ne _ _ _ h]

/-- Two changes of a queue are one. -/
@[simp] theorem onQueue_onQueue (q : QRef) (f g : Queue → Queue) :
    onQueue q f (onQueue q g s) = onQueue q (fun x => f (g x)) s := by simp [onQueue]

/-- A change counts only by what it makes of the queue as it stands. -/
theorem onQueue_congr {q : QRef} {f g : Queue → Queue} (h : f (getQueue q s) = g (getQueue q s)) :
    onQueue q f s = onQueue q g s := by
  simp only [getQueue] at h
  simp only [onQueue, onHost, smod, h]

@[simp] theorem onQueue_ptn (q : QRef) (f : Queue → Queue) : (onQueue q f s).ptn = s.ptn := rfl
@[simp] theorem onQueue_board (q : QRef) (f : Queue → Queue) : (onQueue q f s).board = s.board := rfl
@[simp] theorem onQueue_err (q : QRef) (f : Queue → Queue) : (onQueue q f s).err = s.err := rfl
@[simp] theorem onQueue_timeUs (q : QRef) (f : Queue → Queue) : timeUs (onQueue q f s) = timeUs s := rfl
@[simp] theorem onQueue_cmds (q : QRef) (f : Queue → Queue) : (onQueue q f s).host.cmds = s.host.cmds := rfl
@[simp] theorem onQueue_dups (q : QRef) (f : Queue → Queue) : (onQueue q f s).host.dups = s.host.dups := rfl
@[simp] theorem scopePort_onQueue (sc : Scope) (q : QRef) (f : Queue → Queue) :
    scopePort sc (onQueue q f s) = scopePort sc s := rfl
@[simp] theorem queueHasContext_onQueue (r q : QRef) (f : Queue → Queue) :
    queueHasContext r (onQueue q f s) = queueHasContext r s := rfl
@[simp] theorem inflight_onQueue (r q : QRef) (f : Queue → Queue) : inflight r (onQueue q f s) = inflight r s := rfl

@[simp] theorem getPtn_onPart_same (p : Nat) (f : Ptn → Ptn) : getPtn p (onPart p f s) = f (getPtn p s) := by
  simp [getPtn, onPart]

@[simp] theorem onPart_onPart (p : Nat) (f g : Ptn → Ptn) :
    onPart p f (onPart p g s) = onPart p (fun x => f (g x)) s := by simp [onPart]

@[simp] theorem onPart_host (p : Nat) (f : Ptn → Ptn) : (onPart p f s).host = s.host := rfl
@[simp] theorem getQueue_onPart (q : QRef) (p : Nat) (f : Ptn → Ptn) : getQueue q (onPart p f s) = getQueue q s := rfl
@[simp] theorem getQueue_atTime (q : QRef) (now : Nat) : getQueue q (atTime now s) = getQueue q s := rfl
@[simp] theorem scopePort_atTime (sc : Scope) (now : Nat) : scopePort sc (atTime now s) = scopePort sc s := rfl

end Sys2Proof.Machine
end

