-- ==== Sys2Proof/Laws/Stall.lean ====
section
/-!
SUPPORT. What the issue of a stall instruction answers (R202), and the registers of a job (R198).
-/
namespace Sys2Proof.Machine

variable {n opc : Nat} {fields : List (Nat × Nat × Nat)} {reads : List (RegClass × Nat)} {words : List Nat} {j : Job} {s : State}

/-- An instruction that may issue has its effect on the job past its word. -/
theorem issue_acts (h : Issuing n opc fields reads words j s) {act : Effect} {j' : Job} {s' : State}
    (ha : act (advanced words j) s = some (j', s')) : issue n opc fields reads act s = withJob n j' s' := by
  obtain ⟨h1, h2, h3, h4, h5, h6, h7⟩ := h
  have hw : currentWord j = some (wordAt words j.pc) := by simp [currentWord, h2]
  have hf : fields.any (fun f => bits (wordAt words j.pc) f.1 f.2.1 != f.2.2) = false := by
    simp only [List.any_eq_false, bne_iff_ne, ne_eq, Decidable.not_not]
    exact fun f hf => h4 f hf
  have hr : reads.any (regPending j) = false := by
    simp only [List.any_eq_false]; intro r hr; simp [h6 r hr]
  unfold issue
  simp only [h1, hw, h3, hf, h5, hr, h7]
  simp only [bne_self_eq_false, Option.isSome_none, Bool.or_self, Bool.false_eq_true, if_false]
  rw [h2]
  unfold advanced at ha
  simp only [h2, h5] at ha
  simp only [ha]
  rfl

/-- An instruction that may issue but whose effect has to wait changes nothing. -/
theorem issue_waits (h : Issuing n opc fields reads words j s) {act : Effect} (ha : act (advanced words j) s = none) :
    issue n opc fields reads act s = s := by
  obtain ⟨h1, h2, h3, h4, h5, h6, h7⟩ := h
  have hw : currentWord j = some (wordAt words j.pc) := by simp [currentWord, h2]
  have hf : fields.any (fun f => bits (wordAt words j.pc) f.1 f.2.1 != f.2.2) = false := by
    simp only [List.any_eq_false, bne_iff_ne, ne_eq, Decidable.not_not]
    exact fun f hf => h4 f hf
  have hr : reads.any (regPending j) = false := by
    simp only [List.any_eq_false]; intro r hr; simp [h6 r hr]
  unfold issue
  simp only [h1, hw, h3, hf, h5, hr, h7]
  simp only [bne_self_eq_false, Option.isSome_none, Bool.or_self, Bool.false_eq_true, if_false]
  rw [h2]
  unfold advanced at ha
  simp only [h2, h5] at ha
  simp only [ha]

/-- The same as outcomes. -/
theorem next_issue (h : Issuing n opc fields reads words j s) {act : Effect} {j' : Job} {s' : State}
    (ha : act (advanced words j) s = some (j', s')) :
    (.next (issue n opc fields reads act s) : Host.Outcome State Fault Refusal) = .next (withJob n j' s') := by
  rw [issue_acts h ha]

variable {w sa imm size r b : Nat} {inc : Bool} {f : Nat → Nat → Effect}

/-- A memory access through a window that refuses it ends the job with the FAULT (R201). -/
theorem memAccess_error {e : Nat} (h : accessAt j w sa imm size = .error e) :
    memAccess n w sa imm size inc f j s = some (faultJob e j, s) := by simp [memAccess, h]

/-- A memory access waits for its rows (R202, R215). -/
theorem memAccess_waits (h : accessAt j w sa imm size = .ok (r, b))
    (ho : (accessRows r b size s).all (rowOpen (getStall n s)) = false) : memAccess n w sa imm size inc f j s = none := by
  have : ((accessRows r b size s).any fun rho => !rowOpen (getStall n s) rho) = true := by simpa using ho
  simp only [memAccess, h, this, if_true]

/-- A memory access whose rows are open acts at its region byte (R200, R202). -/
theorem memAccess_acts {j' : Job} {s' : State} (h : accessAt j w sa imm size = .ok (r, b))
    (ho : (accessRows r b size s).all (rowOpen (getStall n s)) = true) (hf : f r b j s = some (j', s')) :
    memAccess n w sa imm size inc f j s =
      some (if inc then writeS sa (readS j' sa + BitVec.ofNat 32 size) j' else j', s') := by
  have : ((accessRows r b size s).any fun rho => !rowOpen (getStall n s) rho) = false := by simpa using ho
  simp [memAccess, h, this, hf]

/-- A load with fewer than eight outstanding joins them (R202). -/
theorem loadInto_acts {cls : RegClass} {reg plus : Nat} (h : j.loads.length < 8) :
    loadInto cls reg size plus r b j s = some ({ j with loads := overtake cls reg j.loads ++
      [{ cls := cls, reg := reg, data := readBytes (((getRegion r s).map (·.mem)).getD []) b size, plus := plus,
         live := !(cls == .s && reg == 0) }] }, s) := by
  unfold loadInto; rw [if_neg (by omega)]

end Sys2Proof.Machine
end

