-- ==== Sys2Proof/Laws/Tile.lean ====
section
/-!
SUPPORT. What the issue of a tile instruction answers (R268).
-/
namespace Sys2Proof.Machine

/-- An instruction that may issue has its effect on the tile past its word. -/
theorem tileIssue_acts {t opc : Nat} {fields : List (Nat × Nat × Nat)} {x : TileCtx} {s : State}
    (h : TileIssuing t opc fields x s) (f : TileCtx → TileWork → State → State) :
    tileIssue t opc fields f s = f x (pastWord x) s := by
  obtain ⟨h1, h2, h3⟩ := h
  simp [tileIssue, h1, h2, h3, pastWord]

/-- The same as an outcome. -/
theorem next_tileIssue {t opc : Nat} {fields : List (Nat × Nat × Nat)} {x : TileCtx} {s t' : State}
    (h : TileIssuing t opc fields x s) {f : TileCtx → TileWork → State → State} (hf : f x (pastWord x) s = t') :
    (.next (tileIssue t opc fields f s) : Host.Outcome State Fault Refusal) = .next t' := by
  rw [tileIssue_acts h, hf]

end Sys2Proof.Machine
end

