-- ==== Sys2Proof/Tests/Slice0.lean ====
section
/-!
SUPPORT. Tests of the model: terms the well-formedness checks refuse, one step of a few commands on small states, and, for every
clause of the statements, a state that meets its hypotheses.
-/
set_option Elab.async false

namespace Sys2Proof.Machine.Tests
open Sys2Proof Sys2Proof.Machine

/-! Small states. -/

/-- A module that is READY, link up on port A, partition 0 running with context 0 and all its units. -/
def tPart : Ptn := { ptnReset 0 with
  state := .running, units := { tiles := 3, walkers := 3, stalls := 3 }, ctxs := [(0, { gang := 0, sliceUs := 1000, parked := false })],
  shares := { shelfMib := 8, dramMib := 4096, flashWeight := 1, fabShare := 1, flashPages := 1048576 } }

/-- Queue 0 of partition 0, and the control queue of PF A. -/
def tQ : QRef := { scope := .part 0, q := 0 }
/-- See `tQ`. -/
def tPf : QRef := { scope := .pf .a, q := 16 }
/-- A running queue of 16 entries, two of them posted. -/
def tQueue : Queue := { queueReset 0 with enable := true, state := .running, sqTail := 2, cqTail := 3, sqb := 4096, cqb := 8192 }

/-- Physical function A, and the virtual function of partition 0 behind it. -/
def tFn : Fn := { port := .a, vf := 0 }
/-- See `tFn`. -/
def tVf : Fn := { port := .a, vf := 1 }

/-- The module at work: READY, port A up with its VFs enabled, partition 0 running, its first queue and both control
queues enabled, every unit of partition 0 powered. -/
def tS : State := { State.reset with
  ptn := { ptnStReset with ptns := [(0, tPart)], awake := [(.walker, 0), (.walker, 1), (.tile, 0), (.tile, 1), (.selector, 0)] },
  host := { hostReset with queues := [(0, tQueue), (1088, tQueue)], linkUp := [.a], linkTrained := [.a], vfEnable := [.a] },
  board := { boardReset with boot := { bootReset with stage := .ready, phase := .up }, island := { islandReset with pg := true } } }

/-- A packet of an opcode, with its HANDLE, EPOCH, RESULT_LEN, DATA_LEN and 24 bytes of parameters. -/
def tPacket (op handle epoch rlen dlen : Nat) (ps : List Byte) : List Byte :=
  leBytes 1 op ++ zeros 1 ++ leBytes 2 handle ++ leBytes 4 7 ++ leBytes 4 epoch ++ zeros 4 ++ leBytes 8 (if dlen = 0 then 0 else 64)
    ++ leBytes 8 (if rlen = 0 then 0 else 128) ++ leBytes 4 dlen ++ leBytes 4 rlen ++ fit 24 ps

/-- The same with a parameter block of 64 bytes at host address 4,096. -/
def tBlockPacket (op handle epoch rlen dlen : Nat) : List Byte :=
  let p := tPacket op handle epoch rlen dlen (leBytes 8 4096 ++ leBytes 4 64)
  p.take 1 ++ leBytes 1 1 ++ p.drop 2

/-- A command of a queue. -/
def tCmd (q : QRef) (packet : List Byte) : Cmd := cmdOf q packet 0

/-- A state in which just these commands are fetched. -/
def withCmds (ks : List Cmd) (s : State) : State := onHost (fun h => { h with cmds := ks }) s

/-- The first unit of the DRAM. -/
def tPlace : MemPlace := { stack := 0, pc := 0, bank := 0, row := 0, unit := 0 }
/-- What the DMA of a command delivers. -/
def tIn (block input : Option (List Byte)) : CmdIn :=
  { block := block, input := input, resultOk := true, ecc := .clean, place := tPlace, linkCrate := 0,
    linkRead := .ok }

/-- A due command, its hypotheses gathered. -/
theorem due_of {op : Nat} {form : List Byte → Bool} {c : CmdRef} {d : CmdIn} {k : Cmd} {ps inp : List Byte} {s : State}
    (h : (findCmd c s = some k ∧ k.opcode = op ∧ k.phase = .waiting ∧ mayStart k s = true) ∧
      paramBytes k d = some ps ∧ form ps = true ∧ paramsBad k ps = false ∧ inputBytes k d = some inp ∧ heldByQuiesce k s = false) :
    Due op form c d k ps inp s :=
  ⟨h.1.1, h.1.2.1, h.1.2.2.1, h.1.2.2.2, h.2.1, h.2.2.1, h.2.2.2.1, h.2.2.2.2.1, h.2.2.2.2.2⟩

/-- A write that reaches its register, its hypotheses gathered. -/
theorem reaches_of {f : Fn} {off : Nat} {s : State}
    (h : (f.vf = 0 ∨ fnLive f s = true) ∧ pendingLow f s = none ∧ closedPage f off s = none ∧ blockAnswers off s = true) :
    Reaches f off s := ⟨h.1, h.2.1, h.2.2.1, h.2.2.2⟩

/-! Queue pairs. -/

/-- The slot of a doorbell through a PF, through its own page, through a VF; values at both ends of each clause. -/
theorem test_meets_doorbells :
    (bellSlot tFn 0 tQ tS ∧ bellSlot tFn 64 tPf tS ∧ bellSlot tVf 0 tQ tS ∧
      bellSlot tFn 0 { tQ with q := 16 } tS ∧ (getQueue { tQ with q := 16 } tS).state = .disabled) ∧
    (getQueue tQ tS).state ≠ .disabled ∧ (getQueue tQ tS).sqHead = 0 ∧ (getQueue tQ tS).cqTail = 3 ∧
    2 ^ (getQueue tQ tS).sqLog2 = 16 ∧
    (((getQueue tQ tS).sqTail + 16 - 0) % 16 ≤ (2 + 16 - 0) % 16 ∧ ((getQueue tQ tS).sqTail + 16 - 0) % 16 ≤ (15 + 16 - 0) % 16 ∧
      ¬((16 : Nat) < 16) ∧ ¬((getQueue tQ tS).sqTail + 16 - 0) % 16 ≤ (1 + 16 - 0) % 16) ∧
    ((3 + 16 - 0) % 16 ≤ (3 + 16 - 0) % 16 ∧ ¬(4 + 16 - 0) % 16 ≤ (3 + 16 - 0) % 16) := by decide +kernel

/-- Queue 1 of partition 0 enabled with sizes 4 and 16, and refused with size 3 and size 17. -/
theorem test_meets_queueEnable :
    Reaches tFn (queueReg { tQ with q := 1 } 0x10) tS ∧
    (holdsQueue tFn { tQ with q := 1 } = true ∧ (getQueue { tQ with q := 1 } tS).state = .disabled ∧
      queueHasContext { tQ with q := 0 } tS = true ∧ (scopePort (Scope.part 0) tS).isSome = true ∧ tS.board.boot.stage = .ready) ∧
    (let v : W32 := 0x92000000#32
     v.getLsbD 31 = true ∧ bits v.toNat 30 26 = 4 ∧ bits v.toNat 25 21 = 16) ∧
    (let v : W32 := 0x8E000000#32
     v.getLsbD 31 = true ∧ bits v.toNat 30 26 = 3 ∧ bits v.toNat 25 21 = 16) ∧
    (let v : W32 := 0x92200000#32
     v.getLsbD 31 = true ∧ bits v.toNat 30 26 = 4 ∧ bits v.toNat 25 21 = 17) := ⟨reaches_of (by decide +kernel), by decide +kernel⟩

/-- Queue 0 before it is enabled. -/
def tFresh : State := onHost (fun h => { h with queues := [] }) tS

/-- Every clause of the enabling of a queue, on queue 0, which has a context. -/
theorem test_meets_queueEnable_fresh : Reaches tFn (queueReg tQ 0x10) tFresh ∧ holdsQueue tFn tQ = true ∧
    (getQueue tQ tFresh).state = .disabled ∧ queueHasContext tQ tFresh = true := ⟨reaches_of (by decide +kernel), by decide +kernel⟩

/-- A running queue with ENABLE written clear; a draining and a halted queue with nothing in flight. -/
theorem test_meets_queueDisable :
    Reaches tFn (queueReg tQ 0x10) tS ∧ holdsQueue tFn tQ = true ∧ (getQueue tQ tS).enable = true ∧
    (getQueue tQ tS).state ≠ .disabled ∧ (0x10800000#32 : W32).getLsbD 31 = false ∧
    bits (0x10800000#32 : W32).toNat 30 26 = (getQueue tQ tS).sqLog2 ∧ bits (0x10800000#32 : W32).toNat 25 21 = (getQueue tQ tS).cqLog2 ∧
    bits (0x10800000#32 : W32).toNat 20 16 = (getQueue tQ tS).vec ∧
    (let s := onQueue tQ (fun x => { x with state := .draining, enable := false }) tS
     inflight tQ s = 0 ∧ (getQueue tQ s).state = .draining) ∧
    (let s := onQueue tQ (fun x => { x with state := .halted, enable := false }) tS
     inflight tQ s = 0 ∧ (getQueue tQ s).state = .halted ∧ (getQueue tQ s).enable = false) :=
  ⟨reaches_of (by decide +kernel), by decide +kernel⟩

/-- A queue whose oldest unsignalled completion is 5 µs old, of INT_TIME 5; a running and a draining queue. -/
theorem test_meets_queueEvents :
    (let s := onQueue tQ (fun x => { x with oldest := some 0, unsignalled := 1, intTime := 5 }) tS
     (getQueue tQ s).oldest = some 0 ∧ (getQueue tQ s).intTime ≠ 0 ∧ 0 + (getQueue tQ s).intTime ≤ timeUs (atTime 5 s) ∧
     scopePort tQ.scope s = some .a) ∧
    (getQueue tQ tS).state = .running ∧
    (getQueue tQ (onQueue tQ (fun x => { x with state := .draining }) tS)).state = .draining := by decide +kernel

/-- A fetch of a new command, of the duplicate of a running one, and of a completed one. -/
theorem test_meets_fetch :
    let p := tPacket 0x01 0 0 64 64 []
    let ref : CmdRef := { scope := .part 0, rid := 7 }
    let s := onQueue tQ (fun x => { x with sqHead := 1 }) tS
    let d : Dup := { ref := ref, fetched := 0, answer := none }
    let a : Answer := { status := 0, count := 1, detail := 0, resultBytes := 0 }
    p.length = 64 ∧ mayFetch tQ tS = true ∧ (cmdOf tQ p 0).ref = ref ∧
    (heldDup ref s = none ∧ (liveDups s).length < Config.dupCapacity ∧ packetStatus (cmdOf tQ p 0) = none ∧
      (policeCmd (cmdOf tQ p 0) s).1 = false) ∧
    heldDup ref (onHost (fun h => { h with dups := [d] }) s) = some d ∧
    heldDup ref (onHost (fun h => { h with dups := [{ d with answer := some a }] }) s) = some { d with answer := some a } := by
  decide +kernel

/-- A waiting search with a deadline of 10 µs. -/
def tLate : Cmd := { tCmd tQ (tPacket 0x01 0 0 64 64 []) with deadline := 10 }

/-- A command past its deadline, at the deadline itself. -/
theorem test_meets_deadline : let s := withCmds [tLate] tS
    findCmd tLate.ref s = some tLate ∧ tLate.deadline ≠ 0 ∧ tLate.remote = false ∧
    tLate.fetched + tLate.deadline ≤ timeUs (atTime 10 s) ∧ pastEnd tLate = false := by decide +kernel

/-- ABORT of every command of partition 0, from PF A. -/
def tAbort : Cmd := tCmd tPf (tPacket 0x5F 0 0 0 0 [2])
/-- PART_ADOPT of partition 0, from PF B, whose other port has lost its heartbeat. -/
def tAdopt : Cmd := tCmd { scope := .pf .b, q := 16 } (tPacket 0x3A 0 0 0 0 [1])

/-- Both due, their checks passed. -/
theorem test_meets_abort :
    (let s := withCmds [tLate, tAbort] tS
     let ps := tAbort.packet.drop 40
     Due 0x5F anyForm tAbort.ref (tIn none none) tAbort ps [] s ∧ abortCheck tAbort ps [] s = .go) ∧
    (let s := withCmds [tAdopt] (onHost (fun h => { h with hbLost := [.a] }) tS)
     let ps := tAdopt.packet.drop 40
     Due 0x3A anyForm tAdopt.ref (tIn none none) tAdopt ps [] s ∧ adoptCheck tAdopt ps [] s = .go) :=
  ⟨⟨due_of (by decide +kernel), by decide +kernel⟩, ⟨due_of (by decide +kernel), by decide +kernel⟩⟩

/-- VF 1 of port A is that of partition 0. -/
theorem test_meets_functionReset : 1 ≤ 1 ∧ servedBy (1 - 1) tS = some .a := by decide +kernel

/-- A port that may train; one that is up; an armed watch that runs out; functions with and without an enabled queue. -/
theorem test_meets_ports :
    (Port.b ∉ tS.host.perst ∧ tS.host.perst.contains .b = false ∧ tS.host.linkUp.contains .b = false ∧ portsPowered tS = true) ∧
    tS.host.linkUp.contains .a = true ∧
    (let s := onCrier 126 (fun c => { c with timer := some (0, 10) }) (onHost (fun h => { h with hbArmed := [.a] }) tS)
     (getCrier (126 + Port.a.num) s).timer = some (0, 10) ∧ s.host.hbArmed.contains .a = true ∧ 0 + 10 ≤ timeUs (atTime 10 s)) ∧
    queuesOff tFn tS = false ∧ queuesOff { port := .b, vf := 0 } tS = true := by decide +kernel

/-- BAR0 offsets of GLB_ and of queue 0's PTN_SQB: a 32-bit register and both halves of a 64-bit one. -/
theorem test_meets_registerWrite :
    let sqb := queueReg tQ 0
    let off := queueReg tQ 0x10
    fnLive tFn tS = true ∧ busOffset tFn sqb tS = some sqb ∧ sqb % 8 = 0 ∧ wideAt (sqb / 8 * 8) = true ∧
    pendingLow tFn tS = none ∧ busOffset tFn (sqb + 4) tS = some (sqb + 4) ∧ (sqb + 4) % 8 = 4 ∧
    wideAt ((sqb + 4) / 8 * 8) = true ∧ closedPage tFn (sqb + 4) tS = none ∧ blockAnswers (sqb + 4) tS = true ∧
    pendingLow tFn (setLatch tFn (some (fnOffset tFn ((sqb + 4) / 8 * 8), 5)) tS) = some (fnOffset tFn ((sqb + 4) / 8 * 8), 5) ∧
    off % 4 = 0 ∧ busOffset tFn off tS = some off ∧ wideAt (off / 8 * 8) = false ∧ bellSlot tFn 0 tQ tS := by decide +kernel

/-- Both registers are reached, with an empty latch and after another low half. -/
theorem test_meets_registerWrite_reaches :
    let s := setLatch tFn (some (0x1000, 5)) tS
    Reaches tFn (queueReg tQ 0) tS ∧ Reaches tFn (queueReg tQ 0x10) tS ∧
    Reaches tFn (queueReg tQ 0x10) (fileBadAccess tFn 0 0x1000 (setLatch tFn none s)) ∧ pendingLow tFn s = some (0x1000, 5) :=
  ⟨reaches_of (by decide +kernel), reaches_of (by decide +kernel), reaches_of (by decide +kernel), by decide +kernel⟩

/-- A function that is not live; a doorbell page; an offset past the map; a 32-bit and a 64-bit register; a staged policer; the page of
a FREE partition. -/
theorem test_meets_registerRead :
    fnLive { port := .b, vf := 1 } tS = false ∧ fnLive tFn tS = true ∧ busOffset tFn 0x8000000 tS = none ∧
    busOffset tFn (queueReg tQ 0) tS = some (queueReg tQ 0) ∧ wideAt (queueReg tQ 0) = true ∧
    wideAt (queueReg tQ 0x10 / 8 * 8) = false ∧ busOffset tFn (queueReg tQ 0x10) tS = some (queueReg tQ 0x10) ∧
    (getPolicer 191 (onTm (fun t => { t with policers := [(191, { policerReset 0 with staged := some polCfgReset })] }) tS)).staged =
      some polCfgReset ∧
    (getPtn 5 tS).state = .free := by decide +kernel

/-- A reader the counters answer, with its latch empty and full. -/
theorem test_meets_counterRead :
    counterAnswers (.fn tFn) tS = true ∧ counterAnswers (.core 7) tS = true ∧
    tS.board.pwr.latches.find? (fun l => l.reader == .aoc && l.cycles == true) = none ∧
    (onPwr (fun p => { p with latches := [⟨.aoc, true, 3⟩] }) tS).board.pwr.latches.find?
      (fun l => l.reader == .aoc && l.cycles == true) = some ⟨.aoc, true, 3⟩ := by decide +kernel

/-! Searches. -/

/-- An index of partition 0: FP16 vectors of 64 dimensions, L2, 16 codebooks of 256 centroids, one crate; slot 0 LIVE and the
entry. -/
def tDesc : IndexDesc where
  part := 0
  traverseDead := false
  code4 := false
  dim := 64
  vecFormat := 0
  metric := 0
  m := 16
  maxDegree := 16
  upperLevels := 1
  upperDegree := 8
  slotCount := 64
  upperRecords := 4
  cacheFrames := 2
  attrCount := 4
  filterCount := 2
  slotLimit := 64

/-- See `tDesc`. -/
def tIndex : Index where
  desc := tDesc
  csn := 1
  curGen := 1
  oldGen := 0
  curBook := []
  oldBook := []
  oldRefs := 0
  curRefs := 0
  crateBase := 0
  vecBase := 1
  entry := some 0
  entryLevel := 0
  codes := []
  live := [(0, true)]
  attrs := []
  filters := [(1, { filterEmpty 1 with state := .ready })]
  filterRows := []
  ring := []
  crates := [(0, { crateEmpty 0 with recs := [(0, { attr := 0, level := 0, repair := false, code := zeros 16, adj := [], commitCsn := 1 })] })]
  upper := []
  vectors := [(0, zeros 128)]
  frames := []
  retiring := []
  orphans := []
  failed := []
  pins := []
  upperFull := 0
  mounting := false

/-- The module with that index, under handle 1. -/
def tSI : State := onSrch (fun x => { x with indexes := [(1, tIndex)] }) tS

/-- Parameters of a search: L 16, K 1, D as given, default window and width, FILTER as given; of a RANGE with RADIUS 0. -/
def tSearchPs (dd filter : Nat) : List Byte :=
  fit 24 (leBytes 2 16 ++ leBytes 2 1 ++ leBytes 2 dd ++ zeros 2 ++ leBytes 1 0 ++ leBytes 1 0 ++ leBytes 1 0xFF ++ zeros 1
    ++ leBytes 1 filter)
/-- The three searches, of queue 0. -/
def tSearch (op filter : Nat) : Cmd := tCmd tQ (tPacket op 1 0 64 128 (tSearchPs 0 filter))
/-- What their DMA delivers: a vector of zeros. -/
def tVecIn : CmdIn := tIn none (some (zeros 128))

/-- Each search due with its checks passed. -/
theorem test_meets_search :
    (let k := tSearch 1 0
     let s := withCmds [k] tSI
     Due 1 anyForm k.ref tVecIn k (tSearchPs 0 0) (zeros 128) s ∧ searchGate 1 k (tSearchPs 0 0) (zeros 128) s = .go ∧
      k.epoch = 0 ∧ getIndex k.handle s = some tIndex) ∧
    (let k := tSearch 2 0x21
     let s := withCmds [k] tSI
     Due 2 anyForm k.ref tVecIn k (tSearchPs 0 0x21) (zeros 128) s ∧ searchGate 2 k (tSearchPs 0 0x21) (zeros 128) s = .go) ∧
    (let k := tSearch 3 0
     let s := withCmds [k] tSI
     Due 3 anyForm k.ref tVecIn k (tSearchPs 0 0) (zeros 128) s ∧ searchGate 3 k (tSearchPs 0 0) (zeros 128) s = .go) ∧
    (let k := tCmd tQ (tPacket 1 1 0 64 128 [])
     Due 1 anyForm k.ref tVecIn k (zeros 24) (zeros 128) (withCmds [k] tSI) ∧ searchRangeBad 1 (zeros 24) = true) :=
  ⟨⟨due_of (by decide +kernel), by decide +kernel⟩, ⟨due_of (by decide +kernel), by decide +kernel⟩,
    ⟨due_of (by decide +kernel), by decide +kernel⟩, due_of (by decide +kernel), by decide +kernel⟩

/-- A query of index 1, in a phase. -/
def tQuery (phase : QPhase) : Query :=
  { newQuery { scope := .part 0, rid := 7 } 0 0 1 0 (parseSearch 1 (tSearchPs 0 0) []) (queryVec 64 (zeros 128)) with
    phase := phase, snap := 1, gen := 1 }
/-- The module with it. -/
def tSQ (q : Query) : State := onSrch (fun x => { x with queries := [q] }) tSI

/-- The list's head, its index and its walker; a query whose table is computed. -/
theorem test_meets_admission :
    (let s := atTime 3 (tSQ (tQuery .waiting))
     admissionHead 0 s = some (tQuery .waiting) ∧ getIndex 1 s = some tIndex ∧
      pickWalker 0 (footprint tIndex.desc (tQuery .waiting).params) s = some 0 ∧ unitAwake .walker 0 s = true ∧
      (tQuery .waiting).params.useFilter = false) ∧
    (let q := tQuery .table
     getQuery q.ref (tSQ q) = some q ∧ getIndex q.handle (tSQ q) = some tIndex ∧ q.phase = .table ∧ walkerActs q (tSQ q) = true) ∧
    State.reset.host.fabricAns = [] := by decide +kernel

/-- A candidate of slot 0. -/
def tCand (expanded : Bool) : Cand := { dist := 0#32, slot := 0, expanded := expanded }
/-- A query in WALK whose queue holds it. -/
def tWalk (expanded : Bool) : Query :=
  let q := tQuery .walk
  { q with walk := { walkEmpty with cands := [tCand expanded] } }

/-- A query in each state of the walk: descent of an empty index and of another, a walk that ends, one whose crate is VALID, one
whose crate is not. -/
theorem test_meets_walk :
    (let q := tQuery .descent
     let s := atTime 3 (onIndex 1 (fun ix => { ix with entry := none }) (tSQ q))
     getQuery q.ref s = some q ∧ (getIndex q.handle s).any (·.entry.isNone) = true ∧ walkerActs q s = true ∧
      (dramRead (findCmd q.ref s) .clean tPlace s).2 = none ∧
      (dramRead (findCmd q.ref s) .uncorrectable tPlace s).2.isSome = true) ∧
    (let q := tQuery .descent
     getQuery q.ref (tSQ q) = some q ∧ getIndex q.handle (tSQ q) = some tIndex ∧ walkerActs q (tSQ q) = true ∧ tIndex.entry ≠ none) ∧
    (let q := tWalk true
     getQuery q.ref (tSQ q) = some q ∧ q.frame = none ∧ q.next = none ∧ walkTop (viewOf q tIndex (tSQ q)) q.walk false = .inl 0) ∧
    (let q := tWalk false
     walkTop (viewOf q tIndex (tSQ q)) q.walk false = .inr (tCand false)) := by decide +kernel

/-- A walk that has chosen slot 0, before and after it takes its reference to the frame; its crate in a VALID frame and not. -/
theorem test_meets_walkFrames :
    let q := { tWalk false with next := some 0 }
    let v := tSQ q
    let ix := { tIndex with frames := [(0, false)] }
    let s := onIndex 1 (fun _ => ix) v
    let held := { q with frame := some (0, crateOf ix 0) }
    (getQuery q.ref v = some q ∧ getIndex q.handle v = some tIndex ∧ tget? tIndex.frames 0 ≠ some false ∧ walkerActs q v = true) ∧
    (getQuery q.ref s = some q ∧ getIndex q.handle s = some ix ∧ tget? ix.frames 0 = some false) ∧
    (getQuery q.ref (onQuery q.ref (fun q => { q with frame := some (0, crateOf ix 0), requests := q.requests.erase 0 }) s) =
      some held ∧ held.handle = q.handle ∧ held.frame ≠ none ∧ held.phase = .walk ∧ getQuery q.ref (tSQ held) = some held) := by
  decide +kernel

/-- A batch of crate 0, issued or not. -/
def tBatch (issued : Bool) : Batch where
  handle := 1
  crate := 0
  reqs := [{ ref := { scope := .part 0, rid := 7 }, joined := 0, windowUs := 20 }]
  opener := some { scope := .part 0, rid := 7 }
  issued := issued

/-- The read of crate 0 arrived at the hub. -/
def tArrived (bad : Option (Nat × Bool)) : Arrived := { who := .crate 1 0, bad := bad }
/-- The module with an issued batch and its read. -/
def tSB (bad : Option (Nat × Bool)) : State :=
  onMed (fun m => { m with arrived := [tArrived bad] }) (onSrch (fun x => { x with batches := [tBatch true] }) tSI)

/-- A batch whose window ends, a read that is good, one that is not, one of a fill overtaken. -/
theorem test_meets_crates :
    (let s := atTime 20 (onSrch (fun x => { x with batches := [tBatch false] }) tSI)
     s.srch.batches.find? (fun b => b.handle == 1 && b.crate == 0 && !b.issued) = some (tBatch false) ∧
      getIndex 1 s = some tIndex ∧ (tBatch false).reqs.any (fun r => r.joined + r.windowUs ≤ timeUs s) = true) ∧
    tIndex.failed.contains 0 = false ∧
    (∀ bad, bad = none ∨ bad = some (1, false) →
      (takeArrived (fun w => w == .crate 1 0) (tSB bad)).any (fun e => e.1 == tArrived bad && (getIndex 1 e.2).isSome &&
        (e.2.srch.batches.find? fun b => b.handle == 1 && b.crate == 0 && b.issued).isSome) = true) ∧
    (takeArrived (fun w => w == .crate 1 0) (onSrch (fun x => { x with batches := [] }) (tSB none))).any (fun e =>
      (e.2.srch.batches.find? fun b => b.handle == 1 && b.crate == 0 && b.issued).isNone) = true := by
  refine ⟨by decide +kernel, by decide +kernel, ?_, by decide +kernel⟩
  rintro bad (rfl | rfl) <;> decide +kernel

/-- A query in RERANK with one pool entry, its read issued or not. -/
def tRerank (issued : List Nat) : Query :=
  let q := tQuery .rerank
  { q with walk := { walkEmpty with pool := [(0#32, 0)] }, stalls := [0], issued := issued }
/-- The read of that entry arrived. -/
def tRead (bad : Option (Nat × Bool)) : Arrived := { who := .rerank { scope := .part 0, rid := 7 } [0], bad := bad }

/-- A rerank read to be issued, one that arrives in place, late or ill, a query to be selected. -/
theorem test_meets_rerank :
    (let q := tRerank []
     let s := tSQ q
     getQuery q.ref s = some q ∧ queryRuns q = true ∧ getIndex q.handle s = some tIndex ∧ rerankStall q 0 = some 0 ∧
      rerankNext q 0 = true ∧ sget (fun _ => []) s.srch.stageq 0 = [] ∧ stagedBytes q 0 s = 0 ∧
      stallStaged 0 s + (vecBytes tIndex.desc + 2 * tIndex.desc.dim) ≤ 1048576) ∧
    (let q := tRerank [0]
     let s := onMed (fun m => { m with arrived := [tRead none] }) (tSQ q)
     getQuery q.ref s = some q ∧ q.issued.contains 0 = true ∧ q.chosen = false ∧ q.stale.contains 0 = false ∧
      { q with stale := [0] }.stale.contains 0 = true ∧
      (takeEntry q.ref 0 s).any (fun e => e.1.bad == none && (getIndex q.handle e.2).isSome) = true) ∧
    (let q := tRerank [0]
     let s := onMed (fun m => { m with arrived := [tRead (some (1, false))] }) (tSQ q)
     (takeEntry q.ref 0 s).any (fun e => e.1.bad == some (1, false) && (getIndex q.handle e.2).isSome) = true) ∧
    (let q := tQuery .select
     let s := tSQ q
     getQuery q.ref s = some q ∧ getCompSearch q.ref s = none ∧ queryRuns q = true ∧ q.chosen = false ∧ selectorOf q.ref s = none ∧
      searchSelector q.walker s = some 0 ∧ unitAwake .selector 0 s = true ∧ tget? s.sel.busy 0 = none) := by decide +kernel

/-! Mutation. -/

/-- Parameters of an INSERT of one item without LINK_BEAM, code or slot of the host's. -/
def tInsertPs : List Byte := fit 24 (leBytes 2 1)
/-- One item of index 1: SLOT none, vector of zeros. -/
def tItemIn (old : Nat) : List Byte := leBytes 8 old ++ leBytes 4 0xFFFFFFFF ++ zeros 116 ++ zeros 128
/-- An INSERT or UPSERT of queue 0. -/
def tInsert (ups : Bool) : Cmd := tCmd tQ (tPacket (if ups then 0x0A else 0x08) 1 0 64 256 tInsertPs)
/-- A DELETE of slot 0. -/
def tDelete : Cmd := tCmd tQ (tPacket 0x09 1 0 64 8 tInsertPs)

/-- The module with an empty index that media and checks leave free to change. -/
def tSM : State := onMed (fun m => { m with state := .ready }) (onSrch (fun x => { x with indexes :=
  [(1, { tIndex with entry := none, live := [], crates := [], desc := { tDesc with vecFormat := 0 } })] }) tS)
/-- The same with slot 0 LIVE. -/
def tSM1 : State := onMed (fun m => { m with state := .ready }) tSI

/-- Each mutation due with its checks passed. -/
theorem test_meets_mutations :
    (∀ ups, let k := tInsert ups
      Due (if ups then 0x0A else 0x08) anyForm k.ref (tIn none (some (tItemIn 0))) k tInsertPs (tItemIn 0) (withCmds [k] tSM) ∧
      mutGate (insertCheck ups) k tInsertPs (tItemIn 0) (withCmds [k] tSM) = .go) ∧
    (let k := tDelete
     Due 0x09 anyForm k.ref (tIn none (some (zeros 8))) k tInsertPs (zeros 8) (withCmds [k] tSM) ∧
      mutGate deleteCheck k tInsertPs (zeros 8) (withCmds [k] tSM) = .go) ∧
    (∃ ix, getIndex 1 tSM = some ix) := by
  refine ⟨?_, ⟨due_of (by decide +kernel), by decide +kernel⟩, ⟨_, rfl⟩⟩
  rintro (_ | _) <;> exact ⟨due_of (by decide +kernel), by decide +kernel⟩

/-- Whether a build made its items. -/
def tMade (r : Except BuildFail (Index × List NewNode)) : Bool := r.isOk

/-- Items of one dimension of code that find a slot, and that find none; a linking search whose crate is lost; a DRAM read that is lost
and one that is not. -/
theorem test_meets_built :
    let none' : Nat → Bool := fun _ => false
    let it : Item := { oldId := 0, slot := 0, attr := 0, code := zeros 64, vec := zeros 128 }
    let free := { it with slot := 0xFFFFFFFF }
    ([] : List Item).foldl (buildItem 1 [] 64 false false false [] none') (.ok (tIndex, [])) = .ok (tIndex, []) ∧
    [it].foldl (buildItem 1 [] 16 false true true [0] none') (.ok ({ tIndex with entry := none, crates := [] }, [])) =
      .error (.status stBadParam) ∧
    [free].foldl (buildItem 1 [] 16 false true false [] (crateLost tIndex 0 .uncorrectable)) (.ok (tIndex, [])) = .error (.crate 0) ∧
    lostAs tIndex 0 .uncorrectable 0 = .uncorrectable ∧ lostAs tIndex 0 .checkFail 0 = .checkFail ∧
    (dramRead (some tDelete) .clean tPlace tSM).2 = none ∧ (dramRead (some tDelete) .uncorrectable tPlace tSM).2.isSome = true := by
  decide +kernel

/-- A profile of one LUN a channel, `planes` planes, `blocks` blocks and `pages` pages. -/
def tProfile (planes blocks pages check : Nat) : List Byte :=
  leBytes 4 0x46504D51 ++ leBytes 2 1 ++ leBytes 2 0 ++ leBytes 2 1200 ++ leBytes 1 1 ++ leBytes 1 1 ++ leBytes 1 planes ++ leBytes 1 8
    ++ leBytes 2 2048 ++ leBytes 4 blocks ++ leBytes 4 pages ++ leBytes 2 64 ++ zeros 6 ++ leBytes 4 100 ++ leBytes 4 1000
    ++ leBytes 4 5000 ++ leBytes 4 10 ++ leBytes 4 20 ++ leBytes 4 3000 ++ zeros 68 ++ leBytes 4 check
/-- A group that deletes slot 0. -/
def tGroup (items : List NewNode) : Group where
  id := 0
  ref := { scope := .part 0, rid := 7 }
  part := 0
  handle := 1
  upsert := false
  durable := false
  items := items
  deletes := [0]
  gen := 1
  buildEnd := 0
/-- A new node at slot 1. -/
def tNode : NewNode where
  slot := 1
  attr := 0
  code := zeros 16
  vec := zeros 128
  level := 0
  nbrs := []
  held := []
  old := none
  oldId := 0
/-- The module with it. -/
def tSG (items : List NewNode) : State := onMut (fun m => { m with groups := [tGroup items], nextGroup := 1 }) tSM1

/-- A group whose turn it is; one with a failed vector write; one whose crate is lost; a ring without room. -/
theorem test_meets_publish :
    (let s := tSG []
     s.grp.groups.find? (·.id == 0) = some (tGroup []) ∧ getIndex 1 s = some tIndex ∧
      (s.grp.groups.find? (·.handle == 1)).any (·.id != 0) = false ∧
      (groupCrates tIndex (tGroup [])).find? (crateLost tIndex 0 .ok) = none ∧
      ringRoom tIndex (oldestSnap 1 tIndex s) (transitions tIndex (tGroup [])).length = true ∧
      (writeVectors 1 2 (vectorPages tIndex (tGroup [])) s).isSome = true) ∧
    (tGroup [tNode]).items ≠ [] ∧ (tSG [tNode]).med.held = false ∧
    (let lpn := ((vectorPages tIndex (tGroup [tNode])).head?).getD 0
     let media := fun s => onMed (fun m => { m with
       profile := some (tProfile 1 4 8 0), format := some { logicalPages := 64, width := 8, journalBlocks := 64 } }) s
     (placeProgram (indexTag 1 lpn tIndex.csn) .index (media (tSG [tNode]))).isSome = true) ∧
    (let ix := { tIndex with failed := [0] }
     (groupCrates ix (tGroup [tNode])).find? (crateLost ix 1 .ok) = some 0 ∧
      (groupCrates tIndex (tGroup [tNode])).find? (crateLost tIndex 0 .uncorrectable) = some 0) ∧
    (let ix := { tIndex with csn := 65537 }
     let s := atTime 5000 (tSG [])
     ringRoom ix 1 (transitions ix (tGroup [])).length = false ∧ (tGroup []).buildEnd + 1000 * s.grp.ringWaitMs ≤ timeUs s) ∧
    (transitions tIndex (tGroup [tNode])).length ≤ 65536 ∧ (transitions tIndex (tGroup [tNode]))[1]? = some (0, 2) := by
  decide +kernel

/-- The two transitions of a group at CSN 1 and what they leave of entry 1. -/
theorem test_meets_publication : ∀ j, j < (transitions tIndex (tGroup [tNode])).length → 1 ≠ (tIndex.csn + 1 + j) % 65536 := by
  decide +kernel

/-- A SWAP_GENERATION to generation 2, and an index that waits for its mount. -/
theorem test_meets_swap :
    (let k := tCmd tQ (tPacket 0x0B 1 0 0 256 (leBytes 4 2))
     let inp := zeros 256
     let s := withCmds [k] (onIndex 1 (fun ix => { ix with desc := { tDesc with code4 := true, dim := 8 } }) tSM1)
     Due 0x0B anyForm k.ref (tIn none (some inp)) k (fit 24 (leBytes 4 2)) inp s ∧
      mutGate swapCheck k (fit 24 (leBytes 4 2)) inp s = .go) ∧
    (getIndex 1 (onIndex 1 (fun ix => { ix with mounting := true }) tSI)).any (·.mounting) = true ∧ tIndex.curRefs = 0 :=
  ⟨⟨due_of (by decide +kernel), by decide +kernel⟩, by decide +kernel⟩

/-- A crate on the lazy list; WLK_REPAIR by a PF; a pass over a crate with a settled DEAD slot, without one, and with a lost crate;
DEAD slots past the trigger. -/
theorem test_meets_repair :
    (Reaches tFn 0x70000C tS ∧ (0x80000001#32 : W32).getLsbD 31 = true ∧
      (getIndex (bits (0x80000001#32 : W32).toNat 15 0) tSI).isSome = true ∧ getIndex 1 tS = none) ∧
    (onMut (fun m => { m with lazy := [(1, 0)] }) tSI).grp.lazy.contains (1, 0) = true ∧
    (let ix := { tIndex with live := [] }
     let s := onMut (fun m => { m with passes := [1], repairTrigger := 1 }) (onIndex 1 (fun _ => ix) tSM1)
     s.grp.passes = [1] ∧ getIndex 1 s = some ix ∧ ix.mounting = false ∧ settledDead ix (oldestSnap 1 ix s) 0 = [0] ∧
      crateLost ix 1 .checkFail 0 = false ∧ (repairCrates ix 0 [0] []).find? (crateLost ix 1 .checkFail) = none ∧
      crateLost ix 0 .checkFail 0 = true ∧ (repairCrates ix 0 [0] [1]).find? (crateLost ix 1 .checkFail) = some 1 ∧
      s.grp.groups.any (·.handle == 1) = false ∧ ringRoom ix (oldestSnap 1 ix s) 1 = true ∧ s.grp.repairTrigger ≠ 0 ∧
      s.grp.repairTrigger * liveCount ix < 1000 * deadCount ix) ∧
    (settledDead tIndex 1 0 = [] ∧ droppedEdges tIndex 1 (crateOf tIndex 0) = 0) :=
  ⟨⟨reaches_of (by decide +kernel), by decide +kernel⟩, by decide +kernel⟩

/-! Selection. -/

/-- Parameters of a SELECT_TOPK of one row of two FP32 keys, K 1; and of a SELECT_THRESHOLD of the same. -/
def tTopkPs : List Byte := fit 24 (leBytes 4 2 ++ leBytes 2 1 ++ leBytes 2 1)
/-- See `tTopkPs`. -/
def tThresholdPs : List Byte := fit 24 (leBytes 4 2 ++ leBytes 2 1 ++ zeros 6 ++ leBytes 4 1)
/-- The two commands, and one whose N is 0. -/
def tTopk : Cmd := tCmd tQ (tPacket 0x10 0 0 64 64 tTopkPs)
/-- See `tTopk`. -/
def tThreshold : Cmd := tCmd tQ (tPacket 0x11 0 0 64 64 tThresholdPs)

/-- Both due with their checks passed, with N 0, and with every command selector out of service. -/
theorem test_meets_selections :
    let outs := (List.range 16).map fun n => ({ kind := .selector, unit := n, retired := true, seq := 3, fatal := false } : UnitOut)
    let no := onErr (fun e => { e with outs := outs }) tS
    (Due 0x10 anyForm tTopk.ref (tIn none (some (zeros 64))) tTopk tTopkPs (zeros 64) (withCmds [tTopk] tS) ∧
      topkCheck tTopk tTopkPs (zeros 64) (withCmds [tTopk] tS) = .go ∧
      Due 0x10 anyForm tTopk.ref (tIn none (some (zeros 64))) tTopk tTopkPs (zeros 64) (withCmds [tTopk] no) ∧
      topkCheck tTopk tTopkPs (zeros 64) (withCmds [tTopk] no) ≠ .fail stBadParam 0) ∧
    (Due 0x11 anyForm tThreshold.ref (tIn none (some (zeros 64))) tThreshold tThresholdPs (zeros 64) (withCmds [tThreshold] tS) ∧
      thresholdCheck tThreshold tThresholdPs (zeros 64) (withCmds [tThreshold] tS) = .go ∧
      Due 0x11 anyForm tThreshold.ref (tIn none (some (zeros 64))) tThreshold tThresholdPs (zeros 64) (withCmds [tThreshold] no) ∧
      thresholdCheck tThreshold tThresholdPs (zeros 64) (withCmds [tThreshold] no) ≠ .fail stBadParam 0) ∧
    (∀ n, n < 16 → servesRows n (withCmds [tTopk] no) = false ∧ servesRows n (withCmds [tThreshold] no) = false) ∧
    (∀ op, op = 0x10 ∨ op = 0x11 → let ps := fit 24 (zeros 4 ++ leBytes 2 1 ++ leBytes 2 (0x11 - op) ++ zeros 4 ++ leBytes 4 (op - 0x10))
      let k := tCmd tQ (tPacket op 0 0 64 0 ps)
      Due op anyForm k.ref (tIn none none) k ps [] (withCmds [k] tS) ∧ field ps 0 4 < 1) := by
  refine ⟨⟨due_of (by decide +kernel), by decide +kernel, due_of (by decide +kernel), by decide +kernel⟩,
    ⟨due_of (by decide +kernel), by decide +kernel, due_of (by decide +kernel), by decide +kernel⟩, by decide +kernel, ?_⟩
  rintro op (rfl | rfl) <;> exact ⟨due_of (by decide +kernel), by decide +kernel⟩

/-- A selection command of `rows` rows, its first row waiting. -/
def tSel (rows : Nat) : SelCmd where
  ref := tTopk.ref
  part := 0
  threshold := false
  n := 2
  rows := rows
  k := 1
  keyType := 0
  largest := false
  merge := false
  validMap := false
  op := 0
  bound := 0
  input := zeros 128
  recs := []
  total := 0
  flagged := false

/-- Selector 1 takes the only row of a command, and the first of two. -/
theorem test_meets_selectorRow : ∀ rows, rows = 1 ∨ rows = 2 →
    let r : SelRow := { ref := tTopk.ref, part := 0, row := 0, staged := 0, layer := none }
    let s := onPtn (fun p => { p with awake := [(.selector, 1)] })
      (onSel (fun y => { y with cmds := [tSel rows], queue := [r] }) (withCmds [tTopk] tS))
    outOfService .selector 1 s = false ∧ servesRows 1 s = true ∧ unitAwake .selector 1 s = true ∧ tget? s.sel.busy 1 = none ∧
    searchWaits 1 s = false ∧ nextRow s = some r ∧ (takeRow 1 s).any (fun e => e.1 == r) = true ∧
    s.sel.cmds.find? (·.ref == r.ref) = some (tSel rows) ∧ findCmd (tSel rows).ref s = some tTopk ∧
    ((tput (tSel rows).recs 0 (zeros 64)).length = rows ↔ rows = 1) := by
  rintro rows (rfl | rfl) <;> decide +kernel

/-- Of two keys, 2.0 at position 0 and 1.0 at position 1, the smallest is taken: position 1. -/
theorem test_topk_smallest :
    (runRow (tSel 1) (leBytes 4 0x40000000 ++ leBytes 4 0x3F800000)).poss = [1] ∧
    (runRow { tSel 1 with largest := true } (leBytes 4 0x40000000 ++ leBytes 4 0x3F800000)).poss = [0] := by decide +kernel

/-- Below 1.5 only position 1 passes; below 3.0 both do, which is one more than the record holds. The record's last slot is empty. -/
theorem test_threshold_row :
    let x := { tSel 1 with threshold := true, bound := 0x3FC00000 }
    let row := leBytes 4 0x40000000 ++ leBytes 4 0x3F800000
    runRow x row = { count := 1, status := stOk, poss := [1], dups := 0 } ∧
    runRow { x with bound := 0x40400000 } row = { count := 2, status := stOverflow, poss := [0], dups := 0 } ∧
    field (selRecord 2 1 stPartial [1]) 8 4 = 1 ∧ field (selRecord 2 1 stPartial [1]) 12 4 = 0xFFFFFFFF ∧
    (selRecord 2 1 stPartial [1]).length = 64 ∧ (selRecord 14 0 stOk []).length = 64 ∧ (selRecord 15 0 stOk []).length = 128 := by
  decide +kernel

/-- An entry of a merge row: ID, DISTANCE and flags (R127). -/
def tEnt (id dist flags : Nat) : List Byte := leBytes 8 id ++ leBytes 4 dist ++ leBytes 4 flags
/-- Of ID 2 the nearer exact copy is kept, at position 5; of ID 1 the exact one, at position 2; a NaN and an empty slot are invalid. -/
theorem test_merge_row :
    runRow { tSel 1 with merge := true, n := 6, k := 3 }
      (tEnt 1 0x3F800000 0 ++ tEnt 2 0x40000000 1 ++ tEnt 1 0x40400000 1 ++ tEnt 3 0x7FC00000 0 ++ tEnt 0xFFFFFFFF 0 0 ++
        tEnt 2 0x3F000000 1) = { count := 2, status := stPartial, poss := [5, 2], dups := 2 } := by decide +kernel

/-! The stall instruction set. -/

/-- What `Issuing` asks, as a test. -/
def issuingB (n opc : Nat) (fields : List (Nat × Nat × Nat)) (reads : List (RegClass × Nat)) (words : List Nat) (j : Job)
    (s : State) : Bool :=
  runningJob (getStall n s) == some j && j.work == .program words && bits (wordAt words j.pc) 31 26 == opc &&
    fields.all (fun f => bits (wordAt words j.pc) f.1 f.2.1 == f.2.2) && j.ended.isNone &&
    reads.all (fun r => !regPending j r) && !stallHeld n s

/-- The test is what it tests. -/
theorem issuing_of {n opc : Nat} {fields : List (Nat × Nat × Nat)} {reads : List (RegClass × Nat)} {words : List Nat} {j : Job}
    {s : State} (h : issuingB n opc fields reads words j s = true) : Issuing n opc fields reads words j s := by
  simp only [issuingB, Bool.and_eq_true, beq_iff_eq, List.all_eq_true, Option.isNone_iff_eq_none, Bool.not_eq_true'] at h
  obtain ⟨⟨⟨⟨⟨⟨h1, h2⟩, h3⟩, h4⟩, h5⟩, h6⟩, h7⟩ := h
  exact ⟨h1, h2, h3, h4, h5, h6, h7⟩

/-- A program job of one word, with a window over a region of 4,096 bytes. -/
def tJob (word : Nat) : Job :=
  { newJob { scope := .part 0, rid := 7 } 0 0 0 (.program [word]) with
    jid := 1, wins := [some { region := 5, rw := true, off := 0, len := 4096 }] }
/-- Stall 0 running that job, its row 0 open and a row operation granted or not. -/
def tSJ (j : Job) (granted : Bool) (opened : Table Nat) : State :=
  onPtn (fun p => { p with regions := [(5, { part := 0, pinned := true, stall := 0, row := 0, bytes := 4096, mem := [] })] })
    (onStall 0 (fun x => { x with jobs := [j], run := some 1, gated := false, ropReady := granted, opened := opened }) tS)

/-- A word with its opcode, the fields and the registers it names. -/
abbrev TWord : Type := Nat × List (Nat × Nat × Nat) × List (RegClass × Nat) × Nat
/-- See `TWord`. -/
def tw (opc : Nat) (fields : List (Nat × Nat × Nat)) (reads : List (RegClass × Nat)) (word : Nat) : TWord :=
  (opc, fields, reads, word)
/-- Words written out from the formats of R203 and the opcodes of R204. -/
def tWords0 : List TWord := [
  tw 0x00 [] [] 0x00000000,
  tw 0x01 [] [] 0x04000000,
  tw 0x02 [] [] 0x08000000,
  tw 0x03 [(7, 0, 9)] [] 0x0C000009,
  tw 0x04 (fieldsB 3 9) [(.s, 3)] 0x10C00009,
  tw 0x05 (fieldsB 3 9) [(.s, 3)] 0x14C00009,
  tw 0x06 [(25, 24, 2), (23, 23, b2n true), (22, 22, b2n true)] [] 0x1AC00000,
  tw 0x10 (fieldsS 15 2 ++ [(17, 14, 1)]) [(.s, 2), (.s, 1)] 0x43C84000]
/-- Words written out from the formats of R203 and the opcodes of R204. -/
def tWords1 : List TWord := [
  tw 0x11 (fieldsS 15 2 ++ [(17, 14, 1)]) [(.s, 2), (.s, 1)] 0x47C84000,
  tw 0x12 (fieldsS 15 2 ++ [(17, 14, 1)]) [(.s, 2), (.s, 1)] 0x4BC84000,
  tw 0x13 (fieldsS 15 2 ++ [(13, 0, 16383)]) [(.s, 2)] 0x4FC83FFF,
  tw 0x14 (fieldsS 15 2 ++ [(13, 0, 16383)]) [(.s, 2)] 0x53C83FFF,
  tw 0x15 (fieldsS 15 2 ++ [(13, 0, 16383)]) [(.s, 2)] 0x57C83FFF,
  tw 0x16 (fieldsS 15 2 ++ [(13, 0, 16383)]) [(.s, 2)] 0x5BC83FFF,
  tw 0x17 (fieldsS 15 2 ++ [(13, 0, 16383)]) [(.s, 2)] 0x5FC83FFF,
  tw 0x18 (fieldsS 15 2 ++ [(13, 0, 16383)]) [(.s, 2)] 0x63C83FFF]
/-- Words written out from the formats of R203 and the opcodes of R204. -/
def tWords2 : List TWord := [
  tw 0x19 [(25, 22, 15), (21, 0, 4194303)] [] 0x67FFFFFF,
  tw 0x23 (fieldsR3 7 1 2) [(.v, 1), (.v, 2)] 0x8F940000,
  tw 0x24 (fieldsR3 7 1 2) [(.v, 1), (.v, 2)] 0x93940000,
  tw 0x25 (fieldsR3 7 1 2) [(.v, 1), (.v, 2)] 0x97940000,
  tw 0x26 (fieldsR3 7 1 2) [(.v, 1), (.v, 2)] 0x9B940000,
  tw 0x27 (fieldsR3 7 1 2) [(.v, 1), (.v, 2)] 0x9F940000,
  tw 0x28 [(25, 23, 7), (16, 13, 4)] [(.s, 4)] 0xA3808000,
  tw 0x29 [(25, 23, 7), (22, 20, 1)] [(.v, 1)] 0xA7900000]
/-- Words written out from the formats of R203 and the opcodes of R204. -/
def tWords3 : List TWord := [
  tw 0x2C [(25, 23, 7), (22, 20, 1)] [(.v, 1)] 0xB3900000,
  tw 0x2D [(25, 23, 7), (22, 20, 1)] [(.v, 1)] 0xB7900000,
  tw 0x2A [(25, 23, 7), (22, 20, 1), (16, 13, 4), (12, 11, 3), (10, 10, b2n true), (9, 9, b2n true)] [(.v, 1), (.s, 4)] 0xAB909E00,
  tw 0x2B [(25, 23, 7), (22, 20, 1), (12, 12, b2n true), (11, 10, 2)] [(.v, 1)] 0xAF901800,
  tw 0x35 [(25, 23, 7), (22, 20, 3)] [(.a, 3)] 0xD7B00000,
  tw 0x20 (fieldsR3 3 1 2) [(.a, 3), (.v, 1), (.v, 2)] 0x81940000,
  tw 0x22 (fieldsR3 3 1 2) [(.a, 3), (.v, 1), (.v, 2)] 0x89940000,
  tw 0x21 [(25, 23, 3), (22, 20, 1), (16, 13, 4)] [(.a, 3), (.v, 1), (.s, 4)] 0x85908000]
/-- Words written out from the formats of R203 and the opcodes of R204. -/
def tWords4 : List TWord := [
  tw 0x30 [(25, 23, 3)] [] 0xC1800000,
  tw 0x31 [(25, 23, 3), (22, 20, 1)] [(.a, 3), (.a, 1)] 0xC5900000,
  tw 0x32 [(25, 23, 3), (22, 20, 1)] [(.a, 3), (.a, 1)] 0xC9900000,
  tw 0x33 [(25, 23, 3), (16, 13, 4)] [(.a, 3), (.s, 4)] 0xCD808000,
  tw 0x34 [(25, 23, 3), (22, 20, 1)] [(.v, 1)] 0xD1900000,
  tw 0x37 [(25, 23, 3), (22, 20, 1), (16, 13, 4)] [(.a, 1), (.s, 4)] 0xDD908000,
  tw 0x36 [(16, 13, 4), (22, 20, 1)] [(.a, 1)] 0xD8108000,
  tw 0x08 (fieldsM 3 0 2 true 7) [(.s, 2)] 0x21828007]
/-- Words written out from the formats of R203 and the opcodes of R204. -/
def tWords5 : List TWord := [
  tw 0x09 (fieldsM 3 0 2 true 7) [(.s, 2), (.v, 3)] 0x25828007,
  tw 0x0A (fieldsM 3 0 2 true 7) [(.s, 2)] 0x29828007,
  tw 0x0B (fieldsM 3 0 2 true 7) [(.s, 2), (.a, 3)] 0x2D828007,
  tw 0x0C (fieldsM 3 0 2 true 7) [(.s, 2)] 0x31828007,
  tw 0x0D (fieldsM 3 0 2 true 7) [(.s, 2), (.s, 3)] 0x35828007,
  tw 0x0E [(25, 23, 4), (22, 20, 0), (19, 16, 1), (15, 13, 0), (12, 9, 2), (8, 6, 0), (5, 2, 3)] ([(.s, 1), (.s, 2)] ++ if (4 : Nat) < 2 then [] else [(.s, 3)]) 0x3A01040C]
/-- All of them. -/
def tWords : List TWord := tWords0 ++ tWords1 ++ tWords2 ++ tWords3 ++ tWords4 ++ tWords5

/-- Every one of them may issue. -/
theorem test_meets_issue : ∀ e ∈ tWords, Issuing 0 e.1 e.2.1 e.2.2.1 [e.2.2.2] (tJob e.2.2.2) (tSJ (tJob e.2.2.2) false []) := by
  have h : tWords.all (fun e => issuingB 0 e.1 e.2.1 e.2.2.1 [e.2.2.2] (tJob e.2.2.2) (tSJ (tJob e.2.2.2) false [])) = true := by
    decide +kernel
  exact fun e he => issuing_of (List.all_eq_true.mp h e he)

/-- Accesses of 64 bytes at IMM 7, of a window that ends before them, that is misaligned, whose row is open and is not. -/
theorem test_meets_memory :
    let j := tJob 0x21828007
    (∃ e, accessAt { j with wins := [] } 0 2 7 64 = .error e) ∧
    accessAt { j with s := j.s.set 2 1 } 0 2 7 64 = .error 2 ∧
    (accessAt j 0 2 7 64 = .ok (5, 448) ∧ accessAt j 0 2 7 128 = .ok (5, 896) ∧ accessAt j 0 2 7 4 = .ok (5, 28)) ∧
    (accessRows 5 448 64 (tSJ j false [(0, 0)])).all (rowOpen (getStall 0 (tSJ j false [(0, 0)]))) = true ∧
    (accessRows 5 896 128 (tSJ j false [(0, 0)])).all (rowOpen (getStall 0 (tSJ j false [(0, 0)]))) = true ∧
    (accessRows 5 28 4 (tSJ j false [(0, 0)])).all (rowOpen (getStall 0 (tSJ j false [(0, 0)]))) = true ∧
    (accessRows 5 448 64 (tSJ j false [])).all (rowOpen (getStall 0 (tSJ j false []))) = false ∧ j.loads.length < 8 :=
  ⟨⟨1, by decide +kernel⟩, by decide +kernel⟩

/-- Issued with a row operation granted, and with row 0 open. -/
theorem test_meets_memory_open :
    (∀ e ∈ tWords, Issuing 0 e.1 e.2.1 e.2.2.1 [e.2.2.2] (tJob e.2.2.2) (tSJ (tJob e.2.2.2) true [(0, 0)])) ∧
    Issuing 0 0x0C (fieldsM 2 0 2 true 7) [(.s, 2)] [0x31028007] (tJob 0x31028007) (tSJ (tJob 0x31028007) true [(0, 0)]) := by
  have h : tWords.all (fun e => issuingB 0 e.1 e.2.1 e.2.2.1 [e.2.2.2] (tJob e.2.2.2) (tSJ (tJob e.2.2.2) true [(0, 0)])) = true := by
    decide +kernel
  exact ⟨fun e he => issuing_of (List.all_eq_true.mp h e he), issuing_of (by decide +kernel)⟩

/-- A ROP of rows of one bank, granted and not; of rows of two banks; out of its window. -/
theorem test_meets_rop :
    let rop := 0x3A01040C
    let j := tJob rop
    let far := { j with s := j.s.set 2 1024 }
    (j.pc < [rop].length ∧ ropOperands j rop = .ok ((5, 0), (5, 0), (5, 0)) ∧ ropBanks false (5, 0) (5, 0) (5, 0) (tSJ j true []) = true ∧
      (getStall 0 (tSJ j true [])).ropReady = true ∧ (getStall 0 (tSJ j false [])).ropReady = false) ∧
    (ropOperands far rop = .ok ((5, 0), (5, 1024), (5, 0)) ∧ ropBanks false (5, 0) (5, 1024) (5, 0) (tSJ far true []) = false) ∧
    ropOperands { j with wins := [] } rop = .error 1 := by decide +kernel

/-- Registers at both ends of a job's files. -/
theorem test_meets_registers : let j := tJob 0
    0 < 15 ∧ 15 < j.s.length ∧ 0 < 1 ∧ 7 < j.v.length ∧ 3 < j.a.length := by decide +kernel


/-! Terms that the well-formedness checks refuse, one for each check. -/

/-- A reference to a command, a function and a packet that are well formed. -/
def tRef : CmdRef := { scope := .part 0, rid := 7 }

/-- Operands out of range are refused: functions, pages, queues, packets, scopes, request IDs, units, registers, lanes, cells, nodes,
LUNs, criers, severities, chunks and places. -/
theorem test_illFormed_refused :
    [Instr.sqTailDoorbell { port := .a, vf := 65 } 0 0 0, .sqTailDoorbell tFn 128 0 0, .cqHeadDoorbell tFn 0 512 0,
      .commandFetch tQ (zeros 63), .commandFetch { scope := .part 64, q := 0 } (zeros 64), .queueDrained { scope := .part 0, q := 17 },
      .queueDrained { scope := .pf .a, q := 3 }, .dupEntryExpiry { scope := .part 64, rid := 0 } 0,
      .dupEntryExpiry { scope := .part 0, rid := 4294967296 } 0, .counterRead (.core 8) true .whole, .functionLevelResetVf .a 0,
      .functionLevelResetVf .a 65, .queryAdmission 64 0, .selectorRow 16 true .clean true, .abort tRef { tIn none none with place := { stack := 8, pc := 0, bank := 0, row := 0, unit := 0 } },
      .stallNop 256, .stallBr 0 256, .stallSetmode 0 4 true true, .stallLd 0 8 0 0 false 0, .stallLda 0 4 0 0 false 0,
      .stallRop 0 8 0 0 0 0 0 0, .stallSadd 0 16 0 0, .stallSaddi 0 0 0 16384, .stallSlui 0 0 4194304, .stallUnpk4 0 0 0 0 4 true true,
      .refreshDebtIncrement 0 32, .refreshClassEvaluation 8 0, .tileNop 128, .tileLoop 0 0 4096, .tileWait 0 65536, .tileMma 0 16384 0 0 0 0 true,
      .tileEpi 0 0 0 512 0 true 0 true, .tileVec 0 0 0 0 16, .ptnCtxWrite tFn 0 16 0, .sliceEnd 64 0, .substitution .quadrantNet 4 true,
      .laneEnable tFn 36 0, .laneUp 0 65536 [], .cellReceive 0 (zeros 255) .clean, .searchSub 65536 0, .routingEntryWrite tFn 65536 0,
      .policerCommit tFn 192 0, .lunFailed 768, .crierPost (.core 8) 0 0, .crierTimeout 128 0, .gatingEntry .tile 0 2 1, .recordHandled 4 0 0,
      .patrolScrub 8 0 0 0 0 .clean .clean, .rcvWrite .a 512 (zeros 65536), .epochHoldExpiry (.message 65536 0) 0].all (fun i => !i.wf)
      = true := by decide +kernel

/-- Terms at the ends of their ranges are accepted. -/
theorem test_wellFormed_accepted :
    [Instr.sqTailDoorbell { port := .b, vf := 64 } 127 511 0, .commandFetch { scope := .part 63, q := 16 } (zeros 64),
      .queueDrained tPf, .counterRead (.core 7) true .whole, .functionLevelResetVf .a 64, .stallLd 255 7 7 15 true 32767,
      .tileMma 127 16383 16383 511 511 63 true, .laneEnable tFn 35 0, .crierPost (.core 7) 127 0, .gatingEntry .tile 127 1 1,
      .lunFailed 767, .recordHandled 3 0 0, .powerSample 0 0 0].all (fun i => i.wf) = true := by decide +kernel

/-! One step, with results worked out by hand from the rule named. -/

/-- The state after a command. -/
def after (i : Instr) (s : State) : State :=
  match exec i s with
  | .next t => t
  | .fault _ => s
  | .refused _ => s

/-- SQ_TAIL moves on within the ring; a value past it is discarded with BAD_VALUE, class 0x04 (R45, R480). -/
theorem test_doorbell :
    (getQueue tQ (after (.sqTailDoorbell tVf 0 0 5) tS)).sqTail = 5 ∧
    (let t := after (.sqTailDoorbell tVf 0 0 16) tS
     (getQueue tQ t).sqTail = 2 ∧ (getQueue tQ t).dbErr = true ∧ (allRecs t).map (·.cls) = [4]) := by decide +kernel

/-- A command fetched at 19,200 cycles carries its fetch time, 1,000 µs, and SQ_HEAD moves on (R46, R464). -/
theorem test_fetch :
    let t := after (.commandFetch tQ (tPacket 0x01 1 0 64 0 [])) { tS with cycles := 19200 }
    t.host.cmds.map (fun k => (k.opcode, k.ref.rid, k.fetched)) = [(0x01, 7, 1000)] ∧ (getQueue tQ t).sqHead = 1 := by decide +kernel

/-- A packet with a reserved flag bit set completes BAD_PARAM, status 5, in CQ slot 3 at 8,192 + 96 (R50, R54, R55). -/
theorem test_badPacket :
    (after (.commandFetch tQ (leBytes 1 1 ++ leBytes 1 8 ++ zeros 2 ++ leBytes 4 7 ++ zeros 56)) tS).out.any (fun o => match o with
      | .entry p q addr bs => p == .a && q == tQ && addr == 8288 && field bs 0 4 == 7 && field bs 4 2 == 5
      | _ => false) = true := by decide +kernel

/-- A counter read in halves: the low half of 2^32 + 5 is 5, and latches 1 (R465). -/
theorem test_counter :
    let t := after (.counterRead .aoc true .low) { tS with cycles := 4294967301 }
    t.out.head? = some (.counter .aoc 5) ∧
    (after (.counterRead .aoc true .high) { t with cycles := 9000000000 }).out.head? = some (.counter .aoc 1) := by decide +kernel

/-- Scalar registers of the job on stall 0 after a step. -/
def tScalar (word : Nat) (i : Instr) (r : Nat) (init : List W32) : Option W32 :=
  let j := { tJob word with s := init }
  (runningJob (getStall 0 (after i (tSJ j false [])))).map fun j => j.s.getD r 0
/-- Scalars 1 and 2, the rest zero. -/
def tInit (a b : W32) : List W32 := [0, a, b] ++ List.replicate 13 0

/-- SADD wraps, SMUL keeps the low word, SHL shifts (R204): the words are those of the opcode table with fields 15, 2, 1. -/
theorem test_stallScalar :
    tScalar 0x43C84000 (.stallSadd 0 15 2 1) 15 (tInit 0xFFFFFFFF 2) = some 1 ∧
    tScalar 0x47C84000 (.stallSsub 0 15 2 1) 15 (tInit 3 2) = some 0xFFFFFFFF ∧
    tScalar 0x4BC84000 (.stallSmul 0 15 2 1) 15 (tInit 0x10001 0x10000) = some 0x10000 := by decide +kernel

/-- An immediate is sign-extended in SADDI (R204): 16,383 is −1. -/
theorem test_stallSaddi : tScalar 0x4FC83FFF (.stallSaddi 0 15 2 16383) 15 (tInit 0 7) = some 6 := by decide +kernel

/-- Lanes of vector register `r` after a step. -/
def tVector (word : Nat) (i : Instr) (r : Nat) (a b : W16) : Option W16 :=
  let j := { tJob word with v := [List.replicate 32 0, List.replicate 32 a, List.replicate 32 b] ++ List.replicate 5 (List.replicate 32 0) }
  (runningJob (getStall 0 (after i (tSJ j false [])))).bind fun j => (j.v.getD r []).head?

/-- 1.0 + 1.0 is 2.0 and 1.5 × 2.0 is 3.0 in FP16, the format after reset (R204, R238). -/
theorem test_stallVector :
    tVector 0x8F940000 (.stallVadd 0 7 1 2) 7 0x3C00 0x3C00 = some 0x4000 ∧
    tVector 0x97940000 (.stallVmul 0 7 1 2) 7 0x3E00 0x4000 = some 0x4200 := by decide +kernel

/-- The CRC-32C of "123456789" is E3069283, its published check value; the SHA-256 of "abc" begins BA 78 16 BF (FIPS 180-4). -/
theorem test_hashes :
    crc32c ([0x31, 0x32, 0x33, 0x34, 0x35, 0x36, 0x37, 0x38, 0x39] : List Byte) = 0xE3069283 ∧
    (Sha.sha256 ([0x61, 0x62, 0x63] : List Byte)).take 4 = [0xBA, 0x78, 0x16, 0xBF] := by decide +kernel

/-- A new bank at 60 V holds 1.3824 J and reads 100 %; at 36 V it is empty (R540). -/
theorem test_bank :
    let full := onIsland (fun i => { i with bankV := 240, bankNf := 1200000 }) tS
    bankNj full = 1382400000 ∧ holdupPct full = 100 ∧ holdupPct (onIsland (fun i => { i with bankV := 144 }) full) = 0 := by decide +kernel

/-- A sample of 1,001 W throttles at once; one of 851 W is an excursion alone (R26). -/
theorem test_powerSample :
    (after (.powerSample 1001 52000 1) tS).board.pwr.throttle = true ∧
    (let p := (after (.powerSample 851 52000 1) tS).board.pwr
     p.throttle = false ∧ p.excursion = true ∧ p.excursions = 1) := by decide +kernel

/-- SMBus STATUS of a READY module with MOD_PG: bits 0 and 1 (R545). -/
theorem test_smbStatus : (after .smbStatus tS).out.head? = some (.smbus (some [3])) := by decide +kernel

/-- A crier taken after its post: EMPTIED sets, the notice reads 0, and the host that sent it gets vector 2 (R455, R458). -/
theorem test_crier :
    let t := after (.crierPost (.host .a) 96 0xCAFE) (onCrier 96 (fun c => { c with enable := true, sender := 9, receiver := 2 }) tS)
    (getCrier 96 t).notice = 0xCAFE ∧
    (let u := after (.crierTake (.core 2) 96) t
     (getCrier 96 u).emptied = true ∧ (getCrier 96 u).notice = 0 ∧ u.out.head? = some (.msix tFn 2)) := by decide +kernel

/-- A write with no part of the map behind it stops nothing and files BAD_ACCESS, class 0x01 (R36). -/
theorem test_badAccess : (allRecs (after (.registerWrite tFn false 2 4 0) tS)).map (·.cls) = [1] := by decide +kernel

/-- On an empty queue a step is one tick of 19.2 MHz (R464; the model's choice). -/
theorem test_tick : step tS = .next { tS with cycles := 1 } := rfl

/-! Jobs on stalls. -/

/-- Stall 0 powered: with no segment, with a segment that ends, with one that goes on, and with eight refreshes owed; hub accesses of
a row in the segment's write set and of one outside it; a segment that opens over a job and over none. -/
theorem test_meets_boundary :
    (let s := onStall 0 (fun x => { x with gated := false }) tS
     let u := serveHub 0 3000 [] s
     (getStall 0 u).gated = false ∧ stallHeld 0 u = false ∧ runningJob (getStall 0 u) = none ∧ (getStall 0 s).run = none ∧
      runningJob (getStall 0 (openSegment 0 3000 s)) = none ∧ inWriteSet 0 5 s = false) ∧
    (let j := tJob 0
     let s := tSJ j false []
     let u := serveHub 0 3000 [] s
     runningJob (getStall 0 u) = some j ∧ segmentEnds 0 (getStall 0 u) j 3000 u = true ∧
      segmentEnds 0 (getStall 0 u) j 2999 u = false ∧ getDebt 0 u ≠ 8 ∧ (getStall 0 s).run ≠ none ∧ inWriteSet 0 0 s = true ∧
      runningJob (getStall 0 (openSegment 0 3000 (closeSegment 0 3000 u))) ≠ none) ∧
    (let j := tJob 0
     let s := setDebt 0 8 (tSJ j false [])
     let u := serveHub 0 2999 [] s
     getDebt 0 u = 8 ∧ runningJob (getStall 0 u) = some j ∧ segmentEnds 0 (getStall 0 u) j 2999 u = false) := by decide +kernel

/-- Activations of weight 0, 1 and 3: one of the stall too many, one beyond the stack's budget, one admitted. -/
theorem test_meets_activate :
    (let s := tSJ (tJob 0) false []
     needWeight (jobNeed 0 (getStall 0 s) (tJob 0) s) = 0) ∧
    (let j := tJob 0x21828007
     let s := tSJ j false []
     let busy := onStall 0 (fun x => { x with recent := [(5, 4)] }) s
     let spent := onStack 0 (fun t => { t with budget := 0, budgetWas := 0 }) s
     runningJob (getStall 0 s) = some j ∧ needWeight (jobNeed 0 (getStall 0 s) j s) = 1 ∧
      4 < weightOf (within 40 5 (getStall 0 busy).recent) + 1 ∧ weightOf (within 40 5 (getStall 0 s).recent) + 1 ≤ 4 ∧
      budgetAt 5 (getStack 0 spent) < weightOf (within 1000 5 (getStack 0 spent).window) + 1 ∧
      weightOf (within 1000 5 (getStack 0 s).window) + 1 ≤ budgetAt 5 (getStack 0 s) ∧ behindOthers 0 s = false) := by decide +kernel

/-- A multiplier below, at and above what the classes ask. -/
theorem test_meets_refresh : let t := stackReset 0
    (t.mult ≤ max 2 (max 0 t.multMin)) ∧ (max 0 (max 0 t.multMin) < ({ t with mult := 2 } : Stack).mult) ∧
    t.fallRun + 1 < 100 ∧ (evalRefresh 96 t).mult = 2 ∧ (evalRefresh 85 { t with mult := 2 }).mult = 2 := by decide +kernel

/-- A program image of the one word END. -/
def tImage : List Byte :=
  let body := leBytes 4 0x4C4C5453 ++ leBytes 2 1 ++ leBytes 2 1 ++ zeros 4 ++ zeros 4 ++ zeros 48 ++ leBytes 4 0x04000000
  body.take 12 ++ leBytes 4 (crc32c body) ++ body.drop 16
/-- A STALL_RUN of one launch on stall 0, and the forms of ROW_OP. -/
def tStallRun : Cmd := tCmd tQ (tBlockPacket 0x28 0 0 64 68)
/-- Its block. -/
def tLaunch : List Byte := leBytes 2 1 ++ zeros 62 ++ zeros 128
/-- See `tStallRun`. -/
def tRowOp (form : List Byte) (handle dlen : Nat) : Cmd := tCmd tQ (tPacket 0x29 handle 0 0 dlen form)
/-- A copy of row 0 of region 5 to row 1. -/
def tRowIn : List Byte := zeros 2 ++ leBytes 2 5 ++ leBytes 2 5 ++ zeros 2 ++ leBytes 4 32 ++ leBytes 4 0 ++ zeros 8
/-- The parameters of PLAIN, DERIVE and CLEAR of slot 0, and of no form. -/
def tForms : List (List Byte) :=
  [fit 24 (zeros 20 ++ leBytes 4 1), fit 24 (leBytes 1 1 ++ zeros 1 ++ leBytes 1 1), fit 24 (leBytes 1 2), fit 24 (leBytes 1 3)]
/-- The module with index 1 and region 5 of 64 rows. -/
def tSR : State :=
  onPtn (fun p => { p with regions := [(5, { part := 0, pinned := true, stall := 0, row := 0, bytes := 65536, mem := [] })] }) tSI

/-- Each of them due with its checks passed. -/
theorem test_meets_stallCommands :
    (let p := tBlockPacket 0x28 0 0 64 68
     let k := tCmd tQ (p.take 48 ++ leBytes 4 192 ++ p.drop 52)
     let s := withCmds [k] tSR
     Due 0x28 anyForm k.ref (tIn (some tLaunch) (some tImage)) k tLaunch tImage s ∧ stallRunCheck k tLaunch tImage s = .go) ∧
    (let ps := tForms.getD 0 []
     let k := tRowOp ps 0 24
     let s := withCmds [k] tSR
     Due 0x29 (fun ps => field ps 0 1 == 0 || 2 < field ps 0 1) k.ref (tIn none (some tRowIn)) k ps tRowIn s ∧
      field ps 0 1 = 0 ∧ rowPlainCheck k ps tRowIn s = .go) ∧
    (let ps := tForms.getD 3 []
     let k := tRowOp ps 0 0
     Due 0x29 (fun ps => field ps 0 1 == 0 || 2 < field ps 0 1) k.ref (tIn none none) k ps [] (withCmds [k] tSR) ∧ 2 < field ps 0 1) ∧
    (let ps := tForms.getD 1 []
     let k := tRowOp ps 1 0
     let s := withCmds [k] tSR
     Due 0x29 (fun ps => field ps 0 1 == 1) k.ref (tIn none none) k ps [] s ∧ rowDeriveCheck k ps [] s = .go ∧
      getIndex k.handle s = some tIndex) ∧
    (let ps := tForms.getD 2 []
     let k := tRowOp ps 1 0
     let s := withCmds [k] tSR
     Due 0x29 (fun ps => field ps 0 1 == 2) k.ref (tIn none none) k ps [] s ∧ rowClearCheck k ps [] s = .go) :=
  ⟨⟨due_of (by decide +kernel), by decide +kernel⟩, ⟨due_of (by decide +kernel), by decide +kernel⟩,
    ⟨due_of (by decide +kernel), by decide +kernel⟩, ⟨due_of (by decide +kernel), by decide +kernel⟩,
    ⟨due_of (by decide +kernel), by decide +kernel⟩⟩

/-! Models and tiles. -/

/-- A READY model of one TILE layer whose program is the one word given. -/
def tModel (word : Nat) : Model where
  part := 0
  ready := true
  layers := 1
  total := 4096
  maxRows := 1
  image := writeBytes [(66, 0xFF), (67, 0xFF), (68, 1), (81, 2), (89, 4), (1032, 1)] 1088 (leBytes 8 word)
  written := []
  pinned := false
  stalls := []
  rows := []
  dram := 0
  lastUse := 0
  recs := [(0, [(0, { steps := 0, misfitSteps := 0, reruns := 0, lastMisfit := 0, lastClipped := 0, scaleSat := false,
                      nonfinite := false, lastRerun := false, scales := [] })])]
/-- Its input: one row of 64 elements. -/
def tAct : Act := { fmt := 0, scale := 0, rows := 1, width := 64, tscale := 0x3F800000, scales := [], data := [] }
/-- A run of it, with the steps given. -/
def tRun (steps : Table Step) : Run where
  ref := { scope := .part 0, rid := 7 }
  part := 0
  ctx := 0
  handle := 1
  rows := 1
  srcBulk := false
  dstBulk := false
  seq := 0
  comp := 0
  input := some tAct
  outs := []
  picked := []
  steps := steps
  sending := false
  slot := 0
  resultOk := true
  bad := none
/-- A step of layer 0 on tile 0, with its work changed by `f`. -/
def tStep (use : ShelfUse) (f : TileWork → TileWork) : Step :=
  let st := newStep 0 [0] false false [] 0 1 use
  { st with work := [(0, f (newWork 0 1 1))] }
/-- The module running that step of a model with this word. -/
def tTile (word : Nat) (use : ShelfUse) (f : TileWork → TileWork) : State :=
  onTil (fun t => { t with
    models := [(1, tModel word)], runs := [tRun [(0, tStep use f)]], busy := [(0, ({ scope := .part 0, rid := 7 }, 0))] }) tS

/-- Words written out from the formats and opcodes of R266–R268, with the fields they name. -/
def tTileWords : List (Nat × List (Nat × Nat × Nat) × Nat) := [
  (0x00, [], 0x0000000000000000),
  (0x01, [], 0x0100000000000000),
  (0x02, [], 0x0200000000000000),
  (0x03, [(55, 52, 3), (11, 0, 9)], 0x0330000000000009),
  (0x04, [(55, 52, 3), (11, 0, 9)], 0x0430000000000009),
  (0x0A, [(15, 0, 2)], 0x0A00000000000002),
  (0x18, [(55, 52, 4), (51, 48, 1), (47, 44, 2)], 0x1841200000000000),
  (0x19, tileFieldsS 4 1 33, 0x1941000000000021),
  (0x1A, tileFieldsS 4 1 33, 0x1A41000000000021),
  (0x1B, tileFieldsS 4 1 33, 0x1B41000000000021),
  (0x08, [(55, 52, 4), (51, 48, 0), (47, 44, 1), (43, 30, 1), (29, 16, 5)], 0x0840100040050000),
  (0x09, [(55, 52, 4), (51, 48, 0), (47, 44, 1), (43, 30, 1), (29, 16, 5)], 0x0940100040050000),
  (0x10, [(55, 42, 1), (41, 28, 2), (27, 19, 1), (18, 10, 0), (9, 4, 1), (3, 3, b2n true)], 0x1000040020080018),
  (0x11, [(55, 42, 1), (41, 33, 1), (32, 24, 0), (23, 20, 2), (19, 19, b2n true), (18, 5, 7), (4, 4, b2n true)], 0x11000402002800F0),
  (0x12, [(55, 42, 1), (41, 28, 2), (27, 14, 3), (13, 10, 0)], 0x120004002000C000)]

/-- A tile that issues, with a property of its context, found by evaluation. -/
theorem tile_of {t opc : Nat} {fields : List (Nat × Nat × Nat)} {s : State} {p : TileCtx → Bool}
    (h : (tileCtx t s).any (fun x => x.issues s && wordIs opc fields x.word && p x) = true) :
    ∃ x, TileIssuing t opc fields x s ∧ p x = true := by
  cases hx : tileCtx t s with
  | none => rw [hx] at h; simp at h
  | some x =>
    rw [hx] at h
    simp only [Option.any_some, Bool.and_eq_true] at h
    exact ⟨x, ⟨hx, h.1.1, h.1.2⟩, h.2⟩

/-- Every word of the list may issue on tile 0. -/
theorem test_meets_tileIssue : ∀ e ∈ tTileWords, ∃ x, TileIssuing 0 e.1 e.2.1 x (tTile e.2.2 .stream id) := by
  have h : tTileWords.all (fun e => (tileCtx 0 (tTile e.2.2 .stream id)).any fun x =>
      x.issues (tTile e.2.2 .stream id) && wordIs e.1 e.2.1 x.word && true) = true := by decide +kernel
  intro e he
  obtain ⟨x, hx, _⟩ := tile_of (List.all_eq_true.mp h e he)
  exact ⟨x, hx⟩

/-- Transfers in and out that fit, one that does not, one of a layer array that waits; an outstanding one. -/
theorem test_meets_tileDma :
    (∀ out, ∃ x, TileIssuing 0 (if out then 0x09 else 0x08) ([(55, 52, 4), (51, 48, 0), (47, 44, 1), (43, 30, 1), (29, 16, 5)]) x (tTile (if out then 0x940100040050000 else 0x840100040050000) .stream id) ∧
      dmaBad x { out := out, arr := 4, off := sreg x.work 0, len := lenOf 1, saddr := 5, token := 1 } = false) ∧
    (∃ x, TileIssuing 0 0x08 ([(55, 52, 4), (51, 48, 0), (47, 44, 1), (43, 30, 1), (29, 16, 5)]) x (tTile 0x840100040050000 .stream (setSreg 0 64)) ∧
      true = true) ∧
    (∃ x, TileIssuing 0 0x08 [(55, 52, 0), (51, 48, 1), (47, 44, 1), (43, 30, 1), (29, 16, 5)] x (tTile 0x801100040050000 .pending id) ∧
      (x.step.use == .pending) = true) ∧
    (∃ x, TileIssuing 0 0x08 [(55, 52, 0), (51, 48, 1), (47, 44, 1), (43, 30, 1), (29, 16, 5)] x (tTile 0x801100040050000 .stream id) ∧
      dmaBad x { out := false, arr := 0, off := sreg x.work 1, len := lenOf 1, saddr := 5, token := 1 } = true) := by
  refine ⟨?_, tile_of (p := fun _ => true) (by decide +kernel), tile_of (p := fun x => x.step.use == .pending) (by decide +kernel),
    tile_of (p := fun x => dmaBad x { out := false, arr := 0, off := sreg x.work 1, len := lenOf 1, saddr := 5, token := 1 })
      (by decide +kernel)⟩
  rintro (_ | _)
  · obtain ⟨x, h, hp⟩ := tile_of (t := 0) (opc := 0x08) (fields := [(55, 52, 4), (51, 48, 0), (47, 44, 1), (43, 30, 1), (29, 16, 5)]) (s := tTile 0x840100040050000 .stream id)
      (p := fun x => !dmaBad x { out := false, arr := 4, off := sreg x.work 0, len := lenOf 1, saddr := 5, token := 1 })
      (by decide +kernel)
    exact ⟨x, h, by simpa using hp⟩
  · obtain ⟨x, h, hp⟩ := tile_of (t := 0) (opc := 0x09) (fields := [(55, 52, 4), (51, 48, 0), (47, 44, 1), (43, 30, 1), (29, 16, 5)]) (s := tTile 0x940100040050000 .stream id)
      (p := fun x => !dmaBad x { out := true, arr := 4, off := sreg x.work 0, len := lenOf 1, saddr := 5, token := 1 })
      (by decide +kernel)
    exact ⟨x, h, by simpa using hp⟩

/-- An outstanding transfer; an MMA and a VEC that fit, and that do not. -/
theorem test_meets_tileCompute :
    (let d : TileDma := { out := false, arr := 4, off := 0, len := 1, saddr := 0, token := 3 }
     (tileCtx 0 (tTile 0 .stream fun w => { w with dmas := [d] })).any (fun x => x.work.dmas.find? (fun d => d.token == 3 && dmaReady x d) ==
      some d && (dmaEcc x d .clean tPlace tS).2 && !(dmaEcc x d .uncorrectable tPlace tS).2) = true) ∧
    (∃ x, TileIssuing 0 0x10 ([(55, 42, 1), (41, 28, 2), (27, 19, 1), (18, 10, 0), (9, 4, 1), (3, 3, b2n true)]) x (tTile 0x1000040020080018 .stream id) ∧
      mmaFits x.ctx { waddr := 1, aaddr := 2, rows := rowsOf 1, acc := 0, kb := blocksOf 1, zero := true } x.work = true) ∧
    (∃ x, TileIssuing 0 0x10 ([(55, 42, 16383), (41, 28, 2), (27, 19, 1), (18, 10, 0), (9, 4, 1), (3, 3, b2n true)]) x (tTile 0x10FFFC0020080018 .stream id) ∧
      (!mmaFits x.ctx { waddr := 16383, aaddr := 2, rows := rowsOf 1, acc := 0, kb := blocksOf 1, zero := true } x.work) = true) ∧
    (∃ x, TileIssuing 0 0x12 ([(55, 42, 1), (41, 28, 2), (27, 14, 3), (13, 10, 0)]) x (tTile 0x120004002000C000 .stream id) ∧
      (!vecFits x.ctx { daddr := 1, xaddr := 2, yaddr := 3, fn := 0 } x.work) = true) ∧
    (∃ x, TileIssuing 0 0x12 ([(55, 42, 1), (41, 28, 2), (27, 14, 3), (13, 10, 0)]) x (tTile 0x120004002000C000 .stream (fun w => setSreg 12 64 (setSreg 11 1 w))) ∧
      vecFits x.ctx { daddr := 1, xaddr := 2, yaddr := 3, fn := 0 } x.work = true) :=
  ⟨by decide +kernel,
   tile_of (p := fun x => mmaFits x.ctx { waddr := 1, aaddr := 2, rows := rowsOf 1, acc := 0, kb := blocksOf 1, zero := true } x.work)
     (by decide +kernel),
   tile_of (p := fun x => !mmaFits x.ctx { waddr := 16383, aaddr := 2, rows := rowsOf 1, acc := 0, kb := blocksOf 1, zero := true } x.work)
     (by decide +kernel),
   tile_of (p := fun x => !vecFits x.ctx { daddr := 1, xaddr := 2, yaddr := 3, fn := 0 } x.work) (by decide +kernel),
   tile_of (p := fun x => vecFits x.ctx { daddr := 1, xaddr := 2, yaddr := 3, fn := 0 } x.work) (by decide +kernel)⟩


/-- A layer that may start, one that has ended, and a tile that runs on 199 µs after a posted stop. -/
theorem test_meets_steps :
    (let r := tRun []
     let m := tModel 0
     let s := onTil (fun t => { t with models := [(1, m)], runs := [r] }) tS
     getModelRun r.ref s = some r ∧ getModel r.handle s = some m ∧ layerInput r m (layerAt m 0) = some tAct ∧
      stepReady r m 0 s = true ∧ recordTaken r m 0 s = false ∧ ctxRuns 0 0 s = true ∧ (getPtn 0 s).stop = none ∧
      stageRoom m 0 1 s = true ∧ s.til.resets.any (fun x => x.2.1 == r.handle && x.2.2 == r.ctx) = false ∧
      stepTiles 0 (layerAt m 0) s = some [0] ∧ (layerAt m 0).kind = 0) ∧
    (let s := tTile 0 .stream fun w => { w with ended := true }
     let st := tStep .stream fun w => { w with ended := true }
     getStep (tRun []).ref 0 s = some st ∧ ctxRuns 0 0 s = true ∧ stepDone (tModel 0) 1 st = true ∧ (layerAt (tModel 0) 0).kind ≠ 2 ∧
      (getRec (tModel 0) 0 0).isSome = true) ∧
    (let s := atTime 199 (onPart 0 (fun p => { p with stop := some 0 }) (tTile 0 .stream fun w => { w with fresh := false }))
     (tileCtx 0 s).any (fun x => (getPtn x.run.part s).stop == some 0 && !x.work.ended && !x.work.fresh && !x.work.late) = true ∧
      0 + 199 ≤ timeUs s) := by decide +kernel

/-- The model with a layer of another kind, ready in a state without steps; a SELECT layer whose one row is picked. -/
theorem test_meets_layerKinds :
    (∀ k, k = 1 ∨ k = 2 → let m := { tModel 0 with image := (64, k) :: (tModel 0).image }
     let s := onTil (fun t => { t with models := [(1, m)], runs := [tRun []] }) tS
     layerInput (tRun []) m (layerAt m 0) = some tAct ∧ stepReady (tRun []) m 0 s = true ∧ recordTaken (tRun []) m 0 s = false ∧
      stageRoom m 0 1 s = true ∧ (stepTiles 0 (layerAt m 0) s).isSome = true ∧ (layerAt m 0).kind = k) ∧
    (let m := { tModel 0 with image := (64, 2) :: (tModel 0).image }
     stepDone m 1 { newStep 0 [] false false [] 0 1 .stream with picks := [(0, zeros 64)] } = true) := by
  refine ⟨?_, by decide +kernel⟩
  rintro k (rfl | rfl) <;> decide +kernel

/-- The statistics of a step that is no re-run, and of one under COMPAT with 1,000 clipped elements that is; the re-run's reads, whole
and lost. -/
theorem test_meets_rerun :
    let m := { tModel 0 with image := (517, 1) :: (518, 3) :: (528, 64) :: (tModel 0).image }
    let old : ScaleRec := { steps := 0, misfitSteps := 0, reruns := 0, lastMisfit := 0, lastClipped := 0, scaleSat := false,
                            nonfinite := false, lastRerun := false, scales := [127, 127] }
    let st := { newStep 0 [] false false [127, 127] 0 1 .stream with clipped := [1000, 0], amax := [0, 0] }
    (endStats (layerCtx (tModel 0) 0 tAct false []) 1 (newStep 0 [] false false [] 0 1 .stream) old).rerun = false ∧
    (endStats (layerCtx m 0 tAct false [127, 127]) 1 st old).rerun = true ∧
    (rerunRead (tRun []).ref (tRun []) st .clean tPlace tS).2 = true ∧
    (rerunRead (tRun []).ref (tRun []) st .uncorrectable tPlace tS).2 = false := by decide +kernel

/-- A row of a SELECT layer of a run, as selectors take it. -/
theorem test_meets_layerRow :
    let m := { tModel 0 with image := (64, 2) :: (tModel 0).image }
    let r : SelRow := { ref := (tRun []).ref, part := 0, row := 0, staged := 0, layer := some 0 }
    let s := onTil (fun t => { t with models := [(1, m)], runs := [tRun []] }) tS
    r.layer = some 0 ∧ getModelRun r.ref s = some (tRun []) ∧ getModel 1 s = some m ∧
    layerInput (tRun []) m (layerAt m 0) = some tAct := by decide +kernel

/-- A step that waits for its layer's image: joined, started, or given up; a PIN; a fill in progress. -/
theorem test_meets_shelf :
    (let s := tTile 0 .pending id
     let i : ShelfImg := { handle := 1, layer := 0, part := 0, bytes := 64, filling := true }
     getStep (tRun []).ref 0 s = some (tStep .pending id) ∧ (tStep .pending id).use = .pending ∧ shelfImage 1 0 s = none ∧
      (startFill 1 0 (tModel 0) s).2 = true ∧
      (startFill 1 0 (tModel 0) (onPart 0 (fun p => { p with shares := sharesZero }) s)).2 = false ∧
      shelfImage 1 0 (onTil (fun t => { t with shelf := [i] }) s) = some i ∧ i.filling = true) ∧
    (let m := { tModel 0 with image := (65, 1) :: (tModel 0).image }
     let p : PinCmd := { ref := (tRun []).ref, handle := 1 }
     let s := onTil (fun t => { t with models := [(1, m)], pins := [p] }) tS
     getModelRun p.ref s = none ∧ s.til.pins.find? (·.ref == p.ref) = some p ∧ getModel 1 s = some m ∧ eligible m 0 s = true ∧
      0 < m.layers ∧ shelfImage 1 0 s = none) := by decide +kernel

/-- The header and layer table of a model of one layer, of 192 bytes. -/
def tHeader : List Byte :=
  let b := leBytes 4 0x4C444D51 ++ leBytes 2 1 ++ leBytes 2 1 ++ leBytes 8 192 ++ zeros 4 ++ zeros 44 ++ zeros 128
  b.take 16 ++ leBytes 4 (crc32c b) ++ b.drop 20
/-- A model operation of queue 0 on handle 1. -/
def tLoad (op : Nat) (rlen dlen : Nat) (ps : List Byte) : Cmd := tCmd tQ (tPacket op 1 0 rlen dlen ps)
/-- The module with model 1, LOADING or READY. -/
def tSModel (ready : Bool) (total : Nat) : State :=
  onTil (fun t => { t with models := [(1, { tModel 0 with ready := ready, total := total })] }) tS

/-- Each operation due with its checks passed. -/
theorem test_meets_modelLoad :
    (let ps := fit 24 (zeros 16 ++ leBytes 4 1)
     let k := tLoad 0x20 0 192 ps
     Due 0x20 (fun ps => opIs 0 ps || 5 < field ps 0 1) k.ref (tIn none (some tHeader)) k ps tHeader (withCmds [k] tS) ∧
      loadBeginCheck k ps tHeader (withCmds [k] tS) = .go) ∧
    (let ps := fit 24 (leBytes 1 1 ++ zeros 3 ++ leBytes 4 (crc32c (zeros 64)) ++ leBytes 8 192)
     let k := tLoad 0x20 0 64 ps
     let s := withCmds [k] (tSModel false 256)
     Due 0x20 (opIs 1) k.ref (tIn none (some (zeros 64))) k ps (zeros 64) s ∧ loadChunkCheck k ps (zeros 64) s = .go) ∧
    (let ps := fit 24 (leBytes 1 2)
     let k := tLoad 0x20 0 0 ps
     let s := withCmds [k] (tSModel false 192)
     Due 0x20 (opIs 2) k.ref (tIn none none) k ps [] s ∧ loadParamsBad k ps = false ∧ modelStatus k s = none ∧
      (getModel 1 s).any (fun m => !m.ready && fullyWritten m && !imageGood m) = true) ∧
    (let ps := fit 24 (leBytes 1 3)
     let k := tLoad 0x20 0 0 ps
     let s := withCmds [k] (tSModel true 192)
     Due 0x20 (opIs 3) k.ref (tIn none none) k ps [] s ∧ loadParamsBad k ps = false ∧ modelStatus k s = none ∧
      (getModel 1 s).any (fun m => !m.pinned) = true ∧ modelRuns 1 s = false) ∧
    (∀ op, op = 4 ∨ op = 5 → let ps := fit 24 (leBytes 1 op)
     let k := tLoad 0x20 (if op = 5 then 64 else 0) 0 ps
     let s := withCmds [k] (tSModel true 192)
     Due 0x20 (opIs op) k.ref (tIn none none) k ps [] s ∧ loadParamsBad k ps = false ∧ modelStatus k s = none ∧
      (getModel 1 s).any (fun m => m.ready && (tget? m.recs 0).isSome && (scaleBytes m 0).length ≤ 64) = true) := by
  refine ⟨⟨due_of (by decide +kernel), by decide +kernel⟩, ⟨due_of (by decide +kernel), by decide +kernel⟩,
    ⟨due_of (by decide +kernel), by decide +kernel⟩, ⟨due_of (by decide +kernel), by decide +kernel⟩, ?_⟩
  rintro op (rfl | rfl) <;> exact ⟨due_of (by decide +kernel), by decide +kernel⟩

/-- An activation block of one row of 64 elements of format 0. -/
def tBlock : List Byte := actBlock { tAct with width := 0 } 0

/-- A run, a PIN and an UNPIN due with their checks passed. -/
theorem test_meets_modelRun :
    (let ps := fit 24 (leBytes 4 1)
     let k := tLoad 0x21 64 64 ps
     let s := withCmds [k] (tSModel true 192)
     Due 0x21 anyForm k.ref (tIn none (some tBlock)) k ps tBlock s ∧ runCheck k ps tBlock s = .go ∧ k.epoch = 0) ∧
    (let ps := zeros 24
     let k := tLoad 0x22 0 0 ps
     let s := withCmds [k] (tSModel true 192)
     Due 0x22 (fun ps => !opIs 1 ps) k.ref (tIn none none) k ps [] s ∧ pinCheck true k ps [] s = .go) ∧
    (let ps := fit 24 (leBytes 1 1)
     let k := tLoad 0x22 0 0 ps
     let s := withCmds [k] (tSModel true 192)
     Due 0x22 (opIs 1) k.ref (tIn none none) k ps [] s ∧ pinCheck false k ps [] s = .go) :=
  ⟨⟨due_of (by decide +kernel), by decide +kernel⟩, ⟨due_of (by decide +kernel), by decide +kernel⟩,
    ⟨due_of (by decide +kernel), by decide +kernel⟩⟩

/-- A model image of one TILE layer that COMMIT accepts: BF16 weights 32 × 32, all zero, and a program of one word. Listed are its bytes
that are not zero: of the layer table, the descriptor, the program with its CRC, and the scale record. -/
def tModelImage : Memory :=
  ([(66, 255), (67, 255), (68, 1), (80, 192), (89, 2), (104, 128), (105, 2), (136, 128), (137, 10)] : Memory) ++
  ([(192, 1), (194, 1), (196, 1), (204, 32), (208, 32), (214, 128), (215, 63)] : Memory) ++
  ((List.range 256).map fun i => (256 + i, 0xFF)) ++
  ([(512, 71), (513, 76), (514, 83), (515, 71), (516, 1), (518, 1), (520, 1), (524, 196), (525, 162), (526, 54), (527, 250)] : Memory) ++
  ([(2688, 81), (2689, 83), (2690, 67), (2691, 82), (2692, 1), (2694, 1), (2702, 128), (2703, 63)] : Memory)
/-- The model that holds it. -/
def tGood : Model := { tModel 0 with ready := false, image := tModelImage, total := 2752, written := [(192, 2752)] }
/-! Embedding tables. -/

/-- A table of four rows of 32 elements, alone or one of two shards. -/
def tTab (shards : Nat) : Tab where
  desc := { part := 0, elem := 0, dim := 32, opt := 1, addr := 0, rows := 4, rRows := 0, seed := 0, shards := shards, shard := 0,
            fetchRows := 256, ledgerRows := 256, copySlots := 256 }
  step := 2
  closing := false
  recs := []
  copies := []
  holders := []
  fetched := []
  ledger := []
  adds := []
  sets := []
  setsDone := []
  refreshed := []
  pins := []
/-- The module with table 1. -/
def tEmb (shards : Nat) : State := onEmb (fun e => { e with tables := [(1, tTab shards)] }) tS
/-- One bag of the one index 0, and its gradient or its record. -/
def tBag : List Byte := leBytes 4 0 ++ leBytes 4 1 ++ leBytes 8 0
/-- Parameters with BAGS, flags, STEP and INDICES. -/
def tEmbPs (bags flags step indices : Nat) : List Byte :=
  fit 24 (leBytes 2 bags ++ zeros 1 ++ leBytes 1 flags ++ leBytes 4 step ++ leBytes 4 indices)
/-- A command on table 1. -/
def tEmbCmd (op rlen dlen : Nat) (ps : List Byte) : Cmd := tCmd tQ (tPacket op 1 0 rlen dlen ps)
/-- The block of a close, with its hyperparameters. -/
def tCloseBlock : List Byte := tEmbPs 1 2 3 1 ++ zeros 12 ++ leBytes 4 0x3F800000 ++ zeros 24
/-- The rows that EMB_REPLICA_REFRESH names. -/
def tReplica (op : Nat) : List Byte := fit 24 (leBytes 4 op ++ leBytes 4 1)

/-- A command of every kind on a table, due with its checks passed. -/
theorem test_meets_tableCommands :
    getTab 1 (tEmb 1) = some (tTab 1) ∧
    (let ps := tEmbPs 1 0 3 1
     let k := tEmbCmd 0x18 192 16 ps
     let s := withCmds [k] (tEmb 1)
     Due 0x18 (fun ps => !bit (embFlags ps) 1) k.ref (tIn none (some tBag)) k ps tBag s ∧ poolCheck k ps tBag s = .go) ∧
    (let ps := tEmbPs 1 2 0 1
     let k := tEmbCmd 0x18 64 16 ps
     let s := withCmds [k] (tEmb 1)
     Due 0x18 (fun ps => bit (embFlags ps) 1) k.ref (tIn none (some tBag)) k ps tBag s ∧ dumpCheck k ps tBag s = .go) ∧
    (let ps := tEmbPs 1 0 3 1
     let k := tEmbCmd 0x19 0 192 ps
     let s := withCmds [k] (tEmb 1)
     Due 0x19 (fun ps => bits (embFlags ps) 2 1 == 0) k.ref (tIn none (some (fit 192 tBag))) k ps (fit 192 tBag) s ∧
      updateCheck false k ps (fit 192 tBag) s = .go) ∧
    (let k := tCmd tQ (tBlockPacket 0x19 1 0 0 192)
     let s := withCmds [k] (tEmb 1)
     Due 0x19 (fun ps => bits (embFlags ps) 2 1 == 1) k.ref (tIn (some tCloseBlock) (some (fit 192 tBag))) k tCloseBlock
      (fit 192 tBag) s ∧ updateCheck true k tCloseBlock (fit 192 tBag) s = .go) ∧
    (let ps := tEmbPs 1 4 0 1
     let k := tEmbCmd 0x19 0 128 ps
     let s := withCmds [k] (tEmb 1)
     Due 0x19 (fun ps => bit (embFlags ps) 2) k.ref (tIn none (some (fit 128 tBag))) k ps (fit 128 tBag) s ∧
      loadCheck k ps (fit 128 tBag) s = .go) :=
  ⟨by decide +kernel, ⟨due_of (by decide +kernel), by decide +kernel⟩, ⟨due_of (by decide +kernel), by decide +kernel⟩,
    ⟨due_of (by decide +kernel), by decide +kernel⟩, ⟨due_of (by decide +kernel), by decide +kernel⟩,
    ⟨due_of (by decide +kernel), by decide +kernel⟩⟩

/-- A table command of a kind, at its first phase. -/
def tEmbEntry (kind : EmbKind) : EmbCmd :=
  newEmb kind (tCmd tQ (tBlockPacket 0x19 1 0 0 192)) tCloseBlock (fit 192 tBag) true
/-- The module with that command in progress on table 1. -/
def tEmbRun (kind : EmbKind) : State := onEmb (fun e => { e with cmds := [tEmbEntry kind] }) (tEmb 1)

/-- A lookup before and after its jobs, an update with and without room in the ledger, a close that may start, and one that is done. -/
theorem test_meets_tableSettles :
    let begun : EmbKind → EmbCmd := fun kind => { tEmbEntry kind with started := true }
    let d := (tTab 1).desc
    (getTab (tEmbEntry .pool).handle (tEmbRun .pool) = some (tTab 1) ∧ (tEmbEntry .pool).awaits = [] ∧
      (tEmbEntry .pool).started = false) ∧
    (begun .update).kind = .update ∧ (ledgerWith (tTab 1) (contributions d (begun .update))).isSome = true ∧
    (let t := { tTab 1 with desc := { d with ledgerRows := 0 } }
     ledgerWith t (contributions t.desc (begun .update)) = none) ∧
    (let e := begun .close
     let s := onEmb (fun x => { x with cmds := [e] }) (tEmb 1)
     getEmb e.ref s = some e ∧ getTab e.handle s = some (tTab 1) ∧ e.kind = .close ∧ e.phase = .waiting ∧ e.awaits = [] ∧
      e.started = true ∧ e.jobs = [] ∧ stepBusy e s = false ∧ stepRule (tTab 1) e.step = .go ∧
      (ledgerWith (tTab 1) (contributions d e)).isSome = true) ∧
    (tEmbEntry .close).bad = none ∧ (tEmbEntry .close).shardLost = false := by decide +kernel

/-- Rows that jobs reach: a row with gradients in the ledger at the commit of a close, and copies that come for an INSTALL and a
REFRESH. -/
theorem test_meets_tableRows :
    tget? { tTab 1 with ledger := [(0, [])] }.ledger 0 = some [] ∧ { tEmbEntry .close with phase := .commit }.phase = .commit ∧
    (∀ kind ∈ [EmbKind.install, .refresh], let e := { tEmbEntry kind with copies := [(0, zeros 64)], started := true }
      tget? e.copies 0 = some (zeros 64) ∧ e.kind = kind) ∧
    (tget? { tTab 1 with copies := [(0, zeros 64)] }.copies 0).isSome = true ∧
    getTab 1 (onTab 1 (fun t => { t with copies := [(0, zeros 64)] }) (tEmb 1)) =
      some { tTab 1 with copies := [(0, zeros 64)] } := by decide +kernel

/-- EMB_REPLICA_REFRESH with each OP, due with its checks passed. -/
theorem test_meets_replica :
    let k := fun op => tEmbCmd 0x1A 0 8 (tReplica op)
    let s := fun op => withCmds [k op] (tEmb 1)
    let d := tIn none (some (zeros 8))
    (Due 0x1A (fun ps => opIs 0 ps || 2 < field ps 0 1) (k 0).ref d (k 0) (tReplica 0) (zeros 8) (s 0) ∧
      replicaCheck (k 0) (tReplica 0) (zeros 8) (s 0) = .go) ∧
    (Due 0x1A (opIs 1) (k 1).ref d (k 1) (tReplica 1) (zeros 8) (s 1) ∧ replicaCheck (k 1) (tReplica 1) (zeros 8) (s 1) = .go) ∧
    (Due 0x1A (opIs 2) (k 2).ref d (k 2) (tReplica 2) (zeros 8) (s 2) ∧ replicaCheck (k 2) (tReplica 2) (zeros 8) (s 2) = .go) :=
  ⟨⟨due_of (by decide +kernel), by decide +kernel⟩, ⟨due_of (by decide +kernel), by decide +kernel⟩,
    ⟨due_of (by decide +kernel), by decide +kernel⟩⟩

/-- A composition of a kind whose handle is 1, this node (0) in slot 0 and node 5 in slot 1, both slots owned as given. -/
def tComp (kind : Nat) (slot : SlotState) : Comp where
  kind := kind
  handle := 1
  part := 0
  epoch := 4
  members := [(0, 0), (5, 0)]
  prev := none
  windowEnd := none
  drainUs := 0
  treqUs := 0
  rxbufMib := 16
  lost := []
  shorts := []
  slots := [(0, { slotReset 0 with state := slot, peer := 5 })]
  consumed := []
  nextToken := 1
  sweptAt := 0
/-- A message of a kind from node 5, number 3, to slot 0 of composition 2. -/
def tMsg (kind seq : Nat) (body : List Byte) : Msg :=
  { mkMsg 0 0 kind 2 4 0 seq body with src := 5, msgId := 3, reqId := 9 }
/-- The module with that composition and these messages received. -/
def tFab (kind : Nat) (slot : SlotState) (ms : List Msg) (s : State) : State :=
  onFab (fun x => { x with comps := [(2, tComp kind slot)], inbox := ms }) s

/-- A request this node serves, its hypotheses gathered. -/
theorem serves_of {kind compKind src msg : Nat} {m : Msg} {c : Comp} {s : State}
    (h : (inboxMsg kind src msg s = some m ∧ (fabricDup m (takeMsg m s)).2 = true) ∧ getComp m.comp (noted m s) = some c ∧
      c.kind = compKind ∧ epochGate c m.epoch (noted m s) = .serve c.members ∧ (getSlot c m.slot).state = .owned) :
    Serves kind compKind src msg m c s := ⟨h.1.1, h.1.2, h.2.1, h.2.2.1, ⟨_, h.2.2.2.1⟩, h.2.2.2.2⟩

/-- The messages of a table of two shards, each at a step that its clauses ask. -/
theorem test_meets_tableMessages :
    let c := tComp 1 .owned
    let s := fun m => tFab 1 .owned [m] (tEmb 2)
    (∀ m ∈ [tMsg 0x08 0 (zeros 8), tMsg 0x08 3 (zeros 8), tMsg 0x08 4 (zeros 8), tMsg 0x08 2 (zeros 8)],
      Serves 0x08 1 5 3 m c (s m) ∧ getTab 1 (unholdMsg m (noted m (s m))) = some (tTab 2) ∧
        pastCommit 1 (unholdMsg m (noted m (s m))) = false) ∧
    (∀ m ∈ [tMsg 0x0A 2 (zeros 72), tMsg 0x0A 3 (zeros 72)], Serves 0x0A 1 5 3 m c (s m) ∧
      (tTab 2).setsDone.contains (setKey m.seq (shardOfNode c m.src)) = false) ∧
    (∀ m ∈ [tMsg 0x0B 2 (zeros 72), tMsg 0x0B 3 (zeros 72)], Serves 0x0B 1 5 3 m c (s m) ∧
      (tTab 2).refreshed.contains (setKey m.seq (shardOfNode c m.src)) = false) ∧
    (∀ m ∈ [tMsg 0x0C 0 (leBytes 8 0 ++ zeros 8), tMsg 0x0C 0 (leBytes 8 1 ++ zeros 8), tMsg 0x0C 0 (leBytes 8 2 ++ zeros 8)],
      Serves 0x0C 1 5 3 m c (s m)) := by
  refine ⟨?_, ?_, ?_, ?_⟩
  · simp only [List.forall_mem_cons]
    exact ⟨⟨serves_of (by decide +kernel), by decide +kernel⟩, ⟨serves_of (by decide +kernel), by decide +kernel⟩,
      ⟨serves_of (by decide +kernel), by decide +kernel⟩, ⟨serves_of (by decide +kernel), by decide +kernel⟩, by simp⟩
  · simp only [List.forall_mem_cons]
    exact ⟨⟨serves_of (by decide +kernel), by decide +kernel⟩, ⟨serves_of (by decide +kernel), by decide +kernel⟩, by simp⟩
  · simp only [List.forall_mem_cons]
    exact ⟨⟨serves_of (by decide +kernel), by decide +kernel⟩, ⟨serves_of (by decide +kernel), by decide +kernel⟩, by simp⟩
  · simp only [List.forall_mem_cons]
    exact ⟨serves_of (by decide +kernel), serves_of (by decide +kernel), serves_of (by decide +kernel), by simp⟩

/-- A request record of a command that waits for shard 1. -/
def tReq (kind : Nat) (w : ReqFor) : Req :=
  { id := 9, part := 0, msg := { mkMsg 5 0 kind 2 4 1 3 [] with reqId := 9, msgId := 8 }, waiter := w, rest := [], resent := 0, at0 := 0, treq := 2000 }
/-- The module with that record, an answer to it, and the command in progress. -/
def tAnswered (kind ans : Nat) (e : EmbCmd) : State :=
  onFab (fun x => { x with reqs := [tReq kind (.command e.ref)] })
    (onEmb (fun x => { x with cmds := [{ e with awaits := [1] }] }) (tFab 1 .owned [tMsg ans 3 (zeros 72)] (tEmb 2)))

/-- Rows and grants that come back, for a lookup of a step, one of STEP 0, an INSTALL and a DROP. -/
theorem test_meets_tableAnswers :
    (∀ x ∈ [(0x08, 0x09, tEmbEntry .pool), (0x08, 0x09, { tEmbEntry .pool with step := 0 }), (0x0C, 0x0D, tEmbEntry .install),
        (0x0C, 0x0D, tEmbEntry .drop)],
      let m := tMsg x.2.1 3 (zeros 72)
      let r := tReq x.1 (.command x.2.2.ref)
      let s := tAnswered x.1 x.2.1 x.2.2
      Answers x.2.1 5 3 r m s ∧ getEmb x.2.2.ref (dropReq r.id (takeMsg m s)) = some { x.2.2 with awaits := [1] } ∧
        m.status = stOk) := by
  simp only [List.forall_mem_cons]
  exact ⟨⟨⟨by decide +kernel, by decide +kernel⟩, by decide +kernel⟩, ⟨⟨by decide +kernel, by decide +kernel⟩, by decide +kernel⟩,
    ⟨⟨by decide +kernel, by decide +kernel⟩, by decide +kernel⟩, ⟨⟨by decide +kernel, by decide +kernel⟩, by decide +kernel⟩, by simp⟩

/-! Partitions. -/

/-- A PART_CONFIG of PF A's control queue. -/
def tPc (rlen : Nat) : Cmd :=
  let p := tBlockPacket 0x30 0 0 rlen 0
  cmdOf tPf (p.take 48 ++ leBytes 4 192 ++ p.drop 52) 0
/-- Its block: OP, PARTITION, HANDLE, SUB and the body. -/
def tPcPs (op part handle sub : Nat) (body : List Byte) : List Byte :=
  fit 64 (leBytes 1 op ++ leBytes 1 part ++ leBytes 2 handle ++ leBytes 1 sub) ++ fit 128 body
/-- An index with as many cache frames as R73 asks. -/
def tWide : Index := { tIndex with desc := { tIndex.desc with cacheFrames := 131072, upperRecords := 64 } }
/-- Partition 1 IDLE on port A, with two tiles and two stalls, and in partition 0 a region, an index and a table. -/
def tCfg : State :=
  onPart 1 (fun x => { x with state := .idle, units := { tiles := 12, walkers := 12, stalls := 12 }, shares := tPart.shares })
    (onPtn (fun p => { p with regions := [(5, { part := 0, pinned := false, stall := 0, row := 0, bytes := 262144, mem := [] })] })
      (onEmb (fun e => { e with tables := [(2, { tTab 1 with desc := { (tTab 1).desc with part := 0 } })] })
        (onMed (fun m => { m with state := .ready, format := some { logicalPages := 65536, width := 2, journalBlocks := 32 } })
          (onPart 0 (fun x => { x with shares := { tPart.shares with dramMib := 16384 } }) (onSrch (fun x => { x with indexes := [(1, tWide)] }) tS)))))
/-- SHARES of a small partition. -/
def tShares : List Byte := leBytes 4 8 ++ leBytes 4 4096 ++ leBytes 1 1 ++ zeros 1 ++ leBytes 2 1 ++ zeros 4 ++ leBytes 8 1048576
/-- The body of a table's descriptor, and of an index's. -/
def tTabBody (handle shards : Nat) : List Byte :=
  leBytes 2 handle ++ zeros 2 ++ leBytes 2 32 ++ leBytes 1 1 ++ zeros 1 ++ leBytes 8 4 ++ zeros 16 ++ leBytes 4 shards ++ zeros 4
    ++ leBytes 4 256 ++ leBytes 4 256 ++ zeros 8 ++ leBytes 4 256
/-- See `tTabBody`. -/
def tIdxBody (handle : Nat) : List Byte := (idxBytes handle tWide).take 32

/-- Every operation and sub-operation of PART_CONFIG due with its checks passed. -/
theorem test_meets_partConfig :
    let k := tPc 128
    let s := withCmds [k] tCfg
    let is : (List Byte → Bool) → List Byte → (Cmd → List Byte → List Byte → State → Verdict) → Prop := fun form ps check =>
      Due 0x30 form k.ref (tIn (some ps) none) k ps [] s ∧ check k ps [] s = .go
    is (fun ps => pcIs 0 ps || 9 < pcOp ps) (tPcPs 0 2 0 0 tShares) createCheck ∧
    is (pcIs 1) (tPcPs 1 1 0 0 []) (pcCheck [] fun p _ s => firstFail [(partHolds p s, stBusy)]) ∧
    is (pcIs 2) (tPcPs 2 1 0 0 (leBytes 16 0x30)) (pcCheck unitsUsed fun p ps s => grantVerdict p (parseUnits ps) s) ∧
    is (pcIs 3) (tPcPs 3 1 0 0 (leBytes 16 4)) (pcCheck unitsUsed fun p ps s => withdrawVerdict false p (parseUnits ps) s) ∧
    is (pcIs 4) (tPcPs 4 1 0 0 tShares) (pcCheck sharesUsed fun p ps s => sharesVerdict p (parseShares ps) s) ∧
    is (pcIs 5) (tPcPs 5 1 0 0 (zeros 8 ++ leBytes 8 262144)) (pcCheck regionUsed regionCheck) ∧
    is (pcIs 6) (tPcPs 6 0 5 0 []) (fun k ps _ s => pcOwner k ps s) ∧
    is (pcIs 7) (tPcPs 7 1 0 0 []) (pcCheck [] fun p _ s => firstFail [((partQueues p).any (fun q => (getQueue q s).state != .disabled),
      stConfigBusy)]) ∧
    is (fun ps => pcIsSub 8 0 ps || (pcIs 8 ps && 3 < pcSub ps)) (tPcPs 8 0 3 0 (tIdxBody 3)) (pcCheck idxUsed idxCreateCheck) ∧
    is (pcIsSub 8 1) (tPcPs 8 0 1 1 (tIdxBody 1))
      (pcCheck idxUsed fun p ps s => (idxVerdict p ps s).andThen (idxResizeCheck p ps s)) ∧
    is (pcIsSub 8 2) (tPcPs 8 0 1 2 [])
      (pcCheck [] fun p ps s => (idxVerdict p ps s).andThen (firstFail [(idxUsedBy (pcHandle ps) s, stBusy)])) ∧
    is (pcIsSub 8 3) (tPcPs 8 0 1 3 [])
      (fun k ps inp s => (pcCheck [] idxVerdict k ps inp s).andThen (firstFail [(k.resultLen < 128, stBadParam)])) ∧
    is (fun ps => pcIsSub 9 0 ps || (pcIs 9 ps && 3 < pcSub ps)) (tPcPs 9 0 4 0 (tTabBody 4 1))
      (pcCheck tabUsed fun p ps s => firstFail [(tabBad ps (parseTab ps) || (getTab (pcHandle ps) s).isSome, stBadParam),
        (256 ≤ s.emb.tables.length || !tabFits p (pcHandle ps) (newTab (parseTab ps) s) s, stNoResource)]) ∧
    is (pcIsSub 9 1) (tPcPs 9 0 2 1 (tTabBody 2 1))
      (pcCheck tabUsed fun p ps s => (tabVerdict p ps s).andThen (tabResizeCheck p ps s)) ∧
    is (pcIsSub 9 2) (tPcPs 9 0 2 2 [])
      (pcCheck [] fun p ps s => (tabVerdict p ps s).andThen (firstFail [(tabUsedBy (pcHandle ps) s, stBusy)])) ∧
    is (pcIsSub 9 3) (tPcPs 9 0 2 3 [])
      (fun k ps inp s => (pcCheck [] tabVerdict k ps inp s).andThen (firstFail [(k.resultLen < 128, stBadParam)])) := by
  refine ⟨?_, ?_, ?_, ?_, ?_, ?_, ?_, ?_, ?_, ?_, ?_, ?_, ?_, ?_, ?_, ?_⟩ <;>
    exact ⟨due_of (by decide +kernel), by decide +kernel⟩

/-- What these find: a free region handle, the region, room for the runs, the index and the table. -/
theorem test_meets_partConfig_finds :
    let k := tPc 128
    let t := running k.ref (withCmds [k] tCfg)
    newRegionHandle t = some 1 ∧ (getRegion 5 tCfg).isSome = true ∧ (getRegion 5 tCfg).any (·.part == 0) = true ∧ regionWindowed 5 tCfg = false ∧
    pcBlockBad k (tPcPs 6 0 5 0 []) [] = false ∧ placeRuns (parseIdx (tPcPs 8 0 3 0 (tIdxBody 3))) t = some (2, 3) ∧
    getIndex 1 t = some tWide ∧ (getTab 2 t).isSome = true := by decide +kernel

/-- A CTX_CREATE of a queue: context 1 in gang 3 with 1,000 µs, or the end of context 0. -/
def tCtxPs (op n : Nat) : List Byte :=
  fit 24 (leBytes 1 op ++ leBytes 1 n ++ leBytes 1 0 ++ (if op = 0 then leBytes 1 3 ++ leBytes 4 1000 else zeros 5))
/-- A context of another gang, which does not run. -/
def tTwo (s : State) : State := onPart 0 (fun x => { x with ctxs := tput x.ctxs 1 { gang := 3, sliceUs := 50, parked := false } }) s

/-- CTX_CREATE in both forms, and PTN_CTX written. -/
theorem test_meets_contexts :
    (let ps := tCtxPs 0 1
     let k := tCmd tPf (tPacket 0x31 0 0 0 0 ps)
     let s := withCmds [k] tS
     ctxHead k ps s = .go ∧ Due 0x31 (fun ps => !opIs 1 ps) k.ref (tIn none none) k ps [] s ∧ ctxVerdict 0 1 3 1000 s = .go) ∧
    (let ps := tCtxPs 1 1
     let k := tCmd tPf (tPacket 0x31 0 0 0 0 ps)
     let s := withCmds [k] (tTwo tS)
     ctxHead k ps s = .go ∧ Due 0x31 (opIs 1) k.ref (tIn none none) k ps [] s ∧ ctxDestroyVerdict 0 1 s = .go) ∧
    (holdsPage tFn 0 = true ∧ Reaches tFn (ptnPage 0 + 0x40) tS ∧ tget? (getPtn 0 tS).ctxs 0 ≠ none ∧
      tget? (getPtn 0 tS).ctxs 1 = none ∧ Reaches tFn (ptnPage 0 + 0x44) tS) ∧
    (holdsPage tVf 0 = true ∧ Reaches tVf (ptnPage 0 + 4) tS ∧ (getPtn 0 tS).state = .running ∧ (getPtn 0 tS).substWait = false ∧
      (getPtn 1 tCfg).state = .idle ∧ Reaches tFn (ptnPage 1 + 4) tCfg) :=
  ⟨⟨by decide +kernel, due_of (by decide +kernel), by decide +kernel⟩, ⟨by decide +kernel, due_of (by decide +kernel), by decide +kernel⟩,
    ⟨by decide +kernel, reaches_of (by decide +kernel), by decide +kernel, by decide +kernel, reaches_of (by decide +kernel)⟩,
    ⟨by decide +kernel, reaches_of (by decide +kernel), by decide +kernel, by decide +kernel, by decide +kernel,
      reaches_of (by decide +kernel)⟩⟩

/-- A command of context `n` that makes it runnable. -/
def tOfCtx (n : Nat) : Cmd := tCmd { scope := .part 0, q := n } (tPacket 1 1 0 64 128 [])

/-- The one ready gang at the end of its slice; a gang with nothing to do; another gang ready; an IDLE partition with a ready gang; a
stop posted and the slice over. -/
theorem test_meets_gangs :
    (let t := atTime 10 (withCmds [tOfCtx 0] tS)
     (getPtn 0 t).state = .running ∧ (getPtn 0 t).stop = none ∧ (getPtn 0 t).sliceEnd ≤ timeUs t ∧ gangReady 0 (getPtn 0 t).gang t = true ∧
      nextGang 0 (getPtn 0 t).gang t = some (getPtn 0 t).gang ∧ (getPtn 0 t).staged = []) ∧
    (let t := atTime 10 tS
     gangReady 0 (getPtn 0 t).gang t = false) ∧
    (let t := atTime 10 (withCmds [tOfCtx 0, tOfCtx 1] (tTwo tS))
     gangReady 0 (getPtn 0 t).gang t = true ∧ (getPtn 0 t).sliceEnd ≤ timeUs t + 5 ∧
      nextGang 0 (getPtn 0 t).gang t ≠ some (getPtn 0 t).gang) ∧
    (let t := atTime 10 (onPart 0 (fun x => { x with state := .idle }) (withCmds [tOfCtx 0] tS))
     (getPtn 0 t).state = .idle ∧ nextGang 0 (getPtn 0 t).gang t = some 0) ∧
    (let t := atTime 10 (onPart 0 (fun x => { x with stop := some 0 }) tS)
     (getPtn 0 t).state = .running ∧ (getPtn 0 t).stop ≠ none ∧ (getPtn 0 t).sliceEnd ≤ timeUs t ∧
      jobsStopped 0 (gangCtxs 0 (getPtn 0 t).gang t) t = true ∧ tilesStopped 0 (gangCtxs 0 (getPtn 0 t).gang t) t = true) ∧
    (getPtn 0 (onPart 0 (fun x => { x with state := .quiesced }) tS)).state = .quiesced := by decide +kernel

/-! The fabric. -/

/-- The module with lane 0 changed from its reset by `f`. -/
def tLane (f : Lane → Lane) : State := onLane 0 f tS
/-- A frame of one cell from node 5 to node `dst`, received on lane 0. -/
def tFrame (dst hops : Nat) : Frame :=
  { cls := 0, dst := dst, src := 5, msgId := 3, offset := 0, hops := hops, dpart := 0, payload := zeros 64, part := 64, at0 := 0,
    refund := none }
/-- A cell sent and not acknowledged. -/
def tSent (sends : Nat) : Sent :=
  { lseq := 0, cell := (frameCells 5 (tFrame 5 1)).headD (readCell []), frame := tFrame 5 1, sends := sends, sentAt := 0, firstNak := none }
/-- Lane 0 UP with this changed. -/
def tUp (f : Lane → Lane) : State := tLane fun x => f { x with enable := true, state := .up, peer := 5 }

/-- XQ_LCTRL of lane 0 written while it is DISABLED and while it is enabled; the last lane is 35. -/
theorem test_meets_laneControl :
    Reaches tFn 0x300100 tS ∧ (getLane 0 tS).enable = false ∧ Reaches tFn (0x300100 + 4 * 35) tS ∧
    (let s := tUp id
     let x := getLane 0 s
     Reaches tFn 0x300100 s ∧ x.enable = true ∧ x.test = 0 ∧ x.txInv = false ∧ x.rxInv = false ∧
      bit (0x80000000#32).toNat 31 = true ∧ bit (0#32).toNat 31 = false ∧ bits (0x80000000#32).toNat 30 29 = x.test ∧
      bit (0x90000000#32).toNat 28 ≠ x.txInv) :=
  ⟨reaches_of (by decide +kernel), by decide +kernel, reaches_of (by decide +kernel), reaches_of (by decide +kernel), by decide +kernel⟩

/-- Lane 0 testing, training, DOWN and UP, with what each clause asks. -/
theorem test_meets_laneStates :
    (getLane 0 (tLane fun x => { x with test := 1 })).test = 1 ∧
    (let x := getLane 0 (tLane fun x => { x with enable := true, state := .training })
     x.enable = true ∧ x.state = .training) ∧
    (getLane 0 (tUp id)).state = .up ∧
    (getLane 0 (atTime 9 (tLane fun x => { x with state := .down }))).state = .down ∧
    (let t := atTime 500000 (tLane fun x => { x with state := .training })
     (getLane 0 t).state = .training ∧ (getLane 0 t).trainAt + 500000 ≤ timeUs t) ∧
    (let t := atTime 4 (tUp fun x => { x with replay := [tSent 1] })
     (getLane 0 t).state = .up ∧ (getLane 0 t).replay ≠ [] ∧ (getLane 0 t).ackAt + 4 ≤ timeUs t) ∧
    (let t := atTime 4 (tUp fun x => { x with replay := [tSent 9] })
     budgetOver (getLane 0 t) (timeUs t) = true) ∧
    (let t := atTime 100 (tUp fun x => { x with txq := [tFrame 7 8] })
     (getLane 0 t).txq.find? (fun f => f.part == 64 && f.src != t.nodeId && f.at0 + 100 ≤ timeUs t
      && !frameEligible (getLane 0 t) f t) = some (tFrame 7 8)) := by decide +kernel

/-- Cell times: a replay, a full replay buffer, an idle lane, a frame that starts; a bad cell and a good one; frames received. -/
theorem test_meets_cells :
    (let x := getLane 0 (tUp fun x => { x with replay := [tSent 1], again := some 0 })
     x.test ≠ 1 ∧ x.again = some 0 ∧ x.replay[0]? = some (tSent 1)) ∧
    256 ≤ (getLane 0 (tUp fun x => { x with replay := List.replicate 256 (tSent 1) })).replay.length ∧
    (getLane 0 (chooseFrame 0 (tUp id))).cur = [] ∧
    (getLane 0 (chooseFrame 0 (tUp fun x => { x with txq := [{ tFrame 5 1 with cls := 3 }], credits := [(263, 4)] }))).cur ≠ [] ∧
    cellBad (getLane 0 (tUp id)).expSeq true [] = true ∧
    (let s := tUp fun x => { x with rxDone := [tFrame 0 1] }
     (getLane 0 s).rxDone.find? (fun f => !frameWaits f s) = some (tFrame 0 1) ∧ (tFrame 0 1).dst = s.nodeId ∧
      (tFrame 7 1).dst ≠ s.nodeId ∧ (tFrame 7 1).hops ≤ 1 ∧
      routeValid 7 (onFab (fun x => { x with routes := [(7, 2 ^ 63)] }) s) = true) := by decide +kernel

/-- The first and the second half of an IDLE cell with its CCRC written out. -/
def tIdle : List Byte × List Byte := (zeros 6 ++ leBytes 1 0xFF ++ zeros 21 ++ leBytes 4 3267409731 ++ zeros 96, zeros 128)

/-- It is a good cell; its check is computed half by half. -/
theorem test_meets_goodCell : cellBad (getLane 0 (tUp id)).expSeq true (tIdle.1 ++ tIdle.2) = false := by
  have h : crc32c (blank4 28 tIdle.1 ++ tIdle.2) = 3267409731 := by
    rw [crc32c, List.foldl_append,
      show (blank4 28 tIdle.1).foldl (fun c b => crcBits 8 (Nat.xor c b.toNat)) 0xFFFFFFFF = 1535788878 from by decide +kernel]
    decide +kernel
  have h2 : blank4 28 (tIdle.1 ++ tIdle.2) = blank4 28 tIdle.1 ++ tIdle.2 := by decide +kernel
  have h3 : field (tIdle.1 ++ tIdle.2) 28 4 = 3267409731 := by decide +kernel
  have h4 : checkOk 28 (tIdle.1 ++ tIdle.2) = true := by simp [checkOk, h, h2, h3]
  have h5 : (tIdle.1 ++ tIdle.2).length = 256 ∧ field (tIdle.1 ++ tIdle.2) 0 1 = 0 := by decide +kernel
  simp [cellBad, h4, h5]

/-- The body of a SEARCH_SUB of a search that reads no filter. -/
def tSubBody : List Byte := (tSearch 1 0).packet ++ zeros 128
/-- A message of a kind for command 5 of a composed search, of a model run, of an embedding. -/
def tOf (kind : Nat) (slot : SlotState) (m : Msg) : State := tFab kind slot [m] tSI

/-- A sub-search that may run, a block, and answers of a search, a block and a set. -/
theorem test_meets_requests :
    (let m := tMsg 0x01 0 tSubBody
     let c := tComp 0 .owned
     let s := tOf 0 .owned m
     Serves 0x01 0 5 3 m c s ∧
      (let t := unholdMsg m (noted m s)
       let k := subCmd m c (2 ^ 32 + t.fab.nextRemote) (timeUs t)
       let t := onHost (fun h => { h with cmds := h.cmds ++ [k] }) (onFab (fun x => { x with
        nextRemote := x.nextRemote + 1, subs := x.subs ++ [{ ref := k.ref, msg := m }] }) t)
       k.opcode ∈ [1, 2, 3] ∧ searchCheck k.opcode k (k.packet.drop 40) (m.body.drop 64) t = .go)) ∧
    (let m := tMsg 0x10 7 (zeros 64)
     let c := tComp 2 .owned
     Serves 0x10 2 5 3 m c (tOf 2 .owned m) ∧ c.consumed.contains m.seq = false ∧
      getBlock m.comp m.slot m.seq (respondSt m stOk (unholdMsg m (noted m (tOf 2 .owned m)))) = none ∧
      Serves 0x10 2 5 3 m { c with consumed := [7] } (onComp 2 (fun c => { c with consumed := [7] }) (tOf 2 .owned m))) ∧
    (∀ x ∈ [(0x01, 0x02, ([] : List (List Byte))), (0x10, 0x11, []), (0x0A, 0x11, []), (0x0A, 0x11, [zeros 64])],
      let m := tMsg x.2.1 0 (zeros 64)
      let r := { tReq x.1 (.command { scope := .part 0, rid := 7 }) with rest := x.2.2 }
      Answers x.2.1 5 3 r m (onFab (fun f => { f with reqs := [r] }) (tOf 0 .owned m)) ∧ m.status = stOk) := by
  refine ⟨⟨serves_of (by decide +kernel), by decide +kernel⟩,
    ⟨serves_of (by decide +kernel), by decide +kernel, by decide +kernel, serves_of (by decide +kernel)⟩, ?_⟩
  simp only [List.forall_mem_cons]
  exact ⟨⟨⟨by decide +kernel, by decide +kernel⟩, by decide +kernel⟩, ⟨⟨by decide +kernel, by decide +kernel⟩, by decide +kernel⟩,
    ⟨⟨by decide +kernel, by decide +kernel⟩, by decide +kernel⟩, ⟨⟨by decide +kernel, by decide +kernel⟩, by decide +kernel⟩, by simp⟩

/-- CTRL messages received; a sub-search that has been admitted and one that has not; a request and a probe that are overdue. -/
theorem test_meets_control :
    (∀ kind ∈ [0x28, 0x29, 0x2A, 0x2B, 0x2C], inboxMsg kind 5 3 (tOf 0 .owned (tMsg kind 0 (zeros 8))) = some (tMsg kind 0 (zeros 8))) ∧
    (let m := tMsg 0x2C 0 []
     let x : SubSearch := { ref := { scope := .part 0, rid := 2 ^ 32 }, msg := { tMsg 0x01 0 [] with reqId := 9 } }
     let u := onFab (fun f => { f with subs := [x] }) (takeMsg m (tOf 0 .owned m))
     let mine : Msg → Bool := fun y => y.src == m.src && y.reqId == m.reqId
     u.fab.subs.find? (fun x => mine x.msg) = some x ∧ (getQuery x.ref u).any (·.admittedIn) = false ∧
      (takeMsg m (tOf 0 .owned m)).fab.subs.find? (fun x => mine x.msg) = none) ∧
    (let r := tReq 0x08 (.command { scope := .part 0, rid := 7 })
     let t := atTime 2000 (onFab (fun f => { f with reqs := [r], probes := [{ node := 5, at0 := 0, treq := 2000 }] }) tS)
     t.fab.reqs.find? (·.id == 9) = some r ∧ r.at0 + r.treq ≤ timeUs t ∧
      t.fab.probes.find? (·.node == 5) = some { node := 5, at0 := 0, treq := 2000 }) := by decide +kernel

/-- COMPOSE and HANDOFF parameters. -/
def tComposePs (op epoch members : Nat) : List Byte :=
  leBytes 1 op ++ leBytes 1 0 ++ leBytes 2 1 ++ zeros 4 ++ leBytes 4 2 ++ leBytes 4 epoch ++ leBytes 4 members ++ zeros 44
/-- The command with that block. -/
def tCompose (rlen dlen : Nat) : Cmd := tCmd tPf (tBlockPacket 0x38 0 0 rlen dlen)
/-- The module with composition 2 of index 1, this node owning slot 0, and node 5 reachable; partition 0 has a fabric share. -/
def tJoined (slot : SlotState) : State := onFab (fun x => { x with routes := [(5, 2 ^ 63)] }) (tFab 0 slot [] tS)
/-- HANDOFF of slot 0 to node 5. -/
def tHandoffPs : List Byte := fit 24 (leBytes 4 2 ++ leBytes 4 4 ++ leBytes 4 0 ++ leBytes 2 5 ++ zeros 2 ++ leBytes 4 77)

/-- COMPOSE in its three forms and HANDOFF, due with their checks passed. -/
theorem test_meets_compose :
    (let k := tCompose 0 8
     let inp := leBytes 4 0 ++ leBytes 4 5
     let s := withCmds [k] (tJoined .owned)
     Due 0x38 (fun ps => opIs 0 ps || 2 < field ps 0 1) k.ref (tIn (some (tComposePs 0 5 2)) (some inp)) k (tComposePs 0 5 2) inp s ∧
      installCheck k (tComposePs 0 5 2) inp s = .go) ∧
    (let k := tCompose 128 0
     let s := withCmds [k] (tJoined .owned)
     getComp 2 s = some (tComp 0 .owned) ∧ composeBlockBad k (tComposePs 1 0 1) = false ∧ k.dataLen = 0 ∧
      Due 0x38 (opIs 1) k.ref (tIn (some (tComposePs 1 0 1)) none) k (tComposePs 1 0 1) [] s ∧
      composeBlockBad k (tComposePs 2 0 1) = false ∧
      Due 0x38 (opIs 2) k.ref (tIn (some (tComposePs 2 0 1)) none) k (tComposePs 2 0 1) [] s ∧ readLen 2 s ≤ k.resultLen) ∧
    (let k := tCmd tPf (tPacket 0x39 0 0 0 0 tHandoffPs)
     let s := withCmds [k] (onComp 2 (fun c => { c with members := [(5, 0), (0, 0)] }) (tJoined .owned))
     Due 0x39 (fun _ => true) k.ref (tIn none none) k tHandoffPs [] s ∧ handoffCheck k tHandoffPs [] s = .go) :=
  ⟨⟨due_of (by decide +kernel), by decide +kernel⟩, ⟨by decide +kernel, by decide +kernel, by decide +kernel, due_of (by decide +kernel),
    by decide +kernel, due_of (by decide +kernel), by decide +kernel⟩, ⟨due_of (by decide +kernel), by decide +kernel⟩⟩

/-- Composition 2 with its slot 0 changed. -/
def tSlot (f : Slot → Slot) : Comp := { tComp 0 .owned with slots := [(0, f { slotReset 0 with state := .owned, peer := 5 })] }
/-- The module with it. -/
def tHas (c : Comp) (ms : List Msg) : State := onFab (fun x => { x with comps := [(2, c)], inbox := ms }) tS

/-- A drain window over, a handoff without ACCEPT, a query due, a sweep due, a command held too long. -/
theorem test_meets_slotTimes :
    (let c := { tComp 0 .none with windowEnd := some 2000 }
     let t := atTime 2000 (tHas c [])
     getComp 2 t = some c ∧ c.windowEnd = some 2000 ∧ 2000 ≤ timeUs t) ∧
    (let c := tSlot fun x => { x with state := .offering, token := 77, query := some 5 }
     let t := atTime 8000 (tHas c [])
     getComp 2 t = some c ∧ (getSlot c 0).token ≠ 0 ∧ (getSlot c 0).at0 + 4 * treqOf 2 t ≤ timeUs t ∧ (getSlot c 0).state = .offering ∧
      (getSlot c 0).query = some 5 ∧ (getSlot c 0).queryAt + treqOf 2 t ≤ timeUs t ∧ c.sweptAt + 4 * treqOf 2 t ≤ timeUs t) ∧
    (let k := tCmd tQ (tPacket 1 1 9 64 128 [])
     let t := atTime 2000 (withCmds [k] (tHas (tComp 0 .owned) []))
     findCmd k.ref t = some k ∧ kindOf k.opcode = some 0 ∧ compFor 0 k.handle t = some (2, tComp 0 .owned) ∧ k.phase = .waiting ∧
      (tComp 0 .owned).epoch < k.epoch ∧ k.fetched + drainOf (tComp 0 .owned) t ≤ timeUs t) := by decide +kernel

/-- OFFER, STATE, COMMIT, ACCEPT and the two queries received for a slot in the state each asks. -/
theorem test_meets_handoff :
    (let m := tMsg 0x20 77 (leBytes 4 0)
     let c := tSlot fun x => { x with state := .none }
     let s := tHas c [m]
     inboxMsg 0x20 5 3 s = some m ∧ getComp 2 s = some c ∧ m.epoch ≤ c.epoch ∧ (getSlot c 0).rxToken ≠ m.seq ∧
      (getSlot c 0).lastToken ≠ m.seq ∧ m.seq < 0x80000000 ∧ (getSlot c 0).state = .none) ∧
    (let c := tSlot fun x => { x with state := .receiving, rxToken := 77, announced := 1 }
     (let m := tMsg 0x21 77 (zeros 24)
      let s := tHas c [m]
      inboxMsg 0x21 5 3 s = some m ∧ (fabricDup m (takeMsg m s)).2 = true ∧ getComp 2 (noted m s) = some c) ∧
     (let m := tMsg 0x22 77 []
      inboxMsg 0x22 5 3 (tHas c [m]) = some m ∧ getComp 2 (tHas c [m]) = some c) ∧
     (getSlot c 0).rxToken = 77 ∧ (getSlot c 0).lastToken ≠ 77) ∧
    (let c := tSlot fun x => { x with state := .offering, token := 77 }
     let m := tMsg 0x23 77 []
     getComp 2 (takeMsg m (tHas c [m])) = some c ∧ inboxMsg 0x23 5 3 (tHas c [m]) = some m ∧ (getSlot c 0).token = m.seq ∧
      (getSlot c 0).peer = m.src ∧ (getSlot c 0).state = .offering ∧ m.status = stOk ∧ { m with status := stRedirect }.status ≠ stOk) ∧
    (∀ kind ∈ [0x24, 0x25], inboxMsg kind 5 3 (tHas (tComp 0 .owned) [tMsg kind 0 (zeros 1)]) = some (tMsg kind 0 (zeros 1))) := by
  decide +kernel

/-- NODE_ID written with every lane DISABLED and not; routing entries, the last among them, with a lane that exists and one above 35. -/
theorem test_meets_nodeRegisters :
    Reaches tFn 0x300000 tS ∧ bits (3#32).toNat 15 0 ≠ tS.nodeId ∧ (tS.fab.lanes.all fun e => e.2.state == .disabled) = true ∧
    ((tUp id).fab.lanes.all fun e => e.2.state == .disabled) = false ∧ Reaches tFn 0x300000 (tUp id) ∧
    Reaches tFn (0x380000 + 8 * 65535) tS ∧ bit (0x63#64).toNat 6 = true ∧ bits (0x63#64).toNat 5 0 = 35 ∧
    bits (0x64#64).toNat 5 0 = 36 :=
  ⟨reaches_of (by decide +kernel), by decide +kernel, by decide +kernel, by decide +kernel, reaches_of (by decide +kernel),
    reaches_of (by decide +kernel), by decide +kernel⟩

/-! Traffic management. -/

/-- The module with the traffic manager changed. -/
def tTm (f : TmSt → TmSt) : State := onTm f tS

/-- Tables of policers and shapers in order; the last policer and shaper written, with fields that may and may not be. -/
theorem test_meets_meters :
    keysRise (tTm fun t => { t with policers := [(0, policerReset 0), (191, policerReset 0)] }).tm.policers = true ∧
    keysRise tS.tm.shapers = true ∧ bit (0x80000000#32).toNat 31 = true ∧ Reaches tFn (0x201010 + 0x20 * 191) tS ∧
    polCfgOk polCfgReset = false ∧ polCfgOk { polCfgReset with cbs := 1 } = true ∧ Reaches tFn (0x205008 + 0x10 * 191) tS ∧
    leastBurst 191 ≤ shapeCfgReset.burst ∧ { shapeCfgReset with burst := 511 }.burst < leastBurst 191 ∧ leastBurst 190 = 4864 :=
  ⟨by decide +kernel, by decide +kernel, by decide +kernel, reaches_of (by decide +kernel), by decide +kernel, by decide +kernel,
    reaches_of (by decide +kernel), by decide +kernel, by decide +kernel, by decide +kernel⟩

/-- The ring enabled on 256 entries, partition 0 sampled in every kind, with HEAD as given. -/
def tRing (head : Nat) : State :=
  tTm fun t => { t with ringEnable := true, ringLog2 := 8, kinds := 15, sampleEn := 1, intervalUs := 100, ringHead := head }

/-- A round with room, without, and with nothing to write; ENABLE, and a change of LOG2 while enabled; HEAD up to TAIL and beyond. -/
theorem test_meets_sampling :
    (let t := atTime 100 (tRing 0)
     t.tm.ringEnable = true ∧ t.tm.lastRound + t.tm.intervalUs ≤ timeUs t ∧ (roundEntries t).length = 4 ∧ 4 ≤ sampleRoom t) ∧
    (let t := atTime 100 (tRing 4)
     sampleRoom t < (roundEntries t).length) ∧
    roundEntries (tTm fun t => { t with ringEnable := true }) = [] ∧
    Reaches tFn 0x200018 tS ∧ tS.tm.ringEnable = false ∧ Reaches tFn 0x200018 (tRing 0) ∧
    (8 ≤ bits (0x12000000#32).toNat 29 25 ∧ bits (0x12000000#32).toNat 29 25 ≠ (tRing 0).tm.ringLog2) ∧
    bits (0x10000000#32).toNat 29 25 = (tRing 0).tm.ringLog2 ∧
    (let s := tTm fun t => { t with ringLog2 := 8, ringTail := 3 }
     Reaches tFn 0x200028 s ∧ (3 + 2 ^ 8 - s.tm.ringHead) % 2 ^ 8 ≤ (s.tm.ringTail + 2 ^ 8 - s.tm.ringHead) % 2 ^ 8 ∧
      ¬(4 + 2 ^ 8 - s.tm.ringHead) % 2 ^ 8 ≤ (s.tm.ringTail + 2 ^ 8 - s.tm.ringHead) % 2 ^ 8) :=
  ⟨by decide +kernel, by decide +kernel, by decide +kernel, reaches_of (by decide +kernel), by decide +kernel,
    reaches_of (by decide +kernel), by decide +kernel, by decide +kernel, reaches_of (by decide +kernel), by decide +kernel,
    by decide +kernel⟩

/-! The media. -/

/-- The module with flash READY under a profile and a format of width 8, changed by `f`. -/
def tFlash (f : FlashSt → FlashSt) : State :=
  onMed (fun m => f { m with
    profile := some (tProfile 1 4 8 0), state := .ready, format := some { logicalPages := 64, width := 8, journalBlocks := 64 } }) tS
/-- A media command of PF A. -/
def tMedCmd (op rlen dlen : Nat) (ps : List Byte) : Cmd := tCmd tPf (tPacket op 0 0 rlen dlen ps)
/-- MED_FORMAT of 2^20 logical pages at width 48. -/
def tFormatPs : List Byte := fit 24 (leBytes 4 1048576 ++ leBytes 1 48 ++ leBytes 1 0xA5 ++ leBytes 2 64)
/-- UNFORMATTED flash of 256 blocks a LUN. -/
def tRaw : State := onMed (fun m => { m with profile := some (tProfile 1 256 256 0), state := .unformatted }) tS

/-- The check of that profile, computed over the bytes before its own. -/
theorem test_meets_profile : profileBad (tProfile 1 4 8 540759019) = false := by decide +kernel

/-- Every media command due, on flash in the state it asks. -/
theorem test_meets_mediaCommands :
    (let k := tMedCmd 0x40 0 128 []
     let inp := tProfile 1 4 8 540759019
     Due 0x40 (fun _ => true) k.ref (tIn none (some inp)) k (fit 24 []) inp (withCmds [k] tS) ∧ blockBad k (fit 24 []) = false ∧
      reservedSet [] 0 (fit 24 []) = false ∧ k.dataLen = 128 ∧ tS.med.state = .unconfigured ∧ tRaw.med.state = .unformatted) ∧
    (let k := tMedCmd 0x41 0 0 tFormatPs
     let s := withCmds [k] tRaw
     Due 0x41 (fun _ => true) k.ref (tIn none none) k tFormatPs [] s ∧ blockBad k tFormatPs = false ∧
      reservedSet [(0, 8)] 0 tFormatPs = false ∧ k.dataLen = 0 ∧ formatBad tFormatPs = false ∧ s.srch.indexes = [] ∧
      s.med.held = false ∧ capacityOk 1048576 48 (formatFlash (parseFormat tFormatPs) [] s) = true ∧
      nodeDramOk (formatFlash (parseFormat tFormatPs) [] s) = true) ∧
    (let k := tMedCmd 0x42 0 0 []
     let s := withCmds [k] (tFlash id)
     Due 0x42 (fun _ => true) k.ref (tIn none none) k (fit 24 []) [] s ∧ mediaUp s = true ∧ s.med.state ≠ .mounting) ∧
    (let ps := fit 24 (leBytes 2 47)
     let k := tMedCmd 0x43 0 0 ps
     let s := withCmds [k] (tFlash id)
     Due 0x43 (fun _ => true) k.ref (tIn none none) k ps [] s ∧ reservedSet [(0, 2)] 0 ps = false ∧ field ps 0 2 < lunCount s) ∧
    (let k := tMedCmd 0x44 64 0 []
     Due 0x44 (fun _ => true) k.ref (tIn none none) k (fit 24 []) [] (withCmds [k] tS) ∧ 64 ≤ k.resultLen) :=
  ⟨⟨due_of (by decide +kernel), by decide +kernel⟩, ⟨due_of (by decide +kernel), by decide +kernel⟩,
    ⟨due_of (by decide +kernel), by decide +kernel⟩, ⟨due_of (by decide +kernel), by decide +kernel⟩,
    ⟨due_of (by decide +kernel), by decide +kernel⟩⟩

/-- MOUNTING flash; a flush that is due, with room in the ring and without; a checkpoint due, and one 30 s old. -/
theorem test_meets_journal :
    (let s := tFlash fun m => { m with state := .mounting }
     s.med.state = .mounting ∧ s.board.boot.stage = .ready) ∧
    (let t := atTime 32000 (tFlash id)
     let es := takeBody 524288 t.med.entries
     mediaUp t = true ∧ t.med.writing = none ∧ flushNow t = true ∧ ringFits (makeSegment false (bodyLen es) es t).pages t = true) ∧
    (let seg : Segment := { seq := 0, wseqFlush := 0, isMeta := false, entries := [], streams := [], pages := 100000 }
     let t := atTime 32000 (tFlash fun m => { m with segs := [seg] })
     ringFits (makeSegment false 0 [] t).pages t = false) ∧
    ckptDue (atTime 60000000 (tFlash id)) = true ∧
    (let k : Ckpt := { num := 1, start := 0, toGo := 1, pages := [], beginSeg := 0, sealed := false }
     let t := atTime 30000000 (tFlash fun m => { m with running := some k })
     t.med.running = some k ∧ k.start + 30000000 ≤ timeUs t) := by decide +kernel

/-- The parts of a module whose flash is MOUNTING, and of one whose profile asks for another page than channel 47 answers; a flush that
waits already. -/
theorem test_meets_mount :
    (let s := tFlash fun m => { m with state := .mounting }
     s.med.wpHigh = false ∧ (checkParts [] s).med.state = .mounting ∧ (checkParts [] (tFlash id)).med.state ≠ .mounting) ∧
    (let r : PartReport := { channel := 47, onfi := true, major := 5, minor := 1, page := 8192, spare := 0, lunsPerCe := 1, planes := 1,
                             id := 0, features := true }
     (tFlash id).med.profile = some (tProfile 1 4 8 0) ∧ r.channel < 48 ∧ firstMismatch (tProfile 1 4 8 0) r = some 2) ∧
    (tFlash fun m => { m with flushWaits := true }).med.flushWaits = true ∧ (tFlash id).med.flushWaits = false := by decide +kernel

/-- LUN 8 with these operations and reads. -/
def tLun (ops : List LunOp) (reads : List FRead) : State :=
  onLun 8 (fun l => { l with ops := ops, reads := reads }) (tFlash id)
/-- An operation that runs, or is suspended after eight reads. -/
def tOp (work : OpWork) (suspended : Bool) : LunOp := { work := work, started := true, susp := 0, suspended := suspended, since := 0, reads := 8 }
/-- A read of the first page of LUN 8, which is block 32. -/
def tFRead : FRead := { lpn := 5, ppn := 256, part := 0, who := .crate 1 0, queued := 0, asked := false, begun := false, dropped := false }
/-- The tag of an index page. -/
def tTag : Tag := { kind := 1, handle := 1, lpn := 5, wseq := 1, csn := 1, sb := 0 }

/-- A read in the hub, with an operation that may be suspended for it and without; a read that ends well or ill; a suspended operation
with no reads and with eight done. -/
theorem test_meets_reads :
    (let t := atTime 100 (onMed (fun m => { m with hub := [(0, [tFRead])] }) (tLun [] []))
     let v := atTime 100 (onMed (fun m => { m with hub := [(0, [tFRead])] }) (tLun [tOp (.erase 33) false] []))
     ((getLun 8 t).reads.length < 32 ∧ nextTurn 8 t = some (0, 1) ∧ hubRead 8 0 t = some tFRead ∧ maySuspend (getLun 8 t) t = false) ∧
      nextTurn 8 v = some (0, 1) ∧ hubRead 8 0 v = some tFRead ∧ maySuspend (getLun 8 v) v = true) ∧
    (let b := beginArray 8 (atTime 9 (onMed (fun m => { m with pages := [(256, tTag)] }) (tLun [] [tFRead])))
     let r := { tFRead with begun := true }
     let u := onLun 8 (fun l => { l with reads := l.reads.erase r }) b
     (getLun 8 b).reads.find? (·.begun) = some r ∧ r.part < 64 ∧
      (readResult r 8 { level := some 8, rebuildOk := false, codeword := 0 } u).1 = true ∧
      (readResult r 8 { level := some 9, rebuildOk := false, codeword := 0 } u).1 = false) ∧
    (let t := atTime 9 (tLun [tOp (.erase 33) true] [])
     (getLun 8 t).ops = [tOp (.erase 33) true] ∧ (getLun 8 t).reads = []) ∧
    ((tOp (.erase 33) true).reads = 8 ∧
      ((getLun 8 (atTime 9 (tLun [tOp (.erase 33) true] [tFRead]))).reads.any (·.begun)) = false) := by decide +kernel

/-- Every kind of operation under way. -/
theorem test_meets_flashOps :
    ∀ w ∈ [OpWork.program 256 tTag .index, .segPage, .anchor 1, .erase 33], (getLun 8 (tLun [tOp w false] [])).ops = [tOp w false] := by
  decide +kernel

/-- A LUN that can fail; a stripe set below GC_LOW with a CLOSED superblock, and one at GC_HIGH; wear that is uneven and even. -/
theorem test_meets_wear :
    8 < lunCount (tFlash id) ∧ lunAlive 8 (tFlash id) = true ∧
    (let sup : Super := { set := 1, stream := 0, members := [32, 36], next := 0 }
     let s := tFlash fun m => { m with supers := [(0, sup)], gcLow := 5 }
     mediaUp s = true ∧ 1 < setCount s ∧ freeSupers 1 s < s.med.gcHigh ∧ freeSupers 1 s < s.med.gcLow ∧
      leastBy ((closedSupers s).map fun e => (e.1, (superValid e.1 s).length)) = some 0) ∧
    (let s := tFlash fun m => { m with gcHigh := 4 }
     s.med.gcHigh ≤ freeSupers 1 s) ∧
    (let sup : Super := { set := 1, stream := 0, members := [32, 36], next := 0 }
     let s := tFlash fun m => { m with
       supers := [(0, sup)], blocks := [(32, { state := .closed, erases := 0 }), (36, { state := .closed, erases := 2001 })] }
     eraseMin s + 2000 < eraseMax s ∧ (closedSupers s).any (fun e => e.2.members.any fun b =>
       (getNand b s).erases == eraseMin s && (getNand b s).state != .retired) = true ∧
      leastBy ((closedSupers s).map fun e => (e.1, superWear e.2 s)) = some 0) ∧
    eraseMax (tFlash id) ≤ eraseMin (tFlash id) + 2000 ∧
    (let t := atTime 1000 (tFlash id)
     mediaUp t = true ∧ t.med.coldAt + 1000 ≤ timeUs t ∧ t.med.coldLeft = [] ∧ { t.med with coldLeft := [5] }.coldLeft ≠ []) := by decide +kernel


/-! Criers, gating, errors and the board. -/

/-- `tS` with crier 96 from host A to core 2, as `f` changes it. -/
def tCrier (f : Crier → Crier) : State :=
  onCrier 96 (fun c => f { c with enable := true, sender := 9, receiver := 2 }) tS

/-- A post that is named, to an empty and a full crier, and one that is not; a heartbeat post; TAKE by its receiver and by another;
WITHDRAW likewise; firmware reaches what a core may write. -/
theorem test_meets_criers :
    EndpointReaches (.host .a) (crierOff 96 4) (tCrier id) ∧ EndpointReaches (.core 2) (crierOff 96 0x10) (tCrier id) ∧
    EndpointReaches (.host .a) (crierOff 126 4) tS ∧ EndpointReaches (.host .a) (crierOff 96 0x10) (tCrier id) ∧
    (((getCrier 96 (tCrier id)).sender = endpointCode (.host .a) ∧ (getCrier 96 (tCrier id)).enable = true ∧ (getCrier 96 (tCrier id)).full = false) ∧
      (getCrier 96 (tCrier fun c => { c with full := true })).full = true ∧
      (getCrier 97 tS).sender ≠ endpointCode (.host .a) ∧ (getCrier 96 (tCrier fun c => { c with enable := false })).enable = false) ∧
    ((getCrier 126 tS).sender = endpointCode (.host .a) ∧ (getCrier 126 tS).enable = true ∧ heartbeatPort 126 = some .a ∧
      tS.host.linkUp.contains .a = true) ∧
    ((getCrier 96 (tCrier id)).receiver = endpointCode (.core 2) ∧ (getCrier 96 (tCrier id)).receiver ≠ endpointCode (.host .a) ∧
      (getCrier 96 (tCrier id)).sender ≠ endpointCode (.core 2)) ∧
    (let t := atTime 10000 (tCrier fun c => { c with full := true, timer := some (0, 10000) })
     (getCrier 96 t).timer = some (0, 10000) ∧ (getCrier 96 t).full = true ∧ 0 + 10000 ≤ timeUs t) :=
  ⟨reaches_of (by decide +kernel), rfl, reaches_of (by decide +kernel), reaches_of (by decide +kernel), by decide +kernel,
    by decide +kernel, by decide +kernel, by decide +kernel⟩

/-- MBX_CCFG of a crier of firmware and of a host, enabled and not, with its endpoints changed; of a heartbeat crier by its port and by
the other. -/
theorem test_meets_ccfg :
    EndpointReaches (.core 2) (crierOff 5 0) tS ∧ EndpointReaches (.host .a) (crierOff 96 0) (tCrier id) ∧
    EndpointReaches (.host .a) (crierOff 126 0) tS ∧ EndpointReaches (.host .a) (crierOff 5 0) tS ∧ namesReserved 0x83400064 = false ∧
    (getCrier 5 tS).enable = false ∧ (getCrier 96 (tCrier id)).enable = true ∧ bit 0x83400064 31 = true ∧
    bits 0x83400064 27 24 ≠ (getCrier 96 (tCrier id)).sender ∧ heartbeatPort 126 = some .a ∧ heartbeatPort 127 = some Port.a.other :=
  ⟨rfl, reaches_of (by decide +kernel), reaches_of (by decide +kernel), reaches_of (by decide +kernel), by decide +kernel,
    by decide +kernel, by decide +kernel, by decide +kernel, by decide +kernel, by decide +kernel, by decide +kernel⟩

/-- A selector with nothing to do for 50 µs, one that a search needs, and a gated unit with NO_GATE set. -/
theorem test_meets_gating :
    (let t := atTime 50 tS
     1 < gateTotal .selector ∧ unitAwake .selector 0 t = true ∧ tS.board.pwr.noGate = false ∧ gateCondition .selector 0 t = true ∧
      0 + gateDelay 0 t ≤ timeUs t) ∧
    (let s := withCmds [tCmd tQ (tPacket 1 1 0 64 128 [])] tS
     gateCondition .walker 0 (atTime 50 s) = false) ∧
    (let s := onPwr (fun p => { p with noGate := true }) tS
     unitAwake .selector 1 s = false ∧ s.board.pwr.noGate = true ∧ unitAwake .quadrantNet 0 (setAwake .selector 1 true s) = false) := by
  decide +kernel

/-- A record of a severity, handled or not. -/
def tRec (seq : Nat) (handled : Bool) : Rec := { mkRec 0x12 1 2 (locSram 1 0 0 0 1) with seq := seq, handled := handled }
/-- `tS` with these records in the queue of severity 1. -/
def tErrs (rs : List Rec) : State := onErrQueue 1 (fun q => { q with recs := rs }) tS

/-- A record past MERGE_MS; HEAD moved over one handled record, and over one that is not, beyond what is held, or by the other PF. -/
theorem test_meets_records :
    (let t := atTime 100000 (tErrs [tRec 7 false])
     (getErrQueue 1 t).recs.any (fun r => r.seq == 7 && r.timeFirst + 1000 * t.err.mergeMs ≤ timeUs t) = true) ∧
    (let q := getErrQueue 1 (tErrs [tRec 7 true, tRec 8 false])
     tFn.vf = 0 ∧ tFn.port.num = (tErrs []).err.owner ∧ (1 + 32 - q.head) % 32 = 1 ∧ 1 ≤ q.recs.length ∧
      (∀ r ∈ q.recs.take 1, r.handled = true) ∧ (∃ r ∈ q.recs.take 2, r.handled = false) ∧ q.recs.length < 3) ∧
    (let q := getErrQueue 1 (tErrs (List.replicate 32 (tRec 7 true)))
     q.recs.length = 32 ∧ 0 = q.head) ∧ Port.b.num ≠ tS.err.owner ∧ tVf.vf ≠ 0 := by decide +kernel

/-- A row that the scrub reads, the first of stack 0; a row in a running write set. -/
theorem test_meets_patrol :
    tS.err.scrubH ≠ 0 ∧ inWriteSet (32 * 0 + 0) 0 tS = false ∧
    inWriteSet (32 * 0 + 0) 0 (tSJ (tJob 0) false []) = true := by decide +kernel

/-- A link in service, and a command in flight. -/
theorem test_meets_noc :
    let s := withCmds [tCmd tQ (tPacket 1 1 0 64 128 [])] tS
    s.err.nocOut.contains (3, 15) = false ∧ findCmd { scope := .part 0, rid := 7 } s = some (tCmd tQ (tPacket 1 1 0 64 128 [])) := by
  decide +kernel

/-- Walker 0 out of service with its owner QUIESCED and a spare, and walker 20 that nobody owns; tile 5 in service, and firmware core 0
when only two are left. -/
theorem test_meets_units :
    (let u : UnitOut := { kind := .walker, unit := 0, retired := false, seq := 3, fatal := false }
     let s := onPart 0 (fun x => { x with state := .quiesced }) (onErr (fun e => { e with outs := [u] }) tS)
     findOut .walker 0 s = some u ∧ substReady .walker 0 s = true ∧ sparesLeft .walker 0 s ≠ 0) ∧
    (let u : UnitOut := { kind := .walker, unit := 20, retired := false, seq := 3, fatal := false }
     let s := onErr (fun e => { e with outs := [u] }) tS
     unitOwner .walker 20 s = none ∧ findOut .walker 20 s = some u ∧ sparesLeft .walker 20 s ≠ 0) ∧
    removable .tile 5 tS = true ∧
    (let out : Nat → UnitOut := fun n => { kind := .fwCore, unit := n, retired := true, seq := 3, fatal := false }
     removable .fwCore 0 (onErr (fun e => { e with outs := [out 1, out 2, out 3, out 4, out 5, out 6, out 7] }) tS) = false) := by
  decide +kernel

/-- A module in each phase; a bank below and above the reserve, with writes held. -/
theorem test_meets_power :
    portsPowered tS = true ∧ portsPowered (onBoot (fun b => { b with phase := .heldUp }) tS) = false ∧
    (onBoot (fun b => { b with phase := .heldUp }) tS).board.boot.phase = .heldUp ∧
    (let s := onBoot (fun b => { b with phase := .off }) tS
     s.board.boot.phase = .off ∧ s.board.island.modEn = true ∧ s.board.island.powered = true) ∧
    tS.board.boot.phase = .up ∧ bankNj (onIsland (fun i => { i with bankV := 240 }) tS) < 620000000 ∧
    (let t := onIsland (fun i => { i with bankV := 240, bankNf := 1200000 }) (onMed (fun m => { m with held := true }) tS)
     620000000 ≤ bankNj t ∧ t.med.held = true ∧ 90 ≤ holdupPct t) ∧
    (onIsland (fun i => { i with powered := false }) tS).board.island.powered = false := by decide +kernel

/-- The island answers; its copies of the enables stand, and without them it does not obey. -/
theorem test_meets_smbus :
    tS.board.island.powered = true ∧ tS.board.island.resetEn = true ∧ tS.board.island.recoveryEn = true ∧
    (let s := onIsland (fun i => { i with resetEn := false, recoveryEn := false }) tS
     s.board.island.powered = true ∧ s.board.island.resetEn = false ∧ s.board.island.recoveryEn = false) := by decide +kernel


/-! Power-on, updates and security. -/

/-- The bytes that are not zero of a public key that R503 admits, of a signature in its form and of a certificate for a purpose, from a
place on. -/
def tKeyAt (o : Nat) : Memory := [(o + 3, 2), (o + 7, 6), (o + 11, 4)]
/-- See `tKeyAt`. -/
def tSigAt (o : Nat) : Memory :=
  [(o + 3, 1), (o + 11, 4), (o + 1135, 6), (o + 1459, 6), (o + 1463, 4), (o + 1519, 4), (o + 2643, 6)]
/-- See `tKeyAt`. -/
def tCertAt (o : Nat) (purpose : Byte) : Memory :=
  [(o, 0x43), (o + 1, 0x45), (o + 2, 0x52), (o + 3, 0x54), (o + 4, 1), (o + 6, purpose)] ++ tKeyAt (o + 8) ++ tKeyAt (o + 68) ++
    tSigAt (o + 128)
/-- A public key that R503 admits, in form. -/
def tKey : List Byte := fit 60 (zeros 3 ++ leBytes 1 2 ++ zeros 3 ++ leBytes 1 6 ++ zeros 3 ++ leBytes 1 4)
/-- A signature in the form that R503 admits. -/
def tSig : List Byte := readBytes (tSigAt 0) 0 2964

/-- A copy of the identity block that R507 admits where `tKey` is the root key. -/
def tIdentity : Memory :=
  tCertAt 0x1000 2 ++ tCertAt 0x2000 3 ++ tSigAt 0xF000 ++ [(0xFFFC, 0x43), (0xFFFD, 0x4D), (0xFFFE, 0x4D), (0xFFFF, 0x54)]
/-- An image that R511 to R513 admit there, of version 9, for every stepping, with a body of one zero byte: FIPS 180-4 gives its hash,
6E34…A01D. -/
def tImageOk : Memory :=
  writeBytes [] 0 (leBytes 4 0x4D574651 ++ leBytes 2 1 ++ leBytes 1 0 ++ leBytes 1 0 ++ leBytes 4 9 ++ leBytes 4 1 ++ leBytes 1 7
    ++ leBytes 1 0 ++ leBytes 1 255 ++ zeros 5
    ++ (leBytes 32 0x1DA0AF1706A31185763837B33F1D90782C0A78BBE644A59C987AB3FF9C0B346E)) ++
    tCertAt 0x1000 1 ++ tSigAt 0x2000 ++ tSigAt 0x3000

/-- Signatures that verify, of a slot and of an identity block. -/
def tSigs : SlotSigs := { cert := true, image := true, owner := true }
/-- See `tSigs`. -/
def tIdSigs : IdSigs := { factory := true, attest := true, block := true }
/-- What the power-on sequence finds: a valid copy of the identity block, or none, and everything else well. -/
def tFinds (copy : Memory) : BootFindings :=
  { copy0 := copy, copy1 := [], sigs0 := tIdSigs, sigs1 := tIdSigs, slotA := tSigs, slotB := tSigs, stacksTrained := true,
    selfTestFails := [] }
/-- The module about to power on with slot A committed, its root key of a hash, its bank full or empty. -/
def tRooted (root : List Byte) (full : Bool) : State :=
  onIsland (fun i => { i with bankV := if full then 240 else 0, bankNf := 1200000 })
    (onBoot (fun b => { b with slotA := { bytes := tImageOk, commit := true }, rootHash := root }) State.reset)
/-- The same with `tKey` as its root key. -/
def tBooting (full : Bool) : State := tRooted (Sha.sha256 tKey) full
/-- The same with the owner lock set; and the module at work with the image in slot B. -/
def tLocked (root : List Byte) : State :=
  onBoot (fun b => { b with owner := { locked := true, key := some tKey, seq := 1 } }) (tRooted root true)
/-- See `tLocked`. -/
def tStaged (root : List Byte) : State :=
  onBoot (fun b => { b with slotB := { bytes := tImageOk, commit := true }, rootHash := root }) tS
/-- `tRooted` as the power-on sequence has it: before it looks for an identity block, and with one. -/
def tSeen (root : List Byte) : State :=
  onBoot (fun b => { b with cause := .powerOn }) (onIsland (fun i => { i with pg := true }) { tRooted root true with cycles := 0 })
/-- See `tSeen`. -/
def tKnown (root : List Byte) : State := useIdentity tIdentity (tSeen root)

/-- The hash of `tKey` is what the ROM compares; the signature and key are in form. -/
theorem test_meets_forms : keyOk tKey = true ∧ hssForm tSig = true ∧ certForm 1 (readBytes tImageOk 0x1000 4096) = true := by
  decide +kernel

/-- Copy 0 of the identity block is valid where `tKey` is the root key. -/
theorem copy_valid {s : State} (h : s.board.boot.rootHash = Sha.sha256 tKey) : copyOk tIdentity tIdSigs s = true := by
  have h1 : certForm 2 (factoryCert tIdentity) = true := by decide +kernel
  have h2 : certIssuer (factoryCert tIdentity) = tKey := by decide +kernel
  have h3 : certForm 3 (attestCert tIdentity) = true := by decide +kernel
  have h4 : (certIssuer (attestCert tIdentity) == certSubject (factoryCert tIdentity)) = true := by decide +kernel
  have h5 : hssForm (readBytes tIdentity 0xF000 2964) = true := by decide +kernel
  have h6 : (readLe tIdentity 0xFFFC 4 == commitFlag) = true := by decide +kernel
  simp only [copyOk, certOk, isRoot, h1, h2, h3, h4, h5, h6, h, tIdSigs, beq_self_eq_true, Bool.and_self]

/-- Copy 0 of the identity block chosen, and none. -/
theorem test_meets_identity :
    chosenCopy (tFinds tIdentity) (tBooting true) = some tIdentity ∧ copyOk [] tIdSigs (tBooting true) = false ∧
    chosenCopy (tFinds []) (tBooting true) = none := by
  have h0 : copyOk [] tIdSigs (tBooting true) = false := by decide +kernel
  refine ⟨?_, h0, ?_⟩
  · have h : ∀ r, (tRooted r true).board.boot.rootHash = r := fun _ => rfl
    simp only [chosenCopy, tFinds, tBooting, copy_valid (h _), if_true]
  · simp only [chosenCopy, tFinds, h0, Bool.false_eq_true, if_false]

/-- That image holds where `tKey` is the root key. -/
theorem image_holds {s : State} (h : s.board.boot.rootHash = Sha.sha256 tKey) :
    imageHolds { bytes := tImageOk, commit := true } tSigs s = true := by
  have h1 : certForm 1 (firmwareCert { bytes := tImageOk, commit := true }) = true := by decide +kernel
  have h2 : certIssuer (firmwareCert { bytes := tImageOk, commit := true }) = tKey := by decide +kernel
  have h3 : hssForm (readBytes tImageOk 0x2000 2964) = true := by decide +kernel
  have h4 : (Sha.sha256 (readBytes tImageOk 0x4000 1) == readBytes tImageOk 24 32) = true := by decide +kernel
  have h5 : manifest { bytes := tImageOk, commit := true } 12 4 = 1 := by decide +kernel
  simp only [imageHolds, certOk, isRoot, h1, h2, h3, h4, h5, h, tSigs, beq_self_eq_true, Bool.and_self]

/-- A slot that holds it passes R513 but for its commit record. -/
theorem image_passes {n : Nat} {mk : List Byte → State} (h : ∀ r, (mk r).board.boot.rootHash = r)
    (hx : ∀ r, getFwSlot n (mk r) = { bytes := tImageOk, commit := true })
    (hm : ∀ r, manifestOk { bytes := tImageOk, commit := true } (mk r) = manifestOk { bytes := tImageOk, commit := true } (mk []))
    (h0 : manifestOk { bytes := tImageOk, commit := true } (mk []) = true)
    (hv : ∀ r, (mk r).board.boot.minSvn = 0) : imagePasses n tSigs (mk (Sha.sha256 tKey)) = true := by
  simp only [imagePasses, hx, hm, h0, image_holds (h _), hv, Nat.zero_le, decide_true, Bool.and_self]

/-- A committed slot with that image is valid, with the owner lock and without; a staged one passes. -/
theorem test_meets_image :
    slotValid 0 tSigs (tBooting true) = true ∧ slotValid 0 tSigs (tLocked (Sha.sha256 tKey)) = true ∧
    slotValid 1 tSigs (tBooting true) = false ∧ imagePasses 1 tSigs (tStaged (Sha.sha256 tKey)) = true ∧
    ownerAgrees 1 tSigs (tStaged (Sha.sha256 tKey)) = true := by
  have h1 := image_passes (n := 0) (mk := fun r => tRooted r true) (fun _ => rfl) (fun _ => rfl) (fun _ => rfl)
    (by decide +kernel) (fun _ => rfl)
  have h2 := image_passes (n := 0) (mk := tLocked) (fun _ => rfl) (fun _ => rfl) (fun _ => rfl) (by decide +kernel) (fun _ => rfl)
  have h3 := image_passes (n := 1) (mk := tStaged) (fun _ => rfl) (fun _ => rfl) (fun _ => rfl) (by decide +kernel) (fun _ => rfl)
  have c : ∀ r, (getFwSlot 0 (tRooted r true)).commit = true ∧ ownerAgrees 0 tSigs (tRooted r true) = true ∧
      (getFwSlot 0 (tLocked r)).commit = true ∧ (getFwSlot 1 (tRooted r true)).commit = false ∧
      ownerAgrees 1 tSigs (tStaged r) = true := fun _ => ⟨rfl, rfl, rfl, rfl, rfl⟩
  have o : ownerAgrees 0 tSigs (tLocked (Sha.sha256 tKey)) = true := by decide +kernel
  refine ⟨?_, ?_, ?_, h3, (c _).2.2.2.2⟩
  · simp only [slotValid, tBooting, h1, (c _).1, (c _).2.1, Bool.and_self]
  · simp only [slotValid, h2, o, (c _).2.2.1, Bool.and_self]
  · simp only [slotValid, tBooting, (c _).2.2.2.1, Bool.false_and]

/-- The sequence due, with the bank full and empty; a copy of the identity block; slot A chosen, and none; a recovery armed. -/
theorem test_meets_powerOn :
    (chosenCopy (tFinds tIdentity) (tSeen (Sha.sha256 tKey)) = some tIdentity ∧
      slotValid 0 tSigs (tKnown (Sha.sha256 tKey)) = true ∧
      (chooseSlot (· == 0) (tRooted [] true).board.boot.record).2.1 = some 0) ∧
    State.reset.board.boot.phase = .starting .powerOn ∧ holdupPct (tRooted [] false) < 90 ∧
    (90 ≤ holdupPct (tRooted [] true) ∧ 620000000 ≤ bankNj (tRooted [] true)) ∧
    (chooseSlot (fun _ => false) (tRooted [] true).board.boot.record).2.1 = none ∧
    (onIsland (fun i => { i with armedRecovery := true }) (tRooted [] true)).board.island.armedRecovery = true ∧
    (onIsland (fun i => { i with armedRecovery := true }) (tRooted [] true)).board.island.recoveryEn = true := by
  have h := image_passes (n := 0) (mk := tKnown) (fun _ => rfl) (fun _ => rfl) (fun _ => rfl) (by decide +kernel) (fun _ => rfl)
  have c : ∀ r, (getFwSlot 0 (tKnown r)).commit = true ∧ ownerAgrees 0 tSigs (tKnown r) = true ∧
      (tSeen r).board.boot.rootHash = r := fun _ => ⟨rfl, rfl, rfl⟩
  refine ⟨⟨?_, ?_, by decide +kernel⟩, by decide +kernel⟩
  · simp only [chosenCopy, tFinds, copy_valid (c _).2.2, if_true]
  · simp only [slotValid, h, (c _).1, (c _).2.1, Bool.and_self]

/-- A reset asked for; a trial that ends; BOOT_CTRL reached. -/
theorem test_meets_resets :
    (onBoot (fun b => { b with resetReq := some .fwArm }) tS).board.boot.resetReq = some .fwArm ∧ powerGood tS = true ∧
    tS.board.boot.stage = .ready ∧
    (let s := onBoot (fun b => { b with trialEnd := some 600 }) tS
     s.board.boot.trialEnd = some 600 ∧ 600 ≤ timeUs (atTime 600 s)) ∧
    Reaches tFn 0xC0000C tS ∧ tS.board.boot.owner.locked = false ∧ recoveryFn tS = false ∧ bit 0x80005253 31 = true ∧
    0x80005253 % 65536 = 0x5253 :=
  ⟨by decide +kernel, by decide +kernel, by decide +kernel, by decide +kernel, reaches_of (by decide +kernel), by decide +kernel,
    by decide +kernel, by decide +kernel, by decide +kernel⟩

/-- The module off with the island powered, the last known input at 46 V and below; the module on. -/
theorem test_meets_modEn :
    (let s := onBoot (fun b => { b with phase := .off }) tS
     s.board.boot.phase = .off ∧ s.board.island.powered = true ∧ s.board.island.inputMv < 4600 ∧ portsPowered s = false ∧
      4600 ≤ (onIsland (fun i => { i with inputMv := 4600 }) s).board.island.inputMv) ∧ tS.board.boot.phase ≠ .off ∧
    portsPowered tS = true := by decide +kernel

/-- `tS` with a full bank, and the boot block as `f` changes it. -/
def tBoot (f : BootSt → BootSt) : State := onBoot f (onIsland (fun i => { i with bankV := 240, bankNf := 1200000 }) tS)
/-- A session of port A in which bytes 4,096 to 8,191 are programmed. -/
def tSession : StageSession := { port := .a, done := [(4096, 4096)] }
/-- A command of PF A's control queue with these parameters. -/
def tPfCmd (op rlen dlen : Nat) (ps : List Byte) : Cmd := tCmd tPf (tPacket op 0 0 rlen dlen ps)
/-- A chunk of 64 bytes at offset 0. -/
def tChunk : List Byte := fit 24 (leBytes 1 1 ++ zeros 3 ++ leBytes 4 (crc32c (zeros 64)) ++ leBytes 4 0)

/-- BEGIN, CHUNK, FW_ARM and FW_CONFIRM, each with its checks passed; a slot that passes. -/
theorem test_meets_updates :
    (let k := tPfCmd 0x50 0 0 []
     let s := withCmds [k] (tBoot id)
     Due 0x50 (fun ps => !opIs 1 ps) k.ref (tIn none none) k (fit 24 []) [] s ∧ updateRefused s = false ∧ blockBad k (fit 24 []) = false) ∧
    (let k := tPfCmd 0x50 0 64 tChunk
     let s := withCmds [k] (tBoot fun b => { b with session := some tSession })
     Due 0x50 (opIs 1) k.ref (tIn none (some (zeros 64))) k tChunk (zeros 64) s ∧ field tChunk 8 4 % 4096 = 0 ∧
      tSession.port = cmdPort k s ∧ programmed tSession 0 64 = false ∧ crc32c (zeros 64) = field tChunk 4 4 ∧
      reservedSet [(0, 1), (4, 8)] 0 tChunk = false) ∧
    (let k := tPfCmd 0x51 0 0 (leBytes 1 1)
     let s := withCmds [k] (tBoot fun b => { b with session := some tSession })
     Due 0x51 (fun _ => true) k.ref (tIn none none) k (fit 24 (leBytes 1 1)) [] s ∧ updateRefused s = false ∧ k.dataLen = 0 ∧
      s.board.boot.slot = 0 ∧ field (fit 24 (leBytes 1 1)) 0 1 ≤ 1) ∧
    (let k := tPfCmd 0x52 0 0 []
     let s := withCmds [k] (tBoot fun b => { b with trial := true, stacksOk := true, sparesOk := true })
     Due 0x52 (fun _ => true) k.ref (tIn none none) k (fit 24 []) [] s ∧ s.board.boot.trial = true ∧ s.med.state ≠ .mounting ∧
      healthy s = true) ∧ tS.board.boot.trial = false :=
  ⟨⟨due_of (by decide +kernel), by decide +kernel⟩, ⟨due_of (by decide +kernel), by decide +kernel⟩,
    ⟨due_of (by decide +kernel), by decide +kernel⟩, ⟨due_of (by decide +kernel), by decide +kernel⟩, by decide +kernel⟩

/-- A key installed and a challenge out. -/
def tOwned : State :=
  tBoot fun b => { b with owner := { locked := false, key := some tKey, seq := 1 }, challenge := some (zeros 32) }

/-- The four operations of OWNER, and ATTEST, with its turn free and not. -/
theorem test_meets_owner :
    (let k := tPfCmd 0x54 128 0 []
     Due 0x54 (fun ps => opIs 0 ps || 3 < field ps 0 1) k.ref (tIn none none) k (fit 24 []) [] (withCmds [k] tS) ∧ 128 ≤ k.resultLen) ∧
    (let k := tPfCmd 0x54 0 60 (leBytes 1 1)
     Due 0x54 (opIs 1) k.ref (tIn none (some tKey)) k (fit 24 (leBytes 1 1)) tKey (withCmds [k] tS) ∧ keyOk tKey = true ∧
      tS.board.boot.owner.locked = false) ∧
    (let k := tPfCmd 0x54 0 0 (leBytes 1 2)
     Due 0x54 (opIs 2) k.ref (tIn none none) k (fit 24 (leBytes 1 2)) [] (withCmds [k] tOwned) ∧
      countersigned { bytes := tImageOk, commit := true } true tOwned = true) ∧
    (let k := tPfCmd 0x54 0 2964 (leBytes 1 3)
     Due 0x54 (opIs 3) k.ref (tIn none (some tSig)) k (fit 24 (leBytes 1 3)) tSig (withCmds [k] tOwned) ∧ hssForm tSig = true ∧
      tOwned.board.boot.challenge ≠ none ∧ tOwned.board.boot.owner.key ≠ none ∧ tS.board.boot.challenge = none ∧
      hssForm (zeros 2964) = false) ∧
    (let k := tPfCmd 0x53 11520 32 []
     Due 0x53 (fun _ => true) k.ref (tIn none (some (zeros 32))) k (fit 24 []) (zeros 32) (withCmds [k] tS) ∧ 11520 ≤ k.resultLen) ∧
    (attestFree tS = true ∧ tS.board.boot.attWaiting = [] ∧ tS.board.boot.attNext = some 0 ∧
      attestFree (tBoot fun b => { b with attLast := some 0 }) = false ∧
      attestFree (atTime 5000 (tBoot fun b => { b with attLast := some 0 })) = true) :=
  ⟨⟨due_of (by decide +kernel), by decide +kernel⟩, ⟨due_of (by decide +kernel), by decide +kernel⟩,
    ⟨due_of (by decide +kernel), by decide +kernel⟩, ⟨due_of (by decide +kernel), by decide +kernel⟩,
    ⟨due_of (by decide +kernel), by decide +kernel⟩, by decide +kernel⟩

/-- The recovery function, with no session, with one of port A, and asked by port B. -/
theorem test_meets_recovery :
    (tBoot fun b => { b with stage := .recovery }).board.boot.session = none ∧
    (let s := tBoot fun b => { b with stage := .recovery, session := some tSession }
     s.board.boot.stage = .recovery ∧ s.board.boot.session = some tSession ∧ tSession.port = .a ∧ tSession.port ≠ .b ∧
      programmed tSession (65536 * 383) (fit 61440 []).length = false ∧ 90 ≤ holdupPct s ∧ s.board.boot.owner.locked = false) := by
  decide +kernel

/-- The whole machine: reset meets the invariant, and its first step is a tick. -/
theorem test_meets_machine : MemoryCanonical State.reset ∧ step State.reset = .next { State.reset with cycles := 1 } :=
  ⟨⟨by decide +kernel, by decide +kernel, by decide +kernel, by decide +kernel, by decide +kernel, by decide +kernel⟩, rfl⟩

/-- COMMIT due for a model with that image. -/
theorem test_meets_commit :
    let ps := fit 24 (leBytes 1 2)
    let k := tLoad 0x20 0 0 ps
    let s := withCmds [k] (onTil (fun t => { t with models := [(1, tGood)] }) tS)
    Due 0x20 (opIs 2) k.ref (tIn none none) k ps [] s ∧ modelStatus k s = none ∧ getModel k.handle s = some tGood ∧
      tGood.ready = false ∧ fullyWritten tGood = true ∧ imageGood tGood = true :=
  ⟨due_of (by decide +kernel), by decide +kernel⟩

end Sys2Proof.Machine.Tests
end

section
/-!
PROOFS. The state after reset: what its accessors read while every table is still empty, and what the specification says of it.
-/
namespace Sys2Proof.Machine

/-! Every table is empty after reset, so an accessor reads the default of its key. -/

@[simp] theorem getQueue_reset (q : QRef) : getQueue q State.reset = queueReset (qkey q) := rfl
@[simp] theorem getPtn_reset (p : Nat) : getPtn p State.reset = ptnReset p := rfl
@[simp] theorem getCrier_reset (n : Nat) : getCrier n State.reset = crierReset n := rfl
@[simp] theorem getErrQueue_reset (sev : Nat) : getErrQueue sev State.reset = errQueueReset sev := rfl

/-- Each of the four error queues is empty (R482). -/
@[simp] theorem allRecs_reset : allRecs State.reset = [] := by
  have noRecs (sev : Nat) : (getErrQueue sev State.reset).recs = [] := by rw [getErrQueue_reset, errQueueReset]
  simp only [allRecs, noRecs, List.flatMap_eq_nil_iff, implies_true]

/-- No region or model is there yet, and the boot block's memories list no byte. -/
theorem memoryCanonical_reset : MemoryCanonical State.reset where
  regions := List.forall_mem_nil _
  models := List.forall_mem_nil _
  slotA := wf_nil
  slotB := wf_nil
  identity := wf_nil
  window := wf_nil

/-- Settles O58: the queues, partitions, criers and error records by what the empty tables read, the memories by
`memoryCanonical_reset`; each other field is a value written in `State.reset`. -/
theorem resetIsAsTheSpecSays : Obligations.ResetIsAsTheSpecSays := by
  unfold Obligations.ResetIsAsTheSpecSays
  have queues (q : QRef) :
      (getQueue q State.reset).state = .disabled ∧ (getQueue q State.reset).enable = false := by
    rw [getQueue_reset]
    exact ⟨rfl, rfl⟩
  have partitions (p : Nat) : (getPtn p State.reset).state = .free := by rw [getPtn_reset, ptnReset]
  have criers (n : Nat) (_ : n < 126) :
      (getCrier n State.reset).full = false ∧ (getCrier n State.reset).timeoutUs = 10000 := by
    rw [getCrier_reset]
    exact ⟨rfl, rfl⟩
  exact ⟨rfl, rfl, memoryCanonical_reset, queues, partitions,
    -- ports and host commands (R68), then indexes, models and compositions
    rfl, rfl, rfl, rfl, rfl, rfl, criers,
    -- ERR_CFG, HALTED and the error records (R482, R496)
    rfl, rfl, rfl, rfl, rfl, allRecs_reset,
    -- BOOT_CTRL (R533) and the start of the power-on sequence (log entry 8)
    rfl, rfl, rfl, rfl⟩

end Sys2Proof.Machine
end

section
/-!
PROOFS. What the bank, the sensors, the input and the SMBus do to the island's state (R26, R440–R442, R538–R548).
-/
namespace Sys2Proof.Machine

variable {s : State}

/-- Below the reserve, programs and erases are held (R541). -/
theorem settleHeld_of_lt (h : bankNj s < 620000000) : settleHeld s = if s.med.held then s else holdWrites s := by
  have : bankCovers s = false := by simpa [bankCovers] using h
  simp [settleHeld, this]

/-- With the reserve covered, what is held goes out at 90 % charge (R541). -/
theorem settleHeld_of_le (h : 620000000 ≤ bankNj s) :
    settleHeld s = if s.med.held = true ∧ 90 ≤ holdupPct s then releaseWrites s else s := by
  have : bankCovers s = true := by simpa [bankCovers] using h
  simp [settleHeld, this]

/-- A sample's verdict on throttling (R26): the model's test is the rule's. -/
theorem throttles_iff (w now sum : Nat) (start : Option Nat) (before : Bool) :
    (1000 < w || (start.any fun b => b + 5000 ≤ now) || decide (85000000 < sum) || (before && decide (850 < w))) = true ↔
      (1000 < w ∨ (∃ b, start = some b ∧ b + 5000 ≤ now) ∨ 85000000 < sum) ∨ (before = true ∧ 850 < w) := by
  have anyDue : (start.any fun b => b + 5000 ≤ now) = true ↔ ∃ b, start = some b ∧ b + 5000 ≤ now := by
    simp [Option.any_eq_true]
  simp only [Bool.or_eq_true, Bool.and_eq_true, decide_eq_true_eq, anyDue, or_assoc]

/-- The sensors throttle from 100 °C until each is 3 K below (R548). -/
theorem heatThrottles_iff (hub hot : Nat) (before : Bool) :
    (decide (100 ≤ hub) || decide (100 ≤ hot) || (before && (decide (97 < hub) || decide (97 < hot)))) = true ↔
      100 ≤ hub ∨ 100 ≤ hot ∨ (before = true ∧ (97 < hub ∨ 97 < hot)) := by
  simp only [Bool.or_eq_true, Bool.and_eq_true, decide_eq_true_eq, or_assoc]

/-- The state past a reading of the sensors, before any trip (R548). -/
def sensed (hub : Nat) (dies : List Nat) (lid : Nat) (s : State) : State :=
  onPwr (fun p => { p with
    hubTemp := min 255 hub, stackTemp := min 255 (hottest dies), lidTemp := min 255 lid
    tThrottle := 100 ≤ hub || 100 ≤ hottest dies || (p.tThrottle && (97 < hub || 97 < hottest dies)) }) s

/-- Below both limits the reading is all (R548). -/
theorem thermalSample_cool {hub lid : Nat} {dies : List Nat} (hh : hub < 110) (hd : hottest dies < 105) :
    thermalSample hub dies lid s = sensed hub dies lid s := by
  simp [thermalSample, sensed, hh, hd]

/-- At a limit the module trips: THERM_TRIP is set, and what is powered shuts down (R548, R553). -/
theorem thermalSample_hot {hub lid : Nat} {dies : List Nat} (h : 110 ≤ hub ∨ 105 ≤ hottest dies) :
    thermalSample hub dies lid s =
      let t := onIsland (fun i => { i with thermTrip := i.powered }) (sensed hub dies lid s)
      if portsPowered t then shutDown .tripped t else t := by
  have limits : (decide (hub < 110) && decide (hottest dies < 105)) = false := by
    simp only [Bool.and_eq_false_iff, decide_eq_false_iff_not]
    omega
  simp only [thermalSample, limits]
  rfl

/-- While VIN_52 is there the endpoint answers (R544). -/
theorem smbAnswer_powered (h : s.board.island.powered = true) (r : Option (List Byte)) :
    smbAnswer r s = emit (.smbus r) s := by simp [smbAnswer, h]

/-- A CONTROL write that is allowed is acknowledged and obeyed (R545). -/
theorem smbControl_obeyed {allowed : Bool} (h : s.board.island.powered = true) (ha : allowed = true) (act : State → State) :
    smbControl allowed act s = act (emit (.smbus (some [])) s) := by simp [smbControl, h, ha]

/-- Any other CONTROL write is NACKed and does nothing (R544, R545). -/
theorem smbControl_nacked {allowed : Bool} (h : s.board.island.powered = true) (ha : allowed = false) (act : State → State) :
    smbControl allowed act s = emit (.smbus none) s := by simp [smbControl, h, ha]

/-- One byte of a number is the byte it is modulo 256. -/
theorem leBytes_one (n : Nat) : leBytes 1 n = [BitVec.ofNat 8 n] := rfl

/-- Two bytes of a number are its remainder and its quotient by 256. -/
theorem leBytes_two (n : Nat) : leBytes 2 n = [n % 256, n / 256].map (BitVec.ofNat 8) := by
  have low : BitVec.ofNat 8 (n % 256) = BitVec.ofNat 8 n := BitVec.eq_of_toNat_eq (by simp)
  simp [leBytes, low]

/-- Settles O55: each row's meaning under its hypotheses, by the lemmas above. -/
theorem powerAndSmbus : Obligations.PowerAndSmbus := by
  unfold Obligations.PowerAndSmbus
  refine ⟨?samples, ?sensors, ?bank, ?input, ?island, ?smbus⟩
  case samples =>
    intro w mv now s t p start recent enter
    refine ⟨_, throttles_iff w (timeUs t) ((recent.map (·.2)).foldl (· + ·) 0) start p.throttle, ?_⟩
    simp only [exec, execPowerSample, powerSample, decide_eq_true_eq]
    rfl
  case sensors =>
    intro hub lid dies s hot
    refine ⟨_, heatThrottles_iff hub hot s.board.pwr.tThrottle, fun hh hd => ?_, fun h hp => ?_, fun h hp => ?_⟩
    · exact congrArg _ (thermalSample_cool hh hd)
    · exact congrArg _ ((thermalSample_hot h).trans (if_pos hp))
    · exact congrArg _ ((thermalSample_hot h).trans (if_neg (Bool.eq_false_iff.1 hp)))
  case bank =>
    intro n s
    refine ⟨_, _, rfl, rfl, fun i t hi => ?_⟩
    obtain ⟨hexec, hheld⟩ : exec i s = .next (settleHeld t) ∧ s.med.held = t.med.held := by
      rcases hi with ⟨rfl, rfl⟩ | ⟨rfl, rfl⟩ <;> exact ⟨rfl, rfl⟩
    rw [hexec, hheld]
    exact ⟨fun h => congrArg _ (settleHeld_of_lt h), fun h => congrArg _ (settleHeld_of_le h)⟩
  case input =>
    intro mv d ov s phase input start
    refine ⟨fun hv hd hp => ?_, fun h => ?_, fun hv hd => ?_, fun h => ?_, rfl⟩
    · exact congrArg _ (if_pos ⟨hv, hd, hp⟩)
    · refine congrArg _ (if_neg ?_)
      rintro ⟨hv, hd, hp⟩
      rcases h with h | h | h
      · omega
      · omega
      · exact absurd hp (Bool.eq_false_iff.1 h)
    · have restored : exec (.inputRestored mv d) s = .next (match phase with
          | .heldUp => start .holdup (input s)
          | .off => if s.board.island.modEn && s.board.island.powered then start .powerOn (input s) else input s
          | .starting _ | .tripped | .up => input s) := congrArg _ (if_pos ⟨hv, hd⟩)
      rw [restored]
      refine ⟨fun hp => by rw [hp], fun hp he hw => by simp [hp, he, hw], fun hp => ?_⟩
      rcases hp with hp | hp <;> rw [hp]
    · exact congrArg _ (if_neg (by omega))
  case island =>
    intro s fresh
    refine ⟨fun h => ?_, fun h => ?_, fun h => ?_⟩
    · simp only [exec, execStandbyIslandPowerUp, h, Bool.false_eq_true, if_false]
      rfl
    · simp only [exec, execStandbyIslandPowerLoss, h, if_true]
      rfl
    · simp only [exec, execStandbyIslandPowerLoss, h, Bool.false_eq_true, if_false]
      rfl
  case smbus =>
    intro s i p tells hi
    have answer {r r' : Option (List Byte)} (hr : r = r') :
        (.next (smbAnswer r s) : Host.Outcome State Fault Refusal) = .next (emit (.smbus r') s) := by
      rw [smbAnswer_powered hi, hr]
    refine ⟨answer rfl, answer ?_, answer ?_, answer rfl, answer rfl, answer rfl, answer rfl, answer ?_, ⟨?_, ?_, ?_⟩, ?_⟩
    · rw [leBytes_two]
    · rw [leBytes_two]
    · simp [smbAlertN, i]
    · exact congrArg _ (smbControl_obeyed hi rfl _)
    · intro he
      exact congrArg _ (smbControl_obeyed hi he _)
    · intro he
      exact congrArg _ (smbControl_obeyed hi he _)
    · rintro c (rfl | rfl | rfl | ⟨he, rfl⟩ | ⟨he, rfl⟩)
      · exact congrArg _ (smbControl_nacked hi rfl _)
      · exact congrArg _ (smbControl_nacked hi rfl _)
      · exact congrArg _ (smbControl_nacked hi rfl _)
      · exact congrArg _ (smbControl_nacked hi he _)
      · exact congrArg _ (smbControl_nacked hi he _)

end Sys2Proof.Machine
end

section
/-!
PROOFS. How one state of a step comes from another: the relation that every operation of the model keeps, and its rules
for the operations that change one block.
-/
namespace Sys2Proof.Machine

/-- The regions' memories are canonical (R20). -/
def RegionsCanonical (x : PtnSt) : Prop := ∀ e ∈ x.regions, Memory.wf e.2.mem

/-- The model images are canonical (R279). -/
def ImagesCanonical (x : TileSt) : Prop := ∀ e ∈ x.models, Memory.wf e.2.image

/-- The boot block's memories are canonical: both firmware slots, the identity block and the DATA window (R507, R511,
R522). -/
def BootCanonical (x : BootSt) : Prop :=
  Memory.wf x.slotA.bytes ∧ Memory.wf x.slotB.bytes ∧ Memory.wf x.identity ∧ Memory.wf x.window

/-- The byte memories of a state lie in three of its blocks. -/
theorem memoryCanonical_iff {s : State} :
    MemoryCanonical s ↔ RegionsCanonical s.ptn ∧ ImagesCanonical s.til ∧ BootCanonical s.board.boot :=
  ⟨fun ⟨r, m, a, b, i, w⟩ => ⟨r, m, a, b, i, w⟩, fun ⟨r, m, a, b, i, w⟩ => ⟨r, m, a, b, i, w⟩⟩

/-- `t` may come from `s` within a step: the commands that wait are the same, what was sent out stays and more may follow,
the number of the next free value has not fallen, and each block whose byte memories were canonical has them so still. -/
structure Evolves (s t : State) : Prop where
  pending : t.pending = s.pending
  out : s.out <:+ t.out
  free : s.free ≤ t.free
  regions : RegionsCanonical s.ptn → RegionsCanonical t.ptn
  images : ImagesCanonical s.til → ImagesCanonical t.til
  boots : BootCanonical s.board.boot → BootCanonical t.board.boot

/-- A step's outcome, where it is a next state, comes from `s`. -/
def Leads (s : State) (o : Host.Outcome State Fault Refusal) : Prop := ∀ t, o = .next t → Evolves s t

variable {s t u : State}

theorem Evolves.refl (s : State) : Evolves s s := ⟨rfl, List.suffix_refl _, le_refl _, id, id, id⟩

/-- Canonical byte memories stay so. -/
theorem Evolves.memoryCanonical (h : Evolves s t) (hs : MemoryCanonical s) : MemoryCanonical t := by
  obtain ⟨regions, images, boots⟩ := memoryCanonical_iff.1 hs
  exact memoryCanonical_iff.2 ⟨h.regions regions, h.images images, h.boots boots⟩

/-- An outcome that is a next state. -/
theorem Evolves.leads (h : Evolves s t) : Leads s (.next t) := fun _ ht => by cases ht; exact h

/-- A choice between two states. -/
theorem Evolves.ite {c : Prop} {_ : Decidable c} {a b : State} (ha : Evolves s a) (hb : Evolves s b) :
    Evolves s (if c then a else b) := by
  split
  · exact ha
  · exact hb

/-- The state of a pair whose first part is one. -/
theorem Evolves.of_fst {α : Type} {p : State × α} {a : α} (h : Evolves s p.1) (he : p = (u, a)) : Evolves s u := by
  rwa [he] at h

/-- The state of a pair whose second part is one. -/
theorem Evolves.of_snd {α : Type} {p : α × State} {a : α} (h : Evolves s p.2) (he : p = (a, u)) : Evolves s u := by
  rwa [he] at h

/-- What each element of a list does in turn. -/
theorem Evolves.foldl {α : Type} {f : State → α → State} {l : List α} (h : Evolves s t)
    (hf : ∀ u a, Evolves s u → Evolves s (f u a)) : Evolves s (l.foldl f t) := by
  induction l generalizing t with
  | nil => exact h
  | cons a l ih => exact ih (hf t a h)

/-! The operations that change one block, or one field of the model's own. -/

theorem Evolves.atTime {now : Nat} (h : Evolves s t) : Evolves s (atTime now t) := { h with }
theorem Evolves.emit {o : Out} (h : Evolves s t) : Evolves s (emit o t) :=
  { h with out := h.out.trans (List.suffix_cons _ _) }
theorem Evolves.takeFree {n : Nat} (h : Evolves s t) : Evolves s (takeFree n t) :=
  { h with free := h.free.trans (Nat.le_add_right _ _) }
theorem Evolves.onHost {f : HostSt → HostSt} (h : Evolves s t) : Evolves s (onHost f t) := { h with }
theorem Evolves.onTm {f : TmSt → TmSt} (h : Evolves s t) : Evolves s (onTm f t) := { h with }
theorem Evolves.onErr {f : ErrSt → ErrSt} (h : Evolves s t) : Evolves s (onErr f t) := { h with }
theorem Evolves.onSrch {f : SearchSt → SearchSt} (h : Evolves s t) : Evolves s (onSrch f t) := { h with }
theorem Evolves.onSel {f : SelSt → SelSt} (h : Evolves s t) : Evolves s (onSel f t) := { h with }
theorem Evolves.onMut {f : MutSt → MutSt} (h : Evolves s t) : Evolves s (onMut f t) := { h with }
theorem Evolves.onStk {f : StallSt → StallSt} (h : Evolves s t) : Evolves s (onStk f t) := { h with }
theorem Evolves.onEmb {f : EmbSt → EmbSt} (h : Evolves s t) : Evolves s (onEmb f t) := { h with }
theorem Evolves.onFab {f : FabSt → FabSt} (h : Evolves s t) : Evolves s (onFab f t) := { h with }
theorem Evolves.onMed {f : FlashSt → FlashSt} (h : Evolves s t) : Evolves s (onMed f t) := { h with }

/-- A change of the partitions that keeps the regions canonical. -/
theorem Evolves.onPtn {f : PtnSt → PtnSt} (h : Evolves s t)
    (hf : RegionsCanonical t.ptn → RegionsCanonical (f t.ptn)) : Evolves s (onPtn f t) :=
  { h with regions := hf ∘ h.regions }

/-- A change of the tiles that keeps the model images canonical. -/
theorem Evolves.onTil {f : TileSt → TileSt} (h : Evolves s t)
    (hf : ImagesCanonical t.til → ImagesCanonical (f t.til)) : Evolves s (onTil f t) :=
  { h with images := hf ∘ h.images }

/-- A change of the board that keeps the boot block's memories canonical. -/
theorem Evolves.onBoard {f : BoardSt → BoardSt} (h : Evolves s t)
    (hf : BootCanonical t.board.boot → BootCanonical (f t.board).boot) : Evolves s (onBoard f t) :=
  { h with boots := hf ∘ h.boots }

/-- A change of the boot block that keeps its memories canonical. -/
theorem Evolves.onBoot {f : BootSt → BootSt} (h : Evolves s t)
    (hf : BootCanonical t.board.boot → BootCanonical (f t.board.boot)) : Evolves s (onBoot f t) :=
  h.onBoard hf

/-- An effect of a stall instruction whose outcome, where it has one, comes from the state it acts on. -/
def Lawful (act : Effect) : Prop :=
  ∀ ⦃s t : State⦄ ⦃j : Job⦄ ⦃r : Job × State⦄, Evolves s t → act j t = some r → Evolves s r.2

/-- What a table gives at a key, it lists there. -/
theorem mem_of_tget? {α : Type} {m : Table α} {i : Nat} {v : α} (h : tget? m i = some v) : (i, v) ∈ m := by
  induction m with
  | nil => cases h
  | cons e m ih =>
    obtain ⟨k, w⟩ := e
    unfold tget? at h
    split at h
    · rename_i hk
      cases h
      exact hk ▸ List.mem_cons_self ..
    · exact List.mem_cons_of_mem _ (ih h)

end Sys2Proof.Machine
end

section
/-!
PROOFS. Every operation of the model leads to a state that comes from the one before:
what commands, queues and records do.
-/
namespace Sys2Proof.Machine

variable {s t u : State}

/-! Access to the blocks -/

theorem Evolves.onMbx {f : MbxSt → MbxSt} (h : Evolves s t) : Evolves s (onMbx f t) :=
  h.onBoard (by exact id)

theorem Evolves.onPwr {f : PwrSt → PwrSt} (h : Evolves s t) : Evolves s (onPwr f t) :=
  h.onBoard (by exact id)

theorem Evolves.onIsland {f : IslandSt → IslandSt} (h : Evolves s t) : Evolves s (onIsland f t) :=
  h.onBoard (by exact id)

theorem Evolves.onXq {p : ℕ} {f : XqCounts → XqCounts} (h : Evolves s t) : Evolves s (onXq p f t) :=
  h.onFab

theorem Evolves.onQueue {q : QRef} {f : Queue → Queue} (h : Evolves s t) : Evolves s (onQueue q f t) :=
  h.onHost

theorem Evolves.onPart {p : ℕ} {f : Ptn → Ptn} (h : Evolves s t) : Evolves s (onPart p f t) :=
  h.onPtn (by exact id)

theorem Evolves.onCmd {c : CmdRef} {f : Cmd → Cmd} (h : Evolves s t) : Evolves s (onCmd c f t) :=
  h.onHost

theorem Evolves.onTilCounts {p : ℕ} {f : TilCounts → TilCounts} (h : Evolves s t) : Evolves s (onTilCounts p f t) :=
  h.onTil (by exact id)

/-! Error records -/

theorem Evolves.onErrQueue {sev : ℕ} {f : ErrQueue → ErrQueue} (h : Evolves s t) : Evolves s (onErrQueue sev f t) :=
  h.onErr

theorem Evolves.pfInterrupt {r : Rec} (h : Evolves s t) : Evolves s (pfInterrupt r t) :=
  h.foldl fun _ _ h => h.emit

theorem Evolves.recInterrupts {r : Rec} {dropped : Bool} (h : Evolves s t) :
    Evolves s (recInterrupts r dropped t) := by
  unfold Machine.recInterrupts
  extract_lets served told
  have hv : Evolves s told := .ite h.pfInterrupt h
  clear_value served
  cases served with
  | some _ => exact .ite hv.emit hv
  | none => exact hv

theorem Evolves.queueRec {r : Rec} (h : Evolves s t) : Evolves s (queueRec r t).1 :=
  (Evolves.ite h.onErrQueue.onErr h.onErrQueue).recInterrupts

theorem Evolves.createRec {r : Rec} (h : Evolves s t) : Evolves s (createRec r t).1 :=
  h.onErr.queueRec

theorem Evolves.markHalted {cause : ℕ} (h : Evolves s t) : Evolves s (markHalted cause t) :=
  .ite h h.onErr.createRec

/-- A record is merged into one that stands, queued, or dropped. -/
theorem Evolves.fileErr {e : Rec} {struck : Option ℕ} {stays : Bool} (h : Evolves s t) :
    Evolves s (fileErr e struck stays t).1 := by
  unfold Machine.fileErr
  split
  · dsimp only
    exact h.onErrQueue.onErr
  · extract_lets hit
    clear_value hit
    split
    rename_i v he
    have hv : Evolves s v := by
      cases hit with
      | some _ =>
        cases he
        exact h.onErr
      | none =>
        dsimp only at he
        split at he <;> cases he <;> exact h
    exact .ite hv.createRec.markHalted hv.createRec

theorem Evolves.fileRec {e : Rec} (h : Evolves s t) : Evolves s (fileRec e t) :=
  h.fileErr

theorem Evolves.fileBadAccess {f : Fn} {bar off : ℕ} (h : Evolves s t) : Evolves s (fileBadAccess f bar off t) :=
  h.fileRec

theorem Evolves.fileForeign {f : Fn} {bar off : ℕ} (h : Evolves s t) : Evolves s (fileForeign f bar off t) :=
  h.fileRec

theorem Evolves.fileBadValue {f : Fn} {bar off part queue : ℕ} (h : Evolves s t) :
    Evolves s (fileBadValue f bar off part queue t) :=
  h.fileRec

/-! Policers and shapers -/

theorem Evolves.onPolicer {n : ℕ} {f : Policer → Policer} (h : Evolves s t) : Evolves s (onPolicer n f t) :=
  h.onTm

theorem Evolves.onShaper {n : ℕ} {f : Shaper → Shaper} (h : Evolves s t) : Evolves s (onShaper n f t) :=
  h.onTm

theorem Evolves.police {n b : ℕ} {pre : Colour} (h : Evolves s t) : Evolves s (police n b pre t).2 :=
  h.onPolicer

theorem Evolves.chargeShaper {n b : ℕ} (h : Evolves s t) : Evolves s (chargeShaper n b t) :=
  h.onShaper

/-! What a search holds -/

theorem Evolves.onIndex {h' : ℕ} {f : Index → Index} (h : Evolves s t) : Evolves s (onIndex h' f t) :=
  h.onSrch

theorem Evolves.onQuery {c : CmdRef} {f : Query → Query} (h : Evolves s t) : Evolves s (onQuery c f t) :=
  h.onSrch

theorem Evolves.onWlk {p : ℕ} {f : WlkCounts → WlkCounts} (h : Evolves s t) : Evolves s (onWlk p f t) :=
  h.onSrch

theorem Evolves.releaseRefs {q : Query} (h : Evolves s t) : Evolves s (releaseRefs q t) :=
  .ite (.ite h.onIndex.onIndex h.onIndex) h.onWlk

theorem Evolves.releaseBound {c : CmdRef} (h : Evolves s t) : Evolves s (releaseBound c t) := by
  unfold Machine.releaseBound
  split
  · exact h
  · exact h.onIndex.onMut

theorem Evolves.leaveBatches {c : CmdRef} (h : Evolves s t) : Evolves s (leaveBatches c t) :=
  h.onSrch.foldl fun _ _ h => h.onIndex

theorem Evolves.releaseFrame {c : CmdRef} (h : Evolves s t) : Evolves s (releaseFrame c t) := by
  unfold Machine.releaseFrame
  split
  · exact h
  · exact h.onIndex.onQuery

theorem Evolves.leaveCache {c : CmdRef} (h : Evolves s t) : Evolves s (leaveCache c t) :=
  h.leaveBatches.releaseFrame

theorem Evolves.releaseQuery {c : CmdRef} (h : Evolves s t) : Evolves s (releaseQuery c t) := by
  unfold Machine.releaseQuery
  split
  · exact h
  · exact h.leaveCache.releaseRefs.onSrch

theorem Evolves.releaseHeld {c : CmdRef} (h : Evolves s t) : Evolves s (releaseHeld c t) :=
  h.releaseQuery.releaseBound

theorem Evolves.countSearch {k : Cmd} {st : ℕ} (h : Evolves s t) : Evolves s (countSearch k st t) := by
  unfold Machine.countSearch
  split
  · exact h
  · exact .ite h.onWlk h

/-! Completion -/

theorem Evolves.countInterrupt {q : QRef} {f : Fn} (h : Evolves s t) : Evolves s (countInterrupt q f t) :=
  .ite h.onQueue.emit h.onQueue

theorem Evolves.putEntry {k : Cmd} {a : Answer} {dup : Bool} {port : Port} (h : Evolves s t) :
    Evolves s (putEntry k a dup port t) :=
  .ite h.emit.onQueue h.emit.onQueue.countInterrupt

theorem Evolves.noteAnswer {c : CmdRef} {a : Answer} (h : Evolves s t) : Evolves s (noteAnswer c a t) := by
  unfold Machine.noteAnswer
  exact h.onHost

theorem Evolves.writeEntry {c : CmdRef} {a : Answer} {dup : Bool} (h : Evolves s t) :
    Evolves s (writeEntry c a dup t) := by
  unfold Machine.writeEntry
  split
  · exact h
  · extract_lets answered _
    have hv : Evolves s answered := .ite h h.noteAnswer.countSearch.releaseHeld
    split
    · exact hv.onHost
    · exact .ite hv.onHost hv.onHost.putEntry

theorem Evolves.sendItem {port : Port} {i : HostItem} (h : Evolves s t) : Evolves s (sendItem port i t) := by
  unfold Machine.sendItem
  split
  · exact h.emit
  · exact h.writeEntry

theorem Evolves.setHostq {p : ℕ} {l : List (ℕ × HostItem)} (h : Evolves s t) : Evolves s (setHostq p l t) :=
  h.onHost

theorem Evolves.dropHostItems {c : CmdRef} (h : Evolves s t) : Evolves s (dropHostItems c t) := by
  unfold Machine.dropHostItems
  split
  · exact h
  · exact h.setHostq

theorem Evolves.setDeficit {k v : ℕ} (h : Evolves s t) : Evolves s (setDeficit k v t) :=
  h.onTm

theorem Evolves.sendWhile {port : Port} {p n : ℕ} (h : Evolves s t) : Evolves s (sendWhile port p n t) := by
  induction n generalizing t with
  | zero => exact h
  | succ n ih =>
    unfold Machine.sendWhile
    split
    · exact h
    · exact .ite (ih h.setHostq.sendItem) (.ite (ih h.setHostq.chargeShaper.setDeficit.sendItem) h)

theorem Evolves.hostTurn {port : Port} {p : ℕ} (h : Evolves s t) : Evolves s (hostTurn port t p) :=
  .ite h.setDeficit (.ite h (.ite h.setDeficit.sendWhile.setDeficit h.setDeficit.sendWhile))

theorem Evolves.hostRound {port : Port} (h : Evolves s t) : Evolves s (hostRound port t) :=
  h.foldl fun _ _ h => h.hostTurn

theorem Evolves.hostRounds {port : Port} {n : ℕ} (h : Evolves s t) : Evolves s (hostRounds port n t) := by
  induction n generalizing t with
  | zero => exact h
  | succ n ih => exact ih h.hostRound

theorem Evolves.hostDrain {port : Port} (h : Evolves s t) : Evolves s (hostDrain port t) :=
  h.hostRounds

theorem Evolves.sendToHost {k : Cmd} {items : List HostItem} {bypass : Bool} (h : Evolves s t) :
    Evolves s (sendToHost k items bypass t) := by
  unfold Machine.sendToHost
  split
  · exact h.foldl fun _ _ h => h.sendItem
  · exact .ite (h.foldl (fun _ _ h => h.sendItem)) h.setHostq.hostDrain

theorem Evolves.giveToFabric {c : CmdRef} {k : Cmd} {a : FabricAns} (h : Evolves s t) :
    Evolves s (giveToFabric c k a t) := by
  unfold Machine.giveToFabric
  exact (Evolves.ite h.countSearch.releaseHeld h).onHost

theorem Evolves.completeWith {c : CmdRef} {st count detail resultBytes : ℕ} {result : List Byte} (h : Evolves s t) :
    Evolves s (completeWith c st count detail resultBytes result t) := by
  unfold Machine.completeWith
  split
  · exact h
  · exact .ite h.giveToFabric h.onCmd.sendToHost

theorem Evolves.complete {c : CmdRef} {st count detail : ℕ} {result : List Byte} (h : Evolves s t) :
    Evolves s (complete c st count detail result t) := by
  unfold Machine.complete
  split
  · exact h
  · exact h.completeWith

theorem Evolves.completeSt {c : CmdRef} {st : ℕ} (h : Evolves s t) : Evolves s (completeSt c st t) :=
  h.complete

theorem Evolves.completeRec {c : CmdRef} {st count seq : ℕ} {dropped : Bool} (h : Evolves s t) :
    Evolves s (completeRec c st count seq dropped t) :=
  .ite h.complete h.onCmd.complete

theorem Evolves.completeRecData {c : CmdRef} {st count seq : ℕ} {dropped : Bool} {result : List Byte}
    (h : Evolves s t) : Evolves s (completeRecData c st count seq dropped result t) :=
  .ite h.complete h.onCmd.complete

theorem Evolves.failCmd {c : CmdRef} {e : Rec} (h : Evolves s t) : Evolves s (failCmd c e t) := by
  unfold Machine.failCmd
  split
  · exact h
  · split
    · exact (h.fileErr.of_fst ‹_›).completeRec

theorem Evolves.failDma {c : CmdRef} {addr : ℕ} (h : Evolves s t) : Evolves s (failDma c addr t) := by
  unfold Machine.failDma
  split
  · exact h
  · exact h.failCmd

theorem Evolves.finish {c : CmdRef} {resultOk : Bool} {st count detail : ℕ} {result : List Byte} (h : Evolves s t) :
    Evolves s (finish c resultOk st count detail result t) := by
  unfold Machine.finish
  split
  · exact h
  · exact .ite h.complete h.failDma

/-! Queue pairs -/

theorem Evolves.countQueueBusy {q : QRef} (h : Evolves s t) : Evolves s (countQueueBusy q t) := by
  unfold Machine.countQueueBusy
  split
  · exact h.onPart
  · exact h

theorem Evolves.writeQueueBase {q : QRef} {cq : Bool} {v : ℕ} (h : Evolves s t) :
    Evolves s (writeQueueBase q cq v t) :=
  .ite h.onQueue (.ite h h.countQueueBusy)

theorem Evolves.writeQcfgFields {q : QRef} {v : ℕ} (h : Evolves s t) : Evolves s (writeQcfgFields q v t) :=
  .ite h.onQueue.onQueue (.ite h.onQueue h.onQueue.countQueueBusy)

theorem Evolves.enableQueue {q : QRef} (h : Evolves s t) : Evolves s (enableQueue q t) :=
  .ite h (.ite h.onQueue h.onQueue)

theorem Evolves.disableQueue {q : QRef} (h : Evolves s t) : Evolves s (disableQueue q t) :=
  .ite h.onQueue h

theorem Evolves.writeQcfg {q : QRef} {v : ℕ} (h : Evolves s t) : Evolves s (writeQcfg q v t) :=
  .ite h.writeQcfgFields.enableQueue h.writeQcfgFields.disableQueue

theorem Evolves.writeQstat {q : QRef} {v : ℕ} (h : Evolves s t) : Evolves s (writeQstat q v t) :=
  h.onQueue

theorem Evolves.drainedQueue {q : QRef} (h : Evolves s t) : Evolves s (drainedQueue q t) :=
  .ite h.onQueue h

theorem Evolves.haltQueue {q : QRef} {addr : ℕ} (h : Evolves s t) : Evolves s (haltQueue q addr t) :=
  .ite h.onQueue.fileRec h

theorem Evolves.refuseDoorbell {f : Fn} {q : QRef} {off : ℕ} (h : Evolves s t) :
    Evolves s (refuseDoorbell f q off t) :=
  h.onQueue.fileBadValue

theorem Evolves.ringDoorbell {f : Fn} {q : QRef} {head : Bool} {off v : ℕ} (h : Evolves s t) :
    Evolves s (ringDoorbell f q head off v t) :=
  .ite h (.ite (.ite h.onQueue h.refuseDoorbell) (.ite h.onQueue h.refuseDoorbell))

theorem Evolves.doorbell {f : Fn} {page n : ℕ} {head : Bool} {v : ℕ} (h : Evolves s t) :
    Evolves s (doorbell f page n head v t) := by
  unfold Machine.doorbell
  refine .ite ?_ (.ite h.ringDoorbell h)
  refine .ite (.ite h.ringDoorbell h) ?_
  refine .ite h ?_
  split
  · exact h
  · exact .ite h.fileForeign (.ite h.ringDoorbell h)

theorem Evolves.intTimer {q : QRef} (h : Evolves s t) : Evolves s (intTimer q t) := by
  unfold Machine.intTimer
  extract_lets
  split
  · exact h
  · refine .ite ?_ h
    split
    · exact h.onQueue.emit
    · exact h

theorem Leads.execSqTailDoorbell {f : Fn} {page q : ℕ} {value : W32} :
    Leads s (execSqTailDoorbell f page q value s) :=
  (Evolves.refl s).doorbell.leads

theorem Leads.execCqHeadDoorbell {f : Fn} {page q : ℕ} {value : W32} :
    Leads s (execCqHeadDoorbell f page q value s) :=
  (Evolves.refl s).doorbell.leads

theorem Leads.execIntTimeExpiry {q : QRef} {now : ℕ} : Leads s (execIntTimeExpiry q now s) :=
  (Evolves.refl s).atTime.intTimer.leads

theorem Leads.execRingDmaFailure {q : QRef} {addr : W64} : Leads s (execRingDmaFailure q addr s) :=
  (Evolves.refl s).haltQueue.leads

theorem Leads.execQueueDrained {q : QRef} : Leads s (execQueueDrained q s) :=
  (Evolves.refl s).drainedQueue.leads

/-! The start of a command -/

theorem Evolves.countTurned {k : Cmd} {st : ℕ} (h : Evolves s t) : Evolves s (countTurned k st t) := by
  unfold Machine.countTurned
  split
  · exact h
  · exact .ite h.onXq (.ite h.onXq h)

theorem Evolves.settleVerdict {k : Cmd} {v : Verdict} {go : State → State} (h : Evolves s t)
    (hgo : ∀ u, Evolves s u → Evolves s (go u)) : Evolves s (settleVerdict k v go t) := by
  unfold Machine.settleVerdict
  split
  · exact h.countTurned.complete
  · exact h
  · exact hgo _ h

/-- A command that begins, with the checks of its parameters made before its input arrives. -/
theorem Evolves.beginWith {op : ℕ} {isForm : List Byte → Bool} {early : Cmd → List Byte → State → Verdict}
    {c : CmdRef} {d : CmdIn} {check : Cmd → List Byte → List Byte → State → Verdict}
    {act : Cmd → List Byte → List Byte → State → State} (h : Evolves s t)
    (hact : ∀ x0 x1 x2 u, Evolves s u → Evolves s (act x0 x1 x2 u)) :
    Evolves s (beginWith op isForm early c d check act t) := by
  unfold Machine.beginWith
  split
  · exact h
  · refine .ite h ?_
    split
    · exact h.failDma
    · exact .ite h (.ite h.complete (h.settleVerdict (fun _ h => by
        split
        · exact h.failDma
        · exact h.settleVerdict (fun _ h => .ite h (hact _ _ _ _ h.onCmd)))))

/-- A command that begins: it ends by its checks, or does what its row says. -/
theorem Evolves.begin {op : ℕ} {isForm : List Byte → Bool} {c : CmdRef} {d : CmdIn}
    {check : Cmd → List Byte → List Byte → State → Verdict} {act : Cmd → List Byte → List Byte → State → State}
    (h : Evolves s t) (hact : ∀ x0 x1 x2 u, Evolves s u → Evolves s (act x0 x1 x2 u)) :
    Evolves s (begin op isForm c d check act t) :=
  h.beginWith hact

end Sys2Proof.Machine
end

section
/-!
PROOFS. Every operation of the model leads to a state that comes from the one before:
what the NAND and its journal do.
-/
namespace Sys2Proof.Machine

variable {s t u : State}

/-! The NAND -/

theorem Evolves.onLun {u' : ℕ} {f : Lun → Lun} (h : Evolves s t) : Evolves s (onLun u' f t) :=
  h.onMed

theorem Evolves.journal {e : JEntry} (h : Evolves s t) : Evolves s (journal e t) :=
  h.onMed

theorem Evolves.setBlock {b : ℕ} {st : BState} {erases : ℕ} (h : Evolves s t) : Evolves s (setBlock b st erases t) :=
  h.onMed.journal

theorem Evolves.setBlocks {bs : List ℕ} {st : BState} (h : Evolves s t) : Evolves s (setBlocks bs st t) :=
  h.foldl fun _ _ h => .ite h h.setBlock

theorem Evolves.onMedCounts {f : MedCounts → MedCounts} (h : Evolves s t) : Evolves s (onMedCounts f t) :=
  h.onMed

theorem Evolves.onMedPart {p : ℕ} {f : MedPart → MedPart} (h : Evolves s t) : Evolves s (onMedPart p f t) :=
  h.onMed

theorem Evolves.flashFail {lpn ppn lun part : ℕ} (h : Evolves s t) : Evolves s (flashFail lpn ppn lun part t) :=
  h.fileRec

theorem Evolves.checkCapacity (h : Evolves s t) : Evolves s (checkCapacity t) :=
  .ite h.onMed h

theorem Evolves.formSuper {i stream sb : ℕ} (h : Evolves s t) (he : formSuper i stream t = some (sb, u)) :
    Evolves s u := by
  unfold Machine.formSuper at he
  dsimp only at he
  split at he
  · cases he
  · cases he
    exact h.onMed.journal.setBlocks

theorem Evolves.putStream {i stream : ℕ} {x : Stream} (h : Evolves s t) : Evolves s (putStream i stream x t) :=
  h.onMed

theorem Evolves.openNext {i stream sb : ℕ} (h : Evolves s t) (he : openNext i stream t = some (sb, u)) :
    Evolves s u := by
  unfold Machine.openNext at he
  dsimp only at he
  split at he
  · cases he
  · rename_i v hfirst
    have first : Evolves s v := by
      split at hfirst
      · cases hfirst
        exact h
      · exact h.formSuper hfirst
    split at he
    · rename_i hnext
      cases he
      exact (first.onMed.setBlocks.formSuper hnext).putStream
    · cases he
      exact first.onMed.setBlocks.putStream

theorem Evolves.closeFull {i stream : ℕ} (h : Evolves s t) : Evolves s (closeFull i stream t) := by
  unfold Machine.closeFull
  dsimp only
  split
  · exact h
  · split
    · exact h.putStream
    · exact .ite h h.setBlocks.putStream

theorem Evolves.takePage {i stream sb ppn : ℕ} (h : Evolves s t) (he : takePage i stream t = some (sb, ppn, u)) :
    Evolves s u := by
  unfold Machine.takePage at he
  dsimp only at he
  split at he
  · cases he
  · rename_i v hopened
    have opened : Evolves s v := by
      split at hopened
      · cases hopened
        exact h.closeFull
      · exact h.closeFull.openNext hopened
    split at he
    · cases he
    · split at he
      · cases he
      · cases he
        exact opened.onMed

theorem Evolves.takeAnywhere {stream i n sb ppn : ℕ} (h : Evolves s t)
    (he : takeAnywhere stream i n t = some (sb, ppn, u)) : Evolves s u := by
  induction n generalizing i with
  | zero => cases he
  | succ n ih =>
    unfold Machine.takeAnywhere at he
    split at he
    · rename_i hr
      cases he
      exact h.takePage hr
    · exact ih he

theorem Evolves.issueOp {u' : ℕ} {work : OpWork} (h : Evolves s t) : Evolves s (issueOp u' work t) :=
  .ite h.onMed h.onLun

theorem Evolves.takeWseq (h : Evolves s t) : Evolves s (takeWseq t).2 := by
  unfold Machine.takeWseq
  dsimp only
  exact h.onMed

theorem Evolves.placeProgram {tag tag' : Tag} {why : ProgFor} {ppn : ℕ} (h : Evolves s t)
    (he : placeProgram tag why t = some (ppn, tag', u)) : Evolves s u := by
  unfold Machine.placeProgram at he
  split at he
  · cases he
  · rename_i hr
    cases he
    have taken := h.takeAnywhere hr
    exact .ite taken.onMed.takeWseq.onMedPart taken.onMed.takeWseq

theorem Evolves.program {t' : Tag} {why : ProgFor} (h : Evolves s t) : Evolves s (program t' why t) := by
  unfold Machine.program
  split
  · exact h.onMed
  · exact (h.placeProgram ‹_›).issueOp

theorem Evolves.retryWaiting (h : Evolves s t) : Evolves s (retryWaiting t) :=
  h.onMed.foldl fun _ _ h => h.program

theorem Evolves.closeStripe {sb p q : ℕ} (h : Evolves s t) : Evolves s (closeStripe sb p q t) := by
  unfold Machine.closeStripe
  split
  · exact h
  · exact .ite h.takeWseq.issueOp h

theorem Evolves.ckptPage {ppn : ℕ} (h : Evolves s t) : Evolves s (ckptPage ppn t) := by
  unfold Machine.ckptPage
  split
  · exact h
  · exact .ite h.onMed.journal h.onMed.program

theorem Evolves.countProgram (h : Evolves s t) : Evolves s (countProgram t) :=
  h.onMedCounts

theorem Evolves.landProgram {ppn : ℕ} {t' : Tag} {why : ProgFor} (h : Evolves s t) :
    Evolves s (landProgram ppn t' why t) := by
  unfold Machine.landProgram
  refine .ite ?_ ?_
  · split
    · exact h.onMed.countProgram.onMed.journal
    · exact .ite h.onMed.countProgram.journal h.onMed.countProgram
    · exact h.onMed.countProgram.ckptPage
    · exact h.onMed.countProgram
  · split
    · exact h.onMed.countProgram.onMed.journal.closeStripe
    · exact (Evolves.ite h.onMed.countProgram.journal h.onMed.countProgram).closeStripe
    · exact h.onMed.countProgram.ckptPage.closeStripe
    · exact h.onMed.countProgram.closeStripe

theorem Evolves.programNow {tag : Tag} {why : ProgFor} (h : Evolves s t) (he : programNow tag why t = some u) :
    Evolves s u := by
  unfold Machine.programNow at he
  split at he
  · cases he
  · split at he
    · cases he
    · rename_i hr
      cases he
      exact (h.placeProgram hr).landProgram

theorem Evolves.relocate {gc cold : Bool} {ppn : ℕ} (h : Evolves s t) : Evolves s (relocate gc cold t ppn) := by
  unfold Machine.relocate
  split
  · exact h
  · exact h.program

theorem Evolves.hubPut {r : FRead} (h : Evolves s t) : Evolves s (hubPut r t) :=
  h.onMed

theorem Evolves.copyPage {gc cold : Bool} {ppn : ℕ} (h : Evolves s t) : Evolves s (copyPage gc cold t ppn) := by
  unfold Machine.copyPage
  split
  · exact h
  · exact .ite h h.hubPut

theorem Evolves.freeSuper {sb : ℕ} {x : Super} (h : Evolves s t) : Evolves s (freeSuper sb x t) :=
  h.setBlocks.onMed.foldl fun _ _ h => h.issueOp

theorem Evolves.sweepEmpty (h : Evolves s t) : Evolves s (sweepEmpty t) :=
  (h.foldl (fun _ _ h => .ite h h.freeSuper)).foldl fun _ _ h => h.onLun

theorem Evolves.retireBlock {b : ℕ} (h : Evolves s t) : Evolves s (retireBlock b t) :=
  (h.setBlock.foldl (fun _ _ h => h.copyPage)).checkCapacity

theorem Evolves.submitRead {part : ℕ} {who : ReadFor} {lpn : ℕ} (h : Evolves s t) :
    Evolves s (submitRead part who lpn t) := by
  unfold Machine.submitRead
  split
  · exact h.onMed
  · exact h.hubPut

theorem Evolves.submitRerank {part : ℕ} {c : CmdRef} {i lpn : ℕ} (h : Evolves s t) :
    Evolves s (submitRerank part c i lpn t) :=
  .ite h.onMed (.ite h.onMed h.submitRead)

theorem Evolves.withdrawReads {c : CmdRef} (h : Evolves s t) : Evolves s (withdrawReads c t) := by
  unfold Machine.withdrawReads
  exact h.onMed

theorem Evolves.takeArrived {sel : ReadFor → Bool} {a : Arrived} (h : Evolves s t)
    (he : takeArrived sel t = some (a, u)) : Evolves s u := by
  unfold Machine.takeArrived at he
  split at he
  · cases he
  · cases he
    exact h.onMed

theorem Evolves.takeEntry {c : CmdRef} {i : ℕ} {a : Arrived} (h : Evolves s t) (he : takeEntry c i t = some (a, u)) :
    Evolves s u := by
  unfold Machine.takeEntry at he
  dsimp only at he
  split at he
  · cases he
  · cases he
    exact h.onMed

theorem Evolves.beginArray {u' : ℕ} (h : Evolves s t) : Evolves s (beginArray u' t) :=
  .ite h h.onLun

theorem Evolves.enqueueRead {u' : ℕ} (h : Evolves s t) : Evolves s (enqueueRead u' t) := by
  unfold Machine.enqueueRead
  refine .ite h ?_
  split
  · exact h
  · split
    · exact h
    · exact (Evolves.ite h.onMed.onMedCounts h.onMed).onLun.beginArray

theorem Evolves.readResult {r : FRead} {u' : ℕ} {f : FlashRead} (h : Evolves s t) :
    Evolves s (readResult r u' f t).2 := by
  unfold Machine.readResult
  extract_lets _ _ _ retried
  have hv : Evolves s retried := .ite h h.onMedCounts
  split
  · exact .ite hv.relocate hv
  · split
    · exact .ite h.onMedCounts.relocate h.onMedCounts
    · exact h

theorem Evolves.deliverRead {r : FRead} {bad : Option (ℕ × Bool)} (h : Evolves s t) :
    Evolves s (deliverRead r bad t) := by
  unfold Machine.deliverRead
  split
  · exact .ite h.relocate h
  · exact .ite h h.onMed
  · exact .ite h h.onMed

theorem Evolves.endRead {u' : ℕ} {f : FlashRead} (h : Evolves s t) : Evolves s (endRead u' f t) := by
  unfold Machine.endRead
  extract_lets +onlyGivenNames begun
  have hv : Evolves s begun := h.beginArray
  clear_value begun
  split
  · exact hv
  · extract_lets +onlyGivenNames _ started
    have hstarted : Evolves s started := hv.onLun
    split
    rename_i he
    have read := hstarted.readResult.of_snd he
    extract_lets +onlyGivenNames counted
    have hcounted : Evolves s counted := .ite read.onMedPart read
    clear_value counted
    split
    rename_i v hbad
    have hfiled : Evolves s v := by
      split at hbad
      · cases hbad
        exact hcounted
      · split at hbad
        rename_i hf
        cases hbad
        exact hcounted.fileErr.of_fst hf
    exact hfiled.deliverRead.beginArray

theorem Evolves.resumeOp {u' : ℕ} (h : Evolves s t) : Evolves s (resumeOp u' t) := by
  unfold Machine.resumeOp
  dsimp only
  split
  · exact h
  · exact .ite h.onLun h

theorem Leads.execFlashReadEnqueue {lun now : ℕ} : Leads s (execFlashReadEnqueue lun now s) :=
  (Evolves.refl s).atTime.enqueueRead.leads

theorem Leads.execFlashReadComplete {lun : ℕ} {r : FlashRead} {now : ℕ} :
    Leads s (execFlashReadComplete lun r now s) :=
  (Evolves.refl s).atTime.endRead.leads

theorem Leads.execOperationResume {lun now : ℕ} : Leads s (execOperationResume lun now s) :=
  (Evolves.refl s).atTime.resumeOp.leads

/-! The journal -/

theorem Evolves.issueSegPage (h : Evolves s t) : Evolves s (issueSegPage t) := by
  unfold Machine.issueSegPage
  split
  · exact h
  · exact h.onMed.foldl fun _ _ h => h.issueOp

theorem Evolves.startCkpt (h : Evolves s t) : Evolves s (startCkpt t) := by
  unfold Machine.startCkpt
  split
  · exact h
  · exact h.onMed.journal.onMed.program

theorem Evolves.startFlush (h : Evolves s t) : Evolves s (startFlush t) :=
  .ite h.onMed.issueSegPage (Evolves.ite h h.onMedCounts).onMed.startCkpt

theorem Evolves.tryFlush (h : Evolves s t) : Evolves s (tryFlush t) :=
  .ite h.startFlush h

theorem Evolves.writeMeta {bytes : ℕ} (h : Evolves s t) : Evolves s (writeMeta bytes t) := by
  unfold Machine.writeMeta
  exact h.onMed.onMedCounts

theorem Evolves.queueGroups (h : Evolves s t) : Evolves s (queueGroups t) :=
  h.foldl fun _ _ h => .ite h h.onMut.journal

theorem Evolves.makeDurable {h' csn : ℕ} (h : Evolves s t) : Evolves s (makeDurable h' csn t) := by
  unfold Machine.makeDurable
  split
  · exact h
  · split
    · exact h.onMut
    · exact h.onMut.finish

theorem Evolves.applyEntry {e : JEntry} (h : Evolves s t) : Evolves s (applyEntry t e) := by
  unfold Machine.applyEntry
  split
  · exact h.onMed
  · exact h.onMed
  · exact h.onMed.onMedCounts
  · exact h.makeDurable
  · exact .ite (h.foldl (fun _ _ h => h.issueOp)) h
  · exact h
  · exact h
  · exact h

theorem Evolves.commitSegment {seg : Segment} (h : Evolves s t) : Evolves s (commitSegment seg t) :=
  (h.onMed.onMedCounts.foldl (fun _ _ h => h.applyEntry)).sweepEmpty

theorem Evolves.segPageDone {u' : ℕ} {programmed : Bool} (h : Evolves s t) :
    Evolves s (segPageDone u' programmed t) := by
  unfold Machine.segPageDone
  split
  · exact h
  · extract_lets _ _ _ _ _ committed
    have hv : Evolves s committed := .ite h.onMed.commitSegment h.onMed
    exact .ite hv (.ite hv.onMed hv.onMed.issueSegPage)

theorem Evolves.anchorDone {n : ℕ} (h : Evolves s t) : Evolves s (anchorDone n t) := by
  unfold Machine.anchorDone
  split
  · exact h
  · exact .ite h (h.onMed.foldl (fun _ _ h => h.complete)).sweepEmpty

theorem Evolves.abandonCkpt (h : Evolves s t) : Evolves s (abandonCkpt t) := by
  unfold Machine.abandonCkpt
  split
  · exact h
  · exact .ite h.onMed.sweepEmpty h

theorem Evolves.dropOp {u' : ℕ} (h : Evolves s t) : Evolves s (dropOp u' t) :=
  h.onLun.beginArray

theorem Evolves.programFailed {u' ppn : ℕ} {t' : Tag} {why : ProgFor} (h : Evolves s t) :
    Evolves s (programFailed u' ppn t' why t) :=
  .ite h.flashFail.retireBlock h.flashFail.retireBlock.program

theorem Evolves.eraseDone {u' b : ℕ} {ok : Bool} (h : Evolves s t) : Evolves s (eraseDone u' b ok t) :=
  .ite (Evolves.ite h.onMed.onMedCounts.setBlock.fileRec h.onMed.onMedCounts.setBlock).retryWaiting
    h.flashFail.retireBlock

theorem Evolves.opEffect {u' : ℕ} {w : OpWork} {ok : Bool} (h : Evolves s t) : Evolves s (opEffect u' w ok t) := by
  unfold Machine.opEffect
  split
  · exact .ite h.landProgram.queueGroups h.programFailed
  · exact .ite h.countProgram.segPageDone h.issueOp
  · exact .ite h.countProgram.anchorDone h.issueOp
  · exact h.eraseDone

theorem Evolves.endOp {isErase : Bool} {u' : ℕ} {ok : Bool} (h : Evolves s t) :
    Evolves s (endOp isErase u' ok t) := by
  unfold Machine.endOp
  split
  · exact h
  · exact .ite h h.dropOp.opEffect

theorem Evolves.orphanOp {u' : ℕ} {o : LunOp} (h : Evolves s t) : Evolves s (orphanOp u' t o) := by
  unfold Machine.orphanOp
  split
  · exact .ite h h.program
  · exact h.segPageDone
  · exact .ite h.anchorDone h
  · exact h

theorem Evolves.failLun {u' : ℕ} (h : Evolves s t) : Evolves s (failLun u' t) :=
  .ite h ((h.onLun.flashFail.foldl (fun _ _ h => h.orphanOp)).foldl (fun _ _ h => h.copyPage)).checkCapacity

theorem Evolves.emptySuper {sb : ℕ} (h : Evolves s t) : Evolves s (emptySuper sb t) :=
  (h.onMed.foldl (fun _ _ h => h.copyPage)).sweepEmpty

theorem Evolves.collect {i : ℕ} (h : Evolves s t) : Evolves s (collect i t) := by
  unfold Machine.collect
  refine .ite h ?_
  refine .ite h.onMed ?_
  refine .ite ?_ h
  dsimp only
  split
  · exact h.onMed.emptySuper
  · exact h.onMed

theorem Evolves.pickCold (h : Evolves s t) : Evolves s (pickCold t) := by
  unfold Machine.pickCold
  refine .ite ?_ h.onMed
  split
  · exact h.onMed.sweepEmpty
  · exact h

theorem Evolves.relocateCold (h : Evolves s t) : Evolves s (relocateCold t) :=
  .ite h ((Evolves.ite h.pickCold h).onMed.foldl (fun _ _ h => h.copyPage))

theorem Leads.execFlashProgramComplete {lun : ℕ} {ok : Bool} : Leads s (execFlashProgramComplete lun ok s) :=
  (Evolves.refl s).endOp.leads

theorem Leads.execFlashEraseComplete {lun : ℕ} {ok : Bool} : Leads s (execFlashEraseComplete lun ok s) :=
  (Evolves.refl s).endOp.leads

theorem Leads.execLunFailed {lun : ℕ} : Leads s (execLunFailed lun s) :=
  (Evolves.refl s).failLun.leads

theorem Leads.execJournalFlush {now : ℕ} : Leads s (execJournalFlush now s) :=
  (Evolves.refl s).atTime.tryFlush.leads

theorem Leads.execCheckpointStart {now : ℕ} : Leads s (execCheckpointStart now s) :=
  have h := Evolves.refl s
  (Evolves.ite h.atTime.startCkpt h.atTime).leads

theorem Leads.execCheckpointAbandon {now : ℕ} : Leads s (execCheckpointAbandon now s) :=
  (Evolves.refl s).atTime.abandonCkpt.leads

theorem Leads.execGarbageCollection {set : ℕ} : Leads s (execGarbageCollection set s) :=
  (Evolves.refl s).collect.leads

theorem Leads.execColdRelocation {now : ℕ} : Leads s (execColdRelocation now s) :=
  (Evolves.refl s).atTime.relocateCold.leads

end Sys2Proof.Machine
end

section
/-!
PROOFS. Every operation of the model leads to a state that comes from the one before:
what lanes, messages and DRAM codewords do.
-/
namespace Sys2Proof.Machine

variable {s t u : State}

/-! Fabric lanes -/

theorem Evolves.onLane {n : ℕ} {f : Lane → Lane} (h : Evolves s t) : Evolves s (onLane n f t) :=
  h.onFab

theorem Evolves.onFabCounts {f : FabCounts → FabCounts} (h : Evolves s t) : Evolves s (onFabCounts f t) :=
  h.onFab

theorem Evolves.notePath {f : Frame} {n : ℕ} (h : Evolves s t) : Evolves s (notePath f n t) :=
  .ite h h.onFab

theorem Evolves.routeFrame {f : Frame} (h : Evolves s t) : Evolves s (routeFrame f t) := by
  unfold Machine.routeFrame
  split
  · exact h.notePath.onLane
  · exact h.onFab

theorem Evolves.rerouteWaiting (h : Evolves s t) : Evolves s (rerouteWaiting t) :=
  h.onFab.foldl fun _ _ h => h.routeFrame

theorem Evolves.refund {r : Option Refund} (h : Evolves s t) : Evolves s (refund r t) := by
  unfold Machine.refund
  split
  · exact h
  · exact h.onLane

theorem Evolves.drrPick {lane n : ℕ} (h : Evolves s t) : Evolves s (drrPick lane n t).2 := by
  induction n generalizing t with
  | zero => exact h
  | succ n ih =>
    unfold Machine.drrPick
    dsimp only
    split
    · exact ih h.setDeficit.onLane
    · split
      · exact ih h.onLane
      · split
        · split
          · exact h.setDeficit
          · exact ih h.onLane
        · split
          · exact h.setDeficit.onLane.setDeficit
          · exact ih h.setDeficit.onLane.onLane

theorem Evolves.startFrame {lane : ℕ} {f : Frame} (h : Evolves s t) : Evolves s (startFrame lane f t) :=
  h.onLane

theorem Evolves.chooseFrame {lane : ℕ} (h : Evolves s t) : Evolves s (chooseFrame lane t) := by
  have picked := h.drrPick (lane := lane) (n := 4000)
  unfold Machine.chooseFrame
  dsimp only
  split
  · exact .ite h h.startFrame
  · refine .ite h ?_
    split
    · exact h.startFrame
    · refine .ite h ?_
      split
      · rename_i hr
        rw [hr] at picked
        exact picked.startFrame
      · rename_i hr
        rw [hr] at picked
        exact picked

theorem Evolves.sendFirst {lane : ℕ} {c : Cell} {f : Frame} (h : Evolves s t) : Evolves s (sendFirst lane c f t) :=
  .ite (Evolves.ite h.onLane.chargeShaper h.onLane).refund (.ite h.onLane.chargeShaper h.onLane)

theorem Evolves.putCell {lane : ℕ} {data : Option Cell} {lseq : ℕ} (h : Evolves s t) :
    Evolves s (putCell lane data lseq t) := by
  unfold Machine.putCell
  dsimp only
  split <;> exact h.onLane.emit

theorem Evolves.cellTime {lane : ℕ} (h : Evolves s t) : Evolves s (cellTime lane t) := by
  unfold Machine.cellTime
  refine .ite h ?_
  split
  · exact h.onLane.putCell
  · refine .ite h.putCell ?_
    dsimp only
    split
    · exact h.chooseFrame.putCell
    · exact h.chooseFrame.sendFirst.putCell

theorem Evolves.closeFrame {lane : ℕ} {last : Cell} (h : Evolves s t) : Evolves s (closeFrame lane last t) :=
  .ite h.onLane h.onLane.refund

theorem Evolves.takeCell {lane : ℕ} {c : Cell} (h : Evolves s t) : Evolves s (takeCell lane c t) :=
  .ite h.onLane.closeFrame h.onLane

theorem Evolves.cellReceive {lane : ℕ} {bs : List Byte} {fec : EccOutcome} (h : Evolves s t) :
    Evolves s (cellReceive lane bs fec t) := by
  unfold Machine.cellReceive
  extract_lets _ _ counted
  have hv : Evolves s counted := by
    cases fec with
    | clean => exact h
    | corrected _ => exact h.onLane
    | uncorrectable => exact h.onLane
  exact .ite h (.ite hv.onLane (.ite hv.onLane.takeCell hv.onLane))

theorem Evolves.laneFails {resend : List Frame → State → State} {lane : ℕ} {st : LaneState} (h : Evolves s t)
    (hresend : ∀ x0 u, Evolves s u → Evolves s (resend x0 u)) : Evolves s (laneFails resend lane st t) :=
  .ite h.onLane (hresend _ _ (h.onLane.foldl (fun _ _ h => h.routeFrame)))

theorem Evolves.laneUp {lane peer : ℕ} {credits : List (ℕ × ℕ)} (h : Evolves s t) :
    Evolves s (laneUp lane peer credits t) :=
  .ite h h.emit.onLane.rerouteWaiting

theorem Evolves.restartTraining {lane : ℕ} (h : Evolves s t) : Evolves s (restartTraining lane t) := by
  unfold Machine.restartTraining
  dsimp only
  split
  · exact h.onLane
  · exact .ite h h.onLane
  · exact h

theorem Evolves.replayTimeout {lane : ℕ} (h : Evolves s t) : Evolves s (replayTimeout lane t) :=
  .ite h h.onLane

theorem Leads.execCellTime {lane : ℕ} : Leads s (execCellTime lane s) :=
  (Evolves.refl s).cellTime.leads

theorem Leads.execCellReceive {lane : ℕ} {cell : List Byte} {fec : EccOutcome} :
    Leads s (execCellReceive lane cell fec s) :=
  (Evolves.refl s).cellReceive.leads

theorem Leads.execLaneUp {lane peer : ℕ} {credits : List (ℕ × ℕ)} : Leads s (execLaneUp lane peer credits s) :=
  (Evolves.refl s).laneUp.leads

theorem Leads.execLaneTrainingRestart {lane now : ℕ} : Leads s (execLaneTrainingRestart lane now s) :=
  (Evolves.refl s).atTime.restartTraining.leads

theorem Leads.execReplayTimeout {lane now : ℕ} : Leads s (execReplayTimeout lane now s) :=
  (Evolves.refl s).atTime.replayTimeout.leads

theorem Leads.execPrbs31CheckError {lane : ℕ} : Leads s (execPrbs31CheckError lane s) :=
  have h := Evolves.refl s
  (Evolves.ite h.onLane h).leads

/-! Messages -/

theorem Evolves.onComp {id : ℕ} {f : Comp → Comp} (h : Evolves s t) : Evolves s (onComp id f t) :=
  h.onFab

theorem Evolves.sendMsg {part : ℕ} {m : Msg} (h : Evolves s t) : Evolves s (sendMsg part m t).1 :=
  h.onFab.foldl fun _ _ h => h.routeFrame

theorem Evolves.sendOnly {m : Msg} (h : Evolves s t) : Evolves s (sendOnly m t) :=
  h.sendMsg

theorem Evolves.sendReq {part : ℕ} {m : Msg} {waiter : ReqFor} {rest : List (List Byte)} (h : Evolves s t) :
    Evolves s (sendReq part m waiter rest t) := by
  unfold Machine.sendReq
  exact h.sendMsg.onXq.onFab

theorem Evolves.resendReq {r : Req} (h : Evolves s t) : Evolves s (resendReq r t) :=
  .ite h h.sendMsg.onFab.onXq

theorem Evolves.resendOf {fs : List Frame} (h : Evolves s t) : Evolves s (resendOf fs t) :=
  h.foldl fun _ _ h => h.resendReq

theorem Evolves.dropReq {id : ℕ} (h : Evolves s t) : Evolves s (dropReq id t) :=
  h.onFab

theorem Evolves.cancelReqs {c : CmdRef} (h : Evolves s t) : Evolves s (cancelReqs c t) :=
  h.foldl fun _ _ h => h.dropReq.sendOnly

theorem Evolves.respond {m : Msg} {status epoch slot seq : ℕ} {body : List Byte} (h : Evolves s t) :
    Evolves s (respond m status epoch slot seq body t) :=
  h.onFab.sendOnly

theorem Evolves.respondSt {m : Msg} {status : ℕ} (h : Evolves s t) : Evolves s (respondSt m status t) :=
  h.respond

theorem Evolves.turnAway {m : Msg} (h : Evolves s t) : Evolves s (turnAway m t) :=
  h.sendOnly

theorem Evolves.fabricDup {m : Msg} (h : Evolves s t) : Evolves s (fabricDup m t).1 := by
  unfold Machine.fabricDup
  split
  · split
    · exact h
    · exact h.sendOnly
    · exact h
  · split
    · exact h.turnAway
    · dsimp only
      exact h.onFab

theorem Evolves.fdupExpire {src req : ℕ} (h : Evolves s t) : Evolves s (fdupExpire src req t) := by
  unfold Machine.fdupExpire
  exact h.onFab

theorem Evolves.onSlot {id slot : ℕ} {f : Slot → Slot} (h : Evolves s t) : Evolves s (onSlot id slot f t) :=
  h.onComp

theorem Evolves.respondRedirect {m : Msg} {c : Comp} {node : ℕ} (h : Evolves s t) :
    Evolves s (respondRedirect m c node t) :=
  h.onXq.respond

theorem Evolves.askOwner {id : ℕ} {c : Comp} {slot node : ℕ} (h : Evolves s t) :
    Evolves s (askOwner id c slot node t) :=
  h.sendOnly

theorem Evolves.holdMsg {m : Msg} (h : Evolves s t) : Evolves s (holdMsg m t) :=
  .ite h h.onFab

theorem Evolves.unholdMsg {m : Msg} (h : Evolves s t) : Evolves s (unholdMsg m t) :=
  h.onFab

theorem Evolves.gateReq {kind : ℕ} {m : Msg} {run : Msg → Comp → State → State} (h : Evolves s t)
    (hrun : ∀ x0 x1 u, Evolves s u → Evolves s (run x0 x1 u)) : Evolves s (gateReq kind m run t) := by
  unfold Machine.gateReq
  split
  · exact h.unholdMsg.respondSt
  · refine .ite h.unholdMsg.respondSt ?_
    split
    · exact h.holdMsg
    · exact h.unholdMsg.respondSt
    · exact h.unholdMsg.respondRedirect
    · extract_lets slot
      cases slot.state with
      | owned => exact hrun _ _ _ h.unholdMsg
      | offering => exact h.unholdMsg.respondRedirect
      | receiving => exact h.holdMsg
      | none => exact .ite h.holdMsg.askOwner h.holdMsg
      | released => exact .ite h.holdMsg.askOwner h.unholdMsg.respondRedirect

theorem Evolves.takeMsg {m : Msg} (h : Evolves s t) : Evolves s (takeMsg m t) :=
  h.onFab

theorem Evolves.handleReq {kind compKind src msg : ℕ} {run : Msg → Comp → State → State} (h : Evolves s t)
    (hrun : ∀ x0 x1 u, Evolves s u → Evolves s (run x0 x1 u)) :
    Evolves s (handleReq kind compKind src msg run t) := by
  unfold Machine.handleReq
  split
  · exact .ite (h.takeMsg.fabricDup.gateReq hrun) h.takeMsg.fabricDup
  · split
    · exact h.gateReq hrun
    · exact h

theorem Evolves.handleRsp {kind src msg : ℕ} {run : Req → Msg → State → State} (h : Evolves s t)
    (hrun : ∀ x0 x1 u, Evolves s u → Evolves s (run x0 x1 u)) : Evolves s (handleRsp kind src msg run t) := by
  unfold Machine.handleRsp
  split
  · exact h
  · dsimp only
    split
    · exact h.takeMsg.onXq
    · exact hrun _ _ _ h.takeMsg.dropReq

theorem Evolves.handleCtrl {kind src msg : ℕ} {run : Msg → State → State} (h : Evolves s t)
    (hrun : ∀ x0 u, Evolves s u → Evolves s (run x0 u)) : Evolves s (handleCtrl kind src msg run t) := by
  unfold Machine.handleCtrl
  split
  · exact h
  · exact hrun _ _ h.takeMsg

theorem Evolves.noteShort {m : Msg} (h : Evolves s t) : Evolves s (noteShort m t) :=
  .ite h.onComp h

theorem Evolves.forgetBlock {comp slot seq : ℕ} (h : Evolves s t) : Evolves s (forgetBlock comp slot seq t) :=
  h.onFab

theorem Evolves.messageDone {m : Msg} (h : Evolves s t) : Evolves s (messageDone m t) := by
  have policed {b : Prop} {_ : Decidable b} {n k : ℕ} {col : Colour} :
      Evolves s (if b then Machine.police n k col (Machine.noteShort m t) else (false, Machine.noteShort m t)).2 := by
    split
    · exact h.noteShort.police
    · exact h.noteShort
  unfold Machine.messageDone
  exact .ite h.onFabCounts (.ite (.turnAway (.ite policed.forgetBlock policed)) policed.onFab)

theorem Evolves.deliver {f : Frame} (h : Evolves s t) : Evolves s (deliver f t) :=
  .ite h.onFab.onFab (.ite h.onFab.onFabCounts (.ite h.onFab.onFab h.onFab.messageDone))

theorem Evolves.dropTransit {f : Frame} (h : Evolves s t) : Evolves s (dropTransit f t) :=
  h.refund.onFabCounts.sendOnly

theorem Evolves.frameReceive {lane : ℕ} (h : Evolves s t) : Evolves s (frameReceive lane t) := by
  unfold Machine.frameReceive
  split
  · exact h
  · exact .ite h.onLane.refund.deliver (.ite h.onLane.dropTransit h.onLane.routeFrame)

theorem Evolves.transitDrop {lane : ℕ} (h : Evolves s t) : Evolves s (transitDrop lane t) := by
  unfold Machine.transitDrop
  dsimp only
  split
  · exact h
  · exact h.onLane.dropTransit

theorem Evolves.laneDown {lane : ℕ} (h : Evolves s t) : Evolves s (laneDown lane t) :=
  .ite (h.laneFails (fun _ _ h => h.resendOf)) h

theorem Evolves.writeLctrlFields {n v : ℕ} (h : Evolves s t) : Evolves s (writeLctrlFields n v t) :=
  .ite h.onLane (.ite h h.onFabCounts)

theorem Evolves.writeLctrl {n v : ℕ} (h : Evolves s t) : Evolves s (writeLctrl n v t) :=
  have hv := h.writeLctrlFields (n := n) (v := v)
  .ite hv.onLane (.ite hv.onLane.onLane (hv.onLane.laneFails fun _ _ h => h.resendOf))

theorem Leads.execFrameReceive {lane : ℕ} : Leads s (execFrameReceive lane s) :=
  (Evolves.refl s).frameReceive.leads

theorem Leads.execTransitDrop {lane now : ℕ} : Leads s (execTransitDrop lane now s) :=
  (Evolves.refl s).atTime.transitDrop.leads

theorem Leads.execLaneDown {lane : ℕ} {cause : LaneFail} : Leads s (execLaneDown lane cause s) := by
  have h := Evolves.refl s
  refine Evolves.leads ?_
  split
  · exact h.laneDown
  · exact .ite h.laneDown h

theorem Leads.execReplayBudgetExpiry {lane now : ℕ} : Leads s (execReplayBudgetExpiry lane now s) :=
  have h := Evolves.refl s
  (Evolves.ite h.atTime.laneDown h.atTime).leads

theorem Leads.execFabricDupExpiry {src req now : ℕ} : Leads s (execFabricDupExpiry src req now s) :=
  (Evolves.refl s).atTime.fdupExpire.leads

theorem Leads.execProbe {src msg : ℕ} : Leads s (execProbe src msg s) :=
  ((Evolves.refl s).handleCtrl (fun _ _ h => h.sendOnly)).leads

theorem Leads.execProbeAck {src msg : ℕ} : Leads s (execProbeAck src msg s) :=
  ((Evolves.refl s).handleCtrl (fun _ _ h => h.onFab)).leads

theorem Leads.execDroppedNotice {src msg : ℕ} : Leads s (execDroppedNotice src msg s) :=
  ((Evolves.refl s).handleCtrl (fun _ _ h => h.foldl (fun _ _ h => h.resendReq))).leads

/-! DRAM codewords -/

theorem Evolves.onDram {stack : ℕ} {f : DramCounts → DramCounts} (h : Evolves s t) : Evolves s (onDram stack f t) :=
  h.onErr

theorem Evolves.logRepair {r : Repair} (h : Evolves s t) : Evolves s (logRepair r t) :=
  .ite h.onErr h.fileRec

theorem Evolves.qualifyRow {stack pc bank row unit : ℕ} (h : Evolves s t) :
    Evolves s (qualifyRow stack pc bank row unit t) := by
  unfold Machine.qualifyRow
  refine .ite h ?_
  refine .ite h.fileRec ?_
  split
  · exact (h.fileErr.of_fst ‹_›).onErr.logRepair

theorem Evolves.noteRead {p : MemPlace} (h : Evolves s t) : Evolves s (noteRead p t) :=
  h.onErr

theorem Evolves.dramCorrected {stack pc bank row unit n : ℕ} (h : Evolves s t) :
    Evolves s (dramCorrected stack pc bank row unit n t) := by
  unfold Machine.dramCorrected
  extract_lets _ _ counted fixed filed
  have hcounted : Evolves s counted := h.noteRead.onDram
  have hfixed : Evolves s fixed := .ite hcounted.onDram.onErr hcounted
  have hfiled : Evolves s filed := hfixed.fileRec
  exact .ite hfiled.qualifyRow hfiled

theorem Evolves.dramLost {cmd : Option Cmd} {stack pc bank row unit : ℕ} (h : Evolves s t) :
    Evolves s (dramLost cmd stack pc bank row unit t).1 := by
  unfold Machine.dramLost
  extract_lets marked _ e
  rcases hf : Machine.fileErr e none false marked with ⟨v, seq, dropped⟩
  exact (h.noteRead.onDram.fileErr.of_fst hf).qualifyRow

theorem Evolves.dramRead {cmd : Option Cmd} {ecc : EccOutcome} {p : MemPlace} (h : Evolves s t) :
    Evolves s (dramRead cmd ecc p t).1 := by
  unfold Machine.dramRead
  split
  · exact h.noteRead
  · exact h.dramCorrected
  · exact h.dramLost

end Sys2Proof.Machine
end

section
/-!
PROOFS. Every operation of the model leads to a state that comes from the one before:
what searches and commit groups do.
-/
namespace Sys2Proof.Machine

variable {s t u : State}

/-! Stalls and stacks -/

theorem Evolves.onStall {n : ℕ} {f : Stall → Stall} (h : Evolves s t) : Evolves s (onStall n f t) :=
  h.onStk

theorem Evolves.onStack {t' : ℕ} {f : Stack → Stack} (h : Evolves s t) : Evolves s (onStack t' f t) :=
  h.onStk

theorem Evolves.setDebt {n v : ℕ} (h : Evolves s t) : Evolves s (setDebt n v t) :=
  h.onStk

/-- A change of a region keeps the regions canonical where it keeps that region canonical. -/
theorem Evolves.onRegion {n : ℕ} {f : Region → Region} (h : Evolves s t)
    (hf : ∀ r, Memory.wf r.mem → Memory.wf (f r).mem) : Evolves s (onRegion n f t) := by
  refine h.onPtn fun hr e he => ?_
  obtain ⟨x, hx, rfl⟩ := List.mem_map.1 he
  split
  · exact hf _ (hr x hx)
  · exact hr x hx

theorem Evolves.onJob {n jid : ℕ} {f : Job → Job} (h : Evolves s t) : Evolves s (onJob n jid f t) :=
  h.onStall

theorem Evolves.addJob {n : ℕ} {j : Job} (h : Evolves s t) : Evolves s (addJob n j t) :=
  h.onStall

theorem Evolves.removeJob {n jid : ℕ} (h : Evolves s t) : Evolves s (removeJob n jid t) :=
  h.onStall

theorem Evolves.dropJobs {c : CmdRef} (h : Evolves s t) : Evolves s (dropJobs c t) :=
  h.foldl fun _ _ h => h.onStall

theorem Evolves.holdAccess {n : ℕ} {a : HubAccess} (h : Evolves s t) : Evolves s (holdAccess n a t) :=
  h.onStack.onStall

theorem Evolves.serveAccess {n ns : ℕ} {a : HubAccess} (h : Evolves s t) : Evolves s (serveAccess n ns t a) := by
  unfold Machine.serveAccess
  split
  · exact h.onStack
  · exact h.onStack.onIndex

theorem Evolves.serveWriteSet {n ns : ℕ} (h : Evolves s t) : Evolves s (serveWriteSet n ns t) :=
  h.onStall.foldl fun _ _ h => h.serveAccess

theorem Evolves.writeBuilding {h' slot : ℕ} (h : Evolves s t) : Evolves s (writeBuilding h' t slot) := by
  unfold Machine.writeBuilding
  split
  · exact h
  · exact h.foldl fun _ _ h => .ite h.holdAccess h.onIndex

/-! The search pipeline -/

theorem Evolves.admitTo {n : ℕ} {q : Query} {ix : Index} (h : Evolves s t) : Evolves s (admitTo n q ix t) :=
  (Evolves.ite h.onQuery.onIndex.onIndex h.onQuery.onIndex).onWlk

theorem Evolves.dropQuery {c : CmdRef} (h : Evolves s t) : Evolves s (dropQuery c t) := by
  unfold Machine.dropQuery
  split
  · exact h
  · exact h.leaveCache.withdrawReads.dropJobs.releaseRefs.onSel.onSrch

theorem Evolves.failQuery {c : CmdRef} {seq : ℕ} {dropped : Bool} (h : Evolves s t) :
    Evolves s (failQuery c seq dropped t) := by
  unfold Machine.failQuery
  split
  · exact h
  · exact h.dropQuery.completeRecData

theorem Evolves.endQuery {c : CmdRef} {st : ℕ} (h : Evolves s t) : Evolves s (endQuery c st t) :=
  h.dropQuery.completeSt

theorem Evolves.admitQuery {p : ℕ} (h : Evolves s t) : Evolves s (admitQuery p t) := by
  unfold Machine.admitQuery
  split
  · exact h
  · split
    · exact h
    · split
      · exact h
      · exact .ite h.endQuery (.ite h.admitTo h)

theorem Evolves.completeTable {c : CmdRef} (h : Evolves s t) : Evolves s (completeTable c t) := by
  unfold Machine.completeTable
  split
  · exact h
  · split
    · exact h
    · exact .ite h.onQuery h

theorem Evolves.countWalk {p : ℕ} {a b : Walk} (h : Evolves s t) : Evolves s (countWalk p a b t) :=
  h.onWlk

theorem Evolves.endWalk {c : CmdRef} {term : ℕ} (h : Evolves s t) : Evolves s (endWalk c term t) :=
  h.onQuery

theorem Evolves.makeRoom {n : ℕ} {keep : Option ℕ} (h : Evolves s t) (he : makeRoom n keep t = some u) :
    Evolves s u := by
  unfold Machine.makeRoom at he
  split at he
  · cases he
  · dsimp only at he
    split at he
    · cases he
      exact h
    · split at he
      · cases he
      · cases he
        exact h.onIndex.takeFree

theorem Evolves.claimFrame {n crate : ℕ} (h : Evolves s t) (he : claimFrame n crate t = some u) : Evolves s u := by
  obtain ⟨v, hv, rfl⟩ := Option.map_eq_some_iff.1 he
  exact (h.makeRoom hv).onIndex

theorem Evolves.requestCrate {c : CmdRef} {demand : Bool} {crate : ℕ} (h : Evolves s t) :
    Evolves s (requestCrate c demand t crate) := by
  unfold Machine.requestCrate
  split
  · exact h
  · split
    · exact h
    · split
      · exact .ite h h.onQuery.onWlk
      · exact .ite h h.onSrch.onQuery.onWlk
      · refine .ite ?_ h
        split
        · exact h
        · exact (h.claimFrame ‹_›).onSrch.onQuery

theorem Evolves.requestCrates {c : CmdRef} (h : Evolves s t) : Evolves s (requestCrates c t) := by
  unfold Machine.requestCrates
  split
  · exact h
  · split
    · exact h
    · exact h.requestCrate.foldl fun _ _ h => h.requestCrate

theorem Evolves.takeFrame {c : CmdRef} {crate : ℕ} (h : Evolves s t) : Evolves s (takeFrame c crate t) := by
  unfold Machine.takeFrame
  split
  · exact h
  · exact .ite h.onQuery h

theorem Evolves.expandHeld {c : CmdRef} {q : Query} {ix : Index} (h : Evolves s t) :
    Evolves s (expandHeld c q ix t) :=
  h.onQuery.releaseFrame.countWalk

theorem Evolves.useFrame {c : CmdRef} {mid : Bool} {crate : ℕ} (h : Evolves s t) :
    Evolves s (useFrame c mid crate t) := by
  unfold Machine.useFrame
  split
  · exact h.takeFrame
  · dsimp only
    split
    · exact h.takeFrame
    · split
      · exact h.takeFrame.expandHeld
      · exact h.takeFrame

theorem Evolves.walkOn {c : CmdRef} {mid : Bool} {q : Query} {ix : Index} (h : Evolves s t) :
    Evolves s (walkOn c mid q ix t) := by
  unfold Machine.walkOn
  split
  · exact h.expandHeld
  · exact h.requestCrate.useFrame
  · dsimp only
    split
    · exact h.endWalk
    · exact h.onQuery.requestCrates.useFrame

theorem Evolves.walkStep {c : CmdRef} {mid : Bool} {ecc : EccOutcome} {p : MemPlace} (h : Evolves s t) :
    Evolves s (walkStep c mid ecc p t) := by
  unfold Machine.walkStep
  split
  · exact h
  · split
    · exact h
    · refine .ite h ?_
      split <;> rename_i he <;> have read := h.dramRead.of_fst he
      · exact read.failQuery
      · exact .ite read.walkOn (.ite read.onQuery read.onQuery.countWalk)

theorem Evolves.issueBatch {h' crate : ℕ} (h : Evolves s t) : Evolves s (issueBatch h' crate t) := by
  unfold Machine.issueBatch
  split
  · exact h
  · refine .ite ?_ h
    split
    · dsimp only
      split
      · exact h.onSrch.onQuery
      · exact h.onSrch.onQuery.onWlk.submitRead
    · dsimp only
      split
      · exact h.onSrch
      · exact h.onSrch.onWlk.submitRead

theorem Evolves.markFailed {h' crate : ℕ} (h : Evolves s t) : Evolves s (markFailed h' crate t) := by
  unfold Machine.markFailed
  exact h.onIndex.onMut

theorem Evolves.crateFails {n crate : ℕ} {filed : Option (ℕ × Bool)} (h : Evolves s t) :
    Evolves s (crateFails n crate filed t) := by
  unfold Machine.crateFails
  split
  · exact h
  · extract_lets
    split
    rename_i v _ _ hfiled
    have hv : Evolves s v := by
      split at hfiled
      · cases hfiled
        exact h
      · exact h.fileErr.of_fst hfiled
    exact (Evolves.ite hv.onSrch.onIndex hv.onSrch.onIndex.markFailed).foldl fun _ _ h => h.failQuery

theorem Evolves.crateArrives {h' crate : ℕ} {checksOk : Bool} (h : Evolves s t) :
    Evolves s (crateArrives h' crate checksOk t) := by
  unfold Machine.crateArrives
  split
  · exact h
  · rename_i he
    have taken := h.takeArrived he
    split
    · exact taken
    · split
      · exact taken.onIndex
      · exact .ite taken.crateFails (.ite taken.crateFails taken.onSrch.onIndex)

theorem Evolves.issueRerank {c : CmdRef} {i : ℕ} (h : Evolves s t) : Evolves s (issueRerank c i t) := by
  unfold Machine.issueRerank
  split
  · exact h
  · split
    · exact .ite (.ite h.onSrch.onQuery.onWlk.submitRerank (.ite h h.onSrch)) h
    · exact h

theorem Evolves.startRerank {q : Query} {ix : Index} {n : ℕ} (h : Evolves s t) : Evolves s (startRerank q ix n t) :=
  .ite h h.addJob

theorem Evolves.rerankArrives {c : CmdRef} {i : ℕ} (h : Evolves s t) : Evolves s (rerankArrives c i t) := by
  unfold Machine.rerankArrives
  split
  · refine .ite h ?_
    refine .ite (h.takeEntry ‹_›).onQuery ?_
    split
    · exact h.takeEntry ‹_›
    · exact (h.takeEntry ‹_›).failQuery
    · split
      · exact (h.takeEntry ‹_›).onQuery
      · exact (h.takeEntry ‹_›).onQuery.startRerank
  · exact h

theorem Evolves.computeEntry {c : CmdRef} {i : ℕ} (h : Evolves s t) : Evolves s (computeEntry c i t) := by
  unfold Machine.computeEntry
  split
  · exact h
  · split
    · exact h
    · exact h.onQuery

theorem Evolves.parkQuery {q : Query} (h : Evolves s t) : Evolves s (parkQuery q t) := by
  unfold Machine.parkQuery
  split
  · exact h
  · exact h
  · exact h.onSrch.leaveCache.onQuery

theorem Evolves.parkQueries {p : ℕ} {sel : Query → Bool} (h : Evolves s t) : Evolves s (parkQueries p sel t) :=
  h.foldl fun _ _ h => h.parkQuery

theorem Evolves.resumeQueries {p : ℕ} {sel : Query → Bool} (h : Evolves s t) : Evolves s (resumeQueries p sel t) := by
  unfold Machine.resumeQueries
  exact h.onSrch

theorem Evolves.freeSel {n : ℕ} (h : Evolves s t) : Evolves s (freeSel n t) :=
  h.onSel

theorem Evolves.chooseResults {c : CmdRef} {q : Query} {resultOk : Bool} (h : Evolves s t) :
    Evolves s (chooseResults c q resultOk t) :=
  (Evolves.ite h.onQuery h.dropQuery).finish

theorem Evolves.selectSearch {c : CmdRef} {mid resultOk : Bool} (h : Evolves s t) :
    Evolves s (selectSearch c mid resultOk t) := by
  unfold Machine.selectSearch
  split
  · exact h
  · refine .ite h ?_
    split
    · exact .ite h h.freeSel.chooseResults
    · split
      · exact h.endQuery
      · exact .ite h (.ite h.onSel h.chooseResults)

theorem Leads.execDistanceTableComplete {c : CmdRef} : Leads s (execDistanceTableComplete c s) :=
  (Evolves.refl s).completeTable.leads

theorem Leads.execCrateBatchIssue {handle crate now : ℕ} : Leads s (execCrateBatchIssue handle crate now s) :=
  (Evolves.refl s).atTime.issueBatch.leads

theorem Leads.execRerankReadIssue {c : CmdRef} {i : ℕ} : Leads s (execRerankReadIssue c i s) :=
  (Evolves.refl s).issueRerank.leads

/-! The start of a search -/

theorem Evolves.enterAdmission {op : ℕ} {k : Cmd} {ps inp : List Byte} (h : Evolves s t) :
    Evolves s (enterAdmission op k ps inp t) := by
  unfold Machine.enterAdmission
  split
  · exact h
  · exact h.onSrch

/-! Commit groups -/

theorem Evolves.addGroup {g : Group} (h : Evolves s t) : Evolves s (addGroup g t) := by
  unfold Machine.addGroup
  exact h.onIndex.onMut

theorem Evolves.buildGroup {ups : Bool} {k : Cmd} {d : CmdIn} {ps inp : List Byte} {ix : Index} (h : Evolves s t) :
    Evolves s (buildGroup ups k d ps inp ix t) := by
  unfold Machine.buildGroup
  extract_lets
  split
  · exact h.completeSt
  · exact (Evolves.ite h.markFailed h).failCmd
  · exact h.addGroup

theorem Evolves.beginInsert {ups : Bool} {d : CmdIn} {k : Cmd} {ps inp : List Byte} (h : Evolves s t) :
    Evolves s (beginInsert ups d k ps inp t) := by
  unfold Machine.beginInsert
  split
  · exact h
  · split
    · exact (h.dramRead.of_fst ‹_›).completeRec
    · exact (h.dramRead.of_fst ‹_›).buildGroup

theorem Evolves.beginDelete {k : Cmd} {ps inp : List Byte} (h : Evolves s t) :
    Evolves s (beginDelete k ps inp t) := by
  unfold Machine.beginDelete
  split
  · exact h
  · exact h.addGroup

theorem Evolves.freshFrame {h' crate : ℕ} (h : Evolves s t) : Evolves s (freshFrame h' t crate) := by
  unfold Machine.freshFrame
  split
  · exact h
  · extract_lets
    split
    · exact h.onSrch.onIndex.onIndex
    · rename_i he
      exact (h.onSrch.onIndex.makeRoom he).onIndex

theorem Evolves.releaseGroup {g : Group} (h : Evolves s t) : Evolves s (releaseGroup g t) :=
  h.onMut

theorem Evolves.startPass {h' : ℕ} (h : Evolves s t) : Evolves s (startPass h' t) :=
  .ite h h.onMut

theorem Evolves.triggerPass {h' : ℕ} (h : Evolves s t) : Evolves s (triggerPass t h') := by
  unfold Machine.triggerPass
  split
  · exact h
  · exact .ite h.startPass h

theorem Evolves.triggerAll (h : Evolves s t) : Evolves s (triggerAll t) :=
  h.foldl fun _ _ h => h.triggerPass

theorem Evolves.failGroup {g : Group} {st : ℕ} (h : Evolves s t) : Evolves s (failGroup g st t) :=
  h.releaseGroup.completeSt

theorem Evolves.failGroupRec {g : Group} {e : Rec} (h : Evolves s t) : Evolves s (failGroupRec g e t) :=
  h.releaseGroup.failCmd

theorem Evolves.writeCrate {h' csn : ℕ} {ix : Index} {c : ℕ} (h : Evolves s t) :
    Evolves s (writeCrate h' csn ix t c) :=
  h.program.onWlk

theorem Evolves.writeOwn {p : Published} (h : Evolves s t) : Evolves s (writeOwn p t) :=
  (h.foldl (fun _ _ h => h.writeCrate)).queueGroups

/-- Where one of the parts in turn has no outcome, the whole has none. -/
theorem foldl_bind_none {α : Type} {f : α → State → Option State} {l : List α} :
    l.foldl (fun acc a => acc.bind (f a)) none = none := by
  induction l with
  | nil => rfl
  | cons _ _ ih => exact ih

theorem Evolves.writeVectors {n csn : ℕ} {lpns : List ℕ} (h : Evolves s t) (he : writeVectors n csn lpns t = some u) :
    Evolves s u := by
  unfold Machine.writeVectors at he
  induction lpns generalizing t with
  | nil =>
    cases he
    exact h
  | cons l ls ih =>
    rw [List.foldl_cons, Option.bind_some] at he
    cases hp : Machine.programNow (indexTag n l csn) .index t with
    | none =>
      rw [hp, foldl_bind_none] at he
      cases he
    | some v =>
      rw [hp] at he
      exact ih (h.programNow hp) he

theorem Evolves.publishGroup {g : Group} {ix : Index} {oldest : ℕ} {resultOk : Bool} (h : Evolves s t) :
    Evolves s (publishGroup g ix oldest resultOk t) := by
  unfold Machine.publishGroup
  extract_lets _ _ _ _ _ _ released built fresh counted
  have hreleased : Evolves s released := h.onIndex.releaseGroup.onCmd
  have hbuilt : Evolves s built := hreleased.foldl fun _ _ h => h.writeBuilding
  have hfresh : Evolves s fresh := hbuilt.foldl fun _ _ h => h.freshFrame
  have hcounted : Evolves s counted := hfresh.onWlk
  exact .ite hcounted.onMut.writeOwn.triggerPass hcounted.onMut.writeOwn.triggerPass.finish

theorem Evolves.vectorFails {g : Group} {ix : Index} (h : Evolves s t) : Evolves s (vectorFails g ix t) := by
  unfold Machine.vectorFails
  refine .ite h ?_
  split
  · exact h
  · exact (h.placeProgram ‹_›).failGroupRec.retireBlock

theorem Evolves.groupCrateFails {g : Group} {ix : Index} {how : ReadOutcome} {c : ℕ} (h : Evolves s t) :
    Evolves s (groupCrateFails g ix how c t) :=
  (Evolves.ite h.markFailed h).failGroupRec

theorem Evolves.groupPublish {id crate : ℕ} {read : ReadOutcome} {vectorsOk resultOk : Bool} (h : Evolves s t) :
    Evolves s (groupPublish id crate read vectorsOk resultOk t) := by
  unfold Machine.groupPublish
  split
  · exact h
  · split
    · exact h.failGroup
    · refine .ite h ?_
      refine .ite h.vectorFails ?_
      split
      · exact h.groupCrateFails
      · refine .ite h ?_
        split
        · exact h
        · exact (h.writeVectors ‹_›).publishGroup

theorem Evolves.ringExpire {id : ℕ} (h : Evolves s t) : Evolves s (ringExpire id t) := by
  unfold Machine.ringExpire
  split
  · exact h
  · split
    · exact h
    · exact .ite h.failGroup.onWlk h

theorem Evolves.crateWriteback {h' crate : ℕ} (h : Evolves s t) : Evolves s (crateWriteback h' crate t) := by
  unfold Machine.crateWriteback
  split
  · exact h
  · exact .ite h.onMut.writeCrate h

theorem Evolves.sweepNext {h' : ℕ} {ix : Index} (h : Evolves s t) : Evolves s (sweepNext h' ix t) :=
  .ite h.onMut.triggerPass h.onMut

theorem Evolves.sweepFails {h' : ℕ} {ix : Index} {crate : ℕ} {how : ReadOutcome} (h : Evolves s t) :
    Evolves s (sweepFails h' ix crate how t) :=
  (Evolves.ite h.fileRec.markFailed h.fileRec).sweepNext

theorem Evolves.publishRepair {h' : ℕ} {ix : Index} {oldest : ℕ} {xs crates : List ℕ} (h : Evolves s t) :
    Evolves s (publishRepair h' ix oldest xs crates t) :=
  (h.onIndex.foldl (fun _ _ h => h.freshFrame)).onWlk.onMut.writeOwn

theorem Evolves.sweepCrate {crate : ℕ} {read : ReadOutcome} (h : Evolves s t) :
    Evolves s (sweepCrate crate read t) := by
  unfold Machine.sweepCrate
  split
  · exact h
  · split
    · exact h.onMut
    · refine .ite h ?_
      refine .ite h.sweepFails ?_
      refine .ite (Evolves.ite h.onMut h).sweepNext ?_
      split
      · dsimp only
        split
        · exact h.sweepFails
        · exact h
      · dsimp only
        split
        · exact h.sweepFails
        · exact h.publishRepair.sweepNext

theorem Evolves.writeRepair {f : Fn} {v : ℕ} (h : Evolves s t) : Evolves s (writeRepair f v t) :=
  .ite (.ite h.onMut.startPass h.onMut.fileBadValue) h.onMut

theorem Evolves.onKept {h' : ℕ} {f : Index → Index} (h : Evolves s t) : Evolves s (onKept h' f t) :=
  h.onMut

theorem Evolves.beginSwap {k : Cmd} {ps inp : List Byte} (h : Evolves s t) : Evolves s (beginSwap k ps inp t) := by
  unfold Machine.beginSwap
  split
  · exact h
  · exact h.onIndex.onKept.writeMeta.onMut.onCmd.complete

theorem Evolves.indexMount {h' : ℕ} (h : Evolves s t) : Evolves s (indexMount h' t) := by
  unfold Machine.indexMount
  split
  · exact h
  · exact .ite h.onIndex.triggerPass h

theorem Leads.execGroupPublish {g crate : ℕ} {read : ReadOutcome} {vectorsOk resultOk : Bool} :
    Leads s (execGroupPublish g crate read vectorsOk resultOk s) :=
  (Evolves.refl s).groupPublish.leads

theorem Leads.execRingWaitExpiry {g now : ℕ} : Leads s (execRingWaitExpiry g now s) :=
  (Evolves.refl s).atTime.ringExpire.leads

theorem Leads.execCrateWriteback {handle crate : ℕ} : Leads s (execCrateWriteback handle crate s) :=
  (Evolves.refl s).crateWriteback.leads

theorem Leads.execRepairCrateSweep {crate : ℕ} {read : ReadOutcome} : Leads s (execRepairCrateSweep crate read s) :=
  (Evolves.refl s).sweepCrate.leads

end Sys2Proof.Machine
end

section
/-!
PROOFS. Every operation of the model leads to a state that comes from the one before:
what stalls do.
-/
namespace Sys2Proof.Machine

variable {s t u : State}

/-! Jobs on stalls -/

theorem Evolves.onRun {c : CmdRef} {f : StallRun → StallRun} (h : Evolves s t) : Evolves s (onRun c f t) :=
  h.onStk

theorem Evolves.finishRun {c : CmdRef} (h : Evolves s t) : Evolves s (finishRun c t) := by
  unfold Machine.finishRun
  split
  · exact h
  · refine .ite h ?_
    split
    · exact .ite h.onStk.completeRecData h.onStk.finish
    · exact h.onStk.finish

theorem Evolves.launchEnds {n : ℕ} {j : Job} {state fault ns : ℕ} (h : Evolves s t) :
    Evolves s (launchEnds n j state fault ns t) :=
  h.onRun.finishRun

theorem Evolves.dropRowCmd {c : CmdRef} (h : Evolves s t) : Evolves s (dropRowCmd c t) :=
  h.onStk

theorem Evolves.onMeta {h' : ℕ} {f : Index → Index} (h : Evolves s t) : Evolves s (onMeta h' f t) :=
  h.onKept.onMut.writeMeta

theorem Evolves.deriveJobs {c : RowCmd} {ctx rows : ℕ} (h : Evolves s t) : Evolves s (deriveJobs c ctx rows t) :=
  h.foldl fun _ _ h => h.addJob

theorem Evolves.addRowCmd {c : RowCmd} (h : Evolves s t) : Evolves s (addRowCmd c t) :=
  h.onStk

theorem Evolves.finishDerive {c : RowCmd} (h : Evolves s t) : Evolves s (finishDerive c t) := by
  unfold Machine.finishDerive
  split
  · exact h.completeSt
  · exact .ite (.ite h.onIndex.completeSt h.onIndex.addRowCmd.deriveJobs) h.onIndex.onMeta.complete

theorem Evolves.rowJobEnds {c : CmdRef} (h : Evolves s t) : Evolves s (rowJobEnds c t) := by
  unfold Machine.rowJobEnds
  split
  · exact h
  · exact .ite h.onStk (.ite h.dropRowCmd.finishDerive h.dropRowCmd.complete)

theorem Evolves.rowCmdFails {c : CmdRef} {seq : ℕ} {dropped : Bool} (h : Evolves s t) :
    Evolves s (rowCmdFails c seq dropped t) := by
  unfold Machine.rowCmdFails
  split
  · exact h
  · exact (Evolves.ite h.dropJobs.dropRowCmd.onIndex h.dropJobs.dropRowCmd).completeRec

theorem Evolves.layerJobEnds {n : ℕ} {c : CmdRef} {i : ℕ} (h : Evolves s t) : Evolves s (layerJobEnds n c i t) := by
  unfold Machine.layerJobEnds
  exact h.onTil (by exact id)

theorem Evolves.tableJobEnds {n : ℕ} {c : CmdRef} (h : Evolves s t) : Evolves s (tableJobEnds n c t) := by
  unfold Machine.tableJobEnds
  exact h.onEmb

theorem Evolves.serviceFails {c : CmdRef} {bad : ℕ × Bool} (h : Evolves s t) : Evolves s (serviceFails c bad t) := by
  unfold Machine.serviceFails
  exact (h.dropJobs.onTil (by exact id)).onEmb

theorem Evolves.jobEnds {n : ℕ} {j : Job} {state fault ns : ℕ} (h : Evolves s t) :
    Evolves s (jobEnds n j state fault ns t) := by
  unfold Machine.jobEnds
  refine .ite h.removeJob ?_
  split
  · exact h.removeJob.launchEnds
  · exact h.removeJob.rowJobEnds
  · exact h.removeJob.rowJobEnds
  · exact h.removeJob
  · exact h.removeJob.layerJobEnds
  · exact h.removeJob.tableJobEnds

theorem Evolves.stopLaunches {c : CmdRef} {ns : ℕ} (h : Evolves s t) : Evolves s (stopLaunches c ns t) :=
  h.foldl (fun _ _ h => by
    dsimp only
    split
    · exact h
    · exact .ite h.onJob h.jobEnds)

theorem Evolves.closeSegment {n ns : ℕ} (h : Evolves s t) : Evolves s (closeSegment n ns t) := by
  unfold Machine.closeSegment
  extract_lets +onlyGivenNames _
  split
  · exact h.onStall
  · extract_lets _ _ paid served closed
    have hpaid : Evolves s paid := h.setDebt.onStack
    have hclosed : Evolves s closed := hpaid.serveWriteSet.onJob.onStall
    split
    · exact hclosed.jobEnds
    · exact .ite hclosed.jobEnds (.ite hclosed.jobEnds hclosed)

theorem Evolves.openSegment {n ns : ℕ} (h : Evolves s t) : Evolves s (openSegment n ns t) := by
  unfold Machine.openSegment
  dsimp only
  split
  · exact h
  · exact h.onJob.onStall

theorem Evolves.rowOperate {op : ℕ} {d a b : ℕ × ℕ} (h : Evolves s t) : Evolves s (rowOperate op d a b t) :=
  h.onRegion fun _ => wf_writeBytes _ _ _

theorem Evolves.countRow {c : CmdRef} (h : Evolves s t) : Evolves s (countRow c t) :=
  h.onStk

theorem Evolves.setJobWork {n : ℕ} {j : Job} {w : Work} {last : Bool} (h : Evolves s t) :
    Evolves s (setJobWork n j w last t) :=
  h.onJob

theorem Evolves.rowsStep {n : ℕ} {j : Job} {ops : List RowEntry} {next : ℕ} (h : Evolves s t) :
    Evolves s (rowsStep n j ops next t) := by
  unfold Machine.rowsStep
  split
  · exact h.setJobWork
  · exact (Evolves.ite h.rowOperate h.rowOperate.countRow).setJobWork

theorem Evolves.deriveStep {n : ℕ} {j : Job} {h' f row step : ℕ} (h : Evolves s t) :
    Evolves s (deriveStep n j h' f row step t) := by
  unfold Machine.deriveStep
  split
  · exact h.setJobWork
  · dsimp only
    split
    · exact h.setJobWork
    · exact h.onIndex.onStall.setJobWork

theorem Evolves.rerankStep {n : ℕ} {j : Job} {left : ℕ} (h : Evolves s t) : Evolves s (rerankStep n j left t) := by
  unfold Machine.rerankStep
  split
  · exact .ite h.setJobWork h.computeEntry.setJobWork
  · exact h

theorem Evolves.tableStep {n : ℕ} {j : Job} {h' : ℕ} {w : Bool} {rows : List ℕ} {left : ℕ}
    {lost : Option (ℕ × Bool)} (h : Evolves s t) : Evolves s (tableStep n j h' w rows left lost t) :=
  (Evolves.ite h h.onEmb).setJobWork

theorem Evolves.activationEffect {n : ℕ} {j : Job} {need : Need} (h : Evolves s t) :
    Evolves s (activationEffect n j need t) := by
  unfold Machine.activationEffect
  split
  · exact h
  · exact h.onStall
  · exact h.onStall
  · exact h.rowsStep
  · exact h.deriveStep
  · exact h.rerankStep
  · exact h.setJobWork
  · exact h.tableStep

theorem Evolves.activationFails {n : ℕ} {j : Job} {row unit ns : ℕ} (h : Evolves s t) :
    Evolves s (activationFails n j row unit ns t) := by
  unfold Machine.activationFails
  extract_lets cmd
  rcases hf : Machine.dramLost cmd (n / 32) (n % 32) (row % 32) (row / 32) unit t with ⟨v, seq, dropped⟩
  have lost := h.dramLost.of_fst hf
  refine .ite lost.onJob ?_
  split
  · exact lost.onJob.onRun.stopLaunches
  · exact lost.onJob.rowCmdFails
  · exact lost.onJob.rowCmdFails
  · exact lost.onJob.failQuery
  · exact lost.onJob.serviceFails
  · exact .ite lost.tableStep lost.onJob.serviceFails

theorem Evolves.activate {n ns : ℕ} {ecc : EccOutcome} {row unit : ℕ} (h : Evolves s t) :
    Evolves s (activate n ns ecc row unit t) := by
  unfold Machine.activate
  extract_lets
  split
  · exact h
  · extract_lets _ _ _ _ _ counted
    have hv : Evolves s counted := h.onStack.onStall.onJob
    refine .ite h (.ite h.onStall (.ite h.onStack.onStall ?_))
    cases ecc with
    | clean => exact hv.activationEffect
    | corrected _ => exact hv.dramCorrected.activationEffect
    | uncorrectable => exact hv.activationFails

theorem Evolves.serveHub {n ns : ℕ} {hub : List (ℕ × ℕ)} (h : Evolves s t) : Evolves s (serveHub n ns hub t) :=
  h.foldl fun _ _ h => .ite h.holdAccess h.serveAccess

theorem Evolves.nextSegment {n ns : ℕ} {ecc : EccOutcome} {row unit : ℕ} (h : Evolves s t) :
    Evolves s (nextSegment n ns ecc row unit t) := by
  unfold Machine.nextSegment
  dsimp only
  split
  · exact h.openSegment.activationFails
  · exact h.openSegment.activate

theorem Evolves.boundary {n ns : ℕ} {hub : List (ℕ × ℕ)} {ecc : EccOutcome} {row unit : ℕ} (h : Evolves s t) :
    Evolves s (boundary n ns hub ecc row unit t) := by
  unfold Machine.boundary
  extract_lets served
  have hv : Evolves s served := h.serveHub
  refine .ite h (.ite hv ?_)
  split
  · exact hv.nextSegment
  · exact .ite hv.closeSegment.nextSegment (.ite hv.setDebt.onStack.onStall.activate hv.activate)

theorem Evolves.debtRises {stack pc : ℕ} (h : Evolves s t) : Evolves s (debtRises stack pc t) :=
  .ite h.onStack.setDebt.onStack h.onStack.setDebt

theorem Leads.execRefreshDebtIncrement {stack pc : ℕ} : Leads s (execRefreshDebtIncrement stack pc s) :=
  (Evolves.refl s).debtRises.leads

theorem Leads.execRefreshClassEvaluation {stack temp : ℕ} : Leads s (execRefreshClassEvaluation stack temp s) :=
  (Evolves.refl s).onStack.leads

/-! The stall instruction set -/

theorem Lawful.onRegs {f : Job → Job} : Lawful (onRegs f) := by
  intro s t j r h he
  cases he
  exact h

/-- An instruction that issues does its effect, waits, or leaves the state alone. -/
theorem Evolves.issue {n opc : ℕ} {fields : List (ℕ × ℕ × ℕ)} {reads : List (RegClass × ℕ)} {act : Effect}
    (h : Evolves s t) (hact : Lawful act) : Evolves s (issue n opc fields reads act t) := by
  unfold Machine.issue
  split
  · exact h
  · split
    · exact h
    · refine .ite h ?_
      dsimp only
      split
      · exact h
      · rename_i hr
        exact (hact h hr).onJob

theorem Lawful.putLanes {d : ℕ} {xs : List (Option ℕ)} : Lawful (putLanes d xs) := by
  intro s t j r h he
  cases he
  exact .ite h.takeFree h

theorem Lawful.putAcc {d : ℕ} {xs : List AccOut} : Lawful (putAcc d xs) := by
  intro s t j r h he
  cases he
  exact .ite h.takeFree h

theorem Lawful.convertLanes {d : ℕ} {vs : List Fv} : Lawful (convertLanes d vs) := by
  intro s t j r h he
  exact Lawful.putLanes (.ite h h.onTilCounts) he

theorem Lawful.mapLanes {f : ℕ → Bool → W16 → W16 → Option ℕ} {d a b : ℕ} : Lawful (mapLanes f d a b) :=
  fun _ _ _ _ h he => Lawful.putLanes h he

theorem Lawful.mapAcc {f : ℕ → Bool → W16 → W16 → AccOut} {d : ℕ} {a b : Job → List W16} : Lawful (mapAcc f d a b) :=
  fun _ _ _ _ h he => Lawful.putAcc h he

theorem Lawful.zipAcc {f : Bool → ℕ → ℕ → AccOut} {d a : ℕ} {b : Job → List ℕ} : Lawful (zipAcc f d a b) :=
  fun _ _ _ _ h he => Lawful.putAcc h he

theorem Lawful.memAccess {n w sa imm size : ℕ} {inc : Bool} {f : ℕ → ℕ → Effect} (hf : ∀ r b, Lawful (f r b)) :
    Lawful (memAccess n w sa imm size inc f) := by
  intro s t j r h he
  unfold Machine.memAccess at he
  split at he
  · cases he
    exact h
  · rename_i r b _
    split at he
    · cases he
    · split at he
      · cases he
      · rename_i hr
        have done := hf r b h hr
        cases he
        exact done

theorem Lawful.loadInto {cls : RegClass} {reg size plus r b : ℕ} : Lawful (loadInto cls reg size plus r b) := by
  intro s t j r h he
  unfold Machine.loadInto at he
  split at he
  · cases he
  · cases he
    exact h

theorem Lawful.storeFrom {bytes : Job → List Byte} {r b : ℕ} : Lawful (storeFrom bytes r b) := by
  intro s t j r h he
  cases he
  exact h.onRegion fun _ => wf_writeBytes _ _ _

theorem Leads.execStallNop {st : ℕ} : Leads s (execStallNop st s) :=
  ((Evolves.refl s).issue .onRegs).leads

theorem Leads.execStallEnd {st : ℕ} : Leads s (execStallEnd st s) :=
  ((Evolves.refl s).issue .onRegs).leads

theorem Leads.execStallSeg {st : ℕ} : Leads s (execStallSeg st s) :=
  have seg : Lawful fun j s => some (j, onStall st (fun x => { x with endReq := true }) s) := by
    intro s t j r h he
    cases he
    exact h.onStall
  ((Evolves.refl s).issue seg).leads

theorem Leads.execStallBr {st target : ℕ} : Leads s (execStallBr st target s) :=
  ((Evolves.refl s).issue .onRegs).leads

theorem Leads.execStallDbnz {st sd target : ℕ} : Leads s (execStallDbnz st sd target s) :=
  ((Evolves.refl s).issue .onRegs).leads

theorem Leads.execStallBz {st sd target : ℕ} : Leads s (execStallBz st sd target s) :=
  ((Evolves.refl s).issue .onRegs).leads

theorem Leads.execStallSetmode {st lt : ℕ} {at1 rnd : Bool} : Leads s (execStallSetmode st lt at1 rnd s) :=
  ((Evolves.refl s).issue .onRegs).leads

theorem Leads.execStallLd {st reg w sa : ℕ} {inc : Bool} {imm : ℕ} : Leads s (execStallLd st reg w sa inc imm s) :=
  ((Evolves.refl s).issue (.memAccess (fun _ _ => .loadInto))).leads

theorem Leads.execStallSt {st reg w sa : ℕ} {inc : Bool} {imm : ℕ} : Leads s (execStallSt st reg w sa inc imm s) :=
  ((Evolves.refl s).issue (.memAccess (fun _ _ => .storeFrom))).leads

theorem Leads.execStallLda {st reg w sa : ℕ} {inc : Bool} {imm : ℕ} : Leads s (execStallLda st reg w sa inc imm s) :=
  ((Evolves.refl s).issue (.memAccess (fun _ _ => .loadInto))).leads

theorem Leads.execStallSta {st reg w sa : ℕ} {inc : Bool} {imm : ℕ} : Leads s (execStallSta st reg w sa inc imm s) :=
  ((Evolves.refl s).issue (.memAccess (fun _ _ => .storeFrom))).leads

theorem Leads.execStallLds {st reg w sa : ℕ} {inc : Bool} {imm : ℕ} : Leads s (execStallLds st reg w sa inc imm s) :=
  ((Evolves.refl s).issue (.memAccess (fun _ _ => .loadInto))).leads

theorem Leads.execStallSts {st reg w sa : ℕ} {inc : Bool} {imm : ℕ} : Leads s (execStallSts st reg w sa inc imm s) :=
  ((Evolves.refl s).issue (.memAccess (fun _ _ => .storeFrom))).leads

theorem Lawful.ropEffect {n : ℕ} : Lawful (ropEffect n) := by
  intro s t j r h he
  unfold Machine.ropEffect at he
  split at he
  · cases he
  · dsimp only at he
    split at he
    · cases he
      exact h
    · split at he
      · cases he
        exact h
      · split at he
        · cases he
        · cases he
          exact h.rowOperate.onStall

theorem Leads.execStallRop {st op wd sd wa sa wb sb : ℕ} : Leads s (execStallRop st op wd sd wa sa wb sb s) :=
  ((Evolves.refl s).issue .ropEffect).leads

theorem Evolves.scalar2 {st opc sd sa sb : ℕ} {f : W32 → W32 → W32} (h : Evolves s t) :
    Evolves s (scalar2 st opc sd sa sb f t) :=
  h.issue .onRegs

theorem Evolves.scalarImm {st opc sd sa imm : ℕ} {f : W32 → ℕ → W32} (h : Evolves s t) :
    Evolves s (scalarImm st opc sd sa imm f t) :=
  h.issue .onRegs

theorem Leads.execStallSadd {st sd sa sb : ℕ} : Leads s (execStallSadd st sd sa sb s) :=
  (Evolves.refl s).scalar2.leads

theorem Leads.execStallSsub {st sd sa sb : ℕ} : Leads s (execStallSsub st sd sa sb s) :=
  (Evolves.refl s).scalar2.leads

theorem Leads.execStallSmul {st sd sa sb : ℕ} : Leads s (execStallSmul st sd sa sb s) :=
  (Evolves.refl s).scalar2.leads

theorem Leads.execStallSaddi {st sd sa imm : ℕ} : Leads s (execStallSaddi st sd sa imm s) :=
  (Evolves.refl s).scalarImm.leads

theorem Leads.execStallSmuli {st sd sa imm : ℕ} : Leads s (execStallSmuli st sd sa imm s) :=
  (Evolves.refl s).scalarImm.leads

theorem Leads.execStallSshli {st sd sa imm : ℕ} : Leads s (execStallSshli st sd sa imm s) :=
  (Evolves.refl s).scalarImm.leads

theorem Leads.execStallSshri {st sd sa imm : ℕ} : Leads s (execStallSshri st sd sa imm s) :=
  (Evolves.refl s).scalarImm.leads

theorem Leads.execStallSandi {st sd sa imm : ℕ} : Leads s (execStallSandi st sd sa imm s) :=
  (Evolves.refl s).scalarImm.leads

theorem Leads.execStallSori {st sd sa imm : ℕ} : Leads s (execStallSori st sd sa imm s) :=
  (Evolves.refl s).scalarImm.leads

theorem Leads.execStallSlui {st sd imm : ℕ} : Leads s (execStallSlui st sd imm s) :=
  ((Evolves.refl s).issue .onRegs).leads

theorem Leads.execStallVmac {st ad va vb : ℕ} : Leads s (execStallVmac st ad va vb s) :=
  ((Evolves.refl s).issue .mapAcc).leads

theorem Leads.execStallVmacs {st ad va ss : ℕ} : Leads s (execStallVmacs st ad va ss s) :=
  ((Evolves.refl s).issue .mapAcc).leads

theorem Leads.execStallVsqd {st ad va vb : ℕ} : Leads s (execStallVsqd st ad va vb s) :=
  ((Evolves.refl s).issue .mapAcc).leads

theorem Leads.execStallVadd {st vd va vb : ℕ} : Leads s (execStallVadd st vd va vb s) :=
  ((Evolves.refl s).issue .mapLanes).leads

theorem Leads.execStallVsub {st vd va vb : ℕ} : Leads s (execStallVsub st vd va vb s) :=
  ((Evolves.refl s).issue .mapLanes).leads

theorem Leads.execStallVmul {st vd va vb : ℕ} : Leads s (execStallVmul st vd va vb s) :=
  ((Evolves.refl s).issue .mapLanes).leads

theorem Leads.execStallVmax {st vd va vb : ℕ} : Leads s (execStallVmax st vd va vb s) :=
  ((Evolves.refl s).issue .mapLanes).leads

theorem Leads.execStallVmin {st vd va vb : ℕ} : Leads s (execStallVmin st vd va vb s) :=
  ((Evolves.refl s).issue .mapLanes).leads

theorem Leads.execStallVbcast {st vd ss : ℕ} : Leads s (execStallVbcast st vd ss s) :=
  ((Evolves.refl s).issue .onRegs).leads

theorem Leads.execStallVmov {st vd va : ℕ} : Leads s (execStallVmov st vd va s) :=
  ((Evolves.refl s).issue .onRegs).leads

theorem Leads.execStallUnpk4 {st vd va ss quarter : ℕ} {fp4 fp8Scale : Bool} :
    Leads s (execStallUnpk4 st vd va ss quarter fp4 fp8Scale s) :=
  ((Evolves.refl s).issue fun _ _ _ _ h e => Lawful.convertLanes h e).leads

theorem Leads.execStallUnpk8 {st vd va : ℕ} {upper : Bool} {ef : ℕ} : Leads s (execStallUnpk8 st vd va upper ef s) :=
  ((Evolves.refl s).issue fun _ _ _ _ h e => Lawful.convertLanes h e).leads

theorem Leads.execStallVrsq {st vd va : ℕ} : Leads s (execStallVrsq st vd va s) :=
  ((Evolves.refl s).issue fun _ _ _ _ h e => Lawful.putLanes h e).leads

theorem Leads.execStallVrcp {st vd va : ℕ} : Leads s (execStallVrcp st vd va s) :=
  ((Evolves.refl s).issue fun _ _ _ _ h e => Lawful.putLanes h e).leads

theorem Leads.execStallAclr {st ad : ℕ} : Leads s (execStallAclr st ad s) :=
  ((Evolves.refl s).issue .onRegs).leads

theorem Leads.execStallAadd {st ad aa : ℕ} : Leads s (execStallAadd st ad aa s) :=
  ((Evolves.refl s).issue .zipAcc).leads

theorem Leads.execStallAmul {st ad aa : ℕ} : Leads s (execStallAmul st ad aa s) :=
  ((Evolves.refl s).issue .zipAcc).leads

theorem Leads.execStallAmuls {st ad ss : ℕ} : Leads s (execStallAmuls st ad ss s) :=
  ((Evolves.refl s).issue .zipAcc).leads

theorem Leads.execStallAwid {st ad va : ℕ} : Leads s (execStallAwid st ad va s) :=
  ((Evolves.refl s).issue fun _ _ _ _ h e => Lawful.putAcc h e).leads

theorem Leads.execStallCvt {st vd aa : ℕ} : Leads s (execStallCvt st vd aa s) :=
  ((Evolves.refl s).issue fun _ _ _ _ h e => Lawful.convertLanes h e).leads

theorem Leads.execStallAred {st ss aa : ℕ} : Leads s (execStallAred st ss aa s) :=
  ((Evolves.refl s).issue .onRegs).leads

theorem Leads.execStallArsq {st ad aa ss : ℕ} : Leads s (execStallArsq st ad aa ss s) :=
  ((Evolves.refl s).issue .zipAcc).leads

theorem Leads.execLoadDataArrival {st n : ℕ} : Leads s (execLoadDataArrival st n s) :=
  (Evolves.refl s).onStall.leads

/-! STALL_RUN and ROW_OP -/

theorem Evolves.beginStallRun {resultOk : Bool} {k : Cmd} {ps inp : List Byte} (h : Evolves s t) :
    Evolves s (beginStallRun resultOk k ps inp t) :=
  h.onStk.foldl fun _ _ h => h.addJob

theorem Evolves.beginRowPlain {k : Cmd} {ps inp : List Byte} (h : Evolves s t) :
    Evolves s (beginRowPlain k ps inp t) :=
  h.addRowCmd.foldl fun _ _ h => h.addJob

theorem Evolves.beginRowDerive {k : Cmd} {ps inp : List Byte} (h : Evolves s t) :
    Evolves s (beginRowDerive k ps inp t) := by
  unfold Machine.beginRowDerive
  split
  · exact h
  · exact h.onIndex.addRowCmd.deriveJobs

theorem Evolves.beginRowClear {k : Cmd} {ps inp : List Byte} (h : Evolves s t) :
    Evolves s (beginRowClear k ps inp t) :=
  h.onIndex.onMeta.completeSt

theorem Leads.execStallRun {c : CmdRef} {d : CmdIn} : Leads s (execStallRun c d s) :=
  ((Evolves.refl s).begin (fun _ _ _ _ h => h.beginStallRun)).leads

theorem Leads.execRowOpPlain {c : CmdRef} {d : CmdIn} : Leads s (execRowOpPlain c d s) :=
  ((Evolves.refl s).begin (fun _ _ _ _ h => h.beginRowPlain)).leads

theorem Leads.execRowOpDerive {c : CmdRef} {d : CmdIn} : Leads s (execRowOpDerive c d s) :=
  ((Evolves.refl s).begin (fun _ _ _ _ h => h.beginRowDerive)).leads

theorem Leads.execRowOpClear {c : CmdRef} {d : CmdIn} : Leads s (execRowOpClear c d s) :=
  ((Evolves.refl s).begin (fun _ _ _ _ h => h.beginRowClear)).leads

end Sys2Proof.Machine
end

section
/-!
PROOFS. Every operation of the model leads to a state that comes from the one before:
what models and embedding tables do.
-/
namespace Sys2Proof.Machine

variable {s t u : State}

/-! Models and the shelf -/

/-- A change of a model keeps the images canonical where it keeps that image canonical. -/
theorem Evolves.onModel {n : ℕ} {f : Model → Model} (h : Evolves s t)
    (hf : ImagesCanonical t.til → ∀ m, Memory.wf m.image → Memory.wf (f m).image) : Evolves s (onModel n f t) := by
  refine h.onTil fun hm e he => ?_
  obtain ⟨x, hx, rfl⟩ := List.mem_map.1 he
  split
  · exact hf hm _ (hm x hx)
  · exact hm x hx

theorem Evolves.onShf {p : ℕ} {f : ShfCounts → ShfCounts} (h : Evolves s t) : Evolves s (onShf p f t) :=
  h.onTil (by exact id)

theorem Evolves.evictFor {p bytes : ℕ} {l : List ShelfImg} (h : Evolves s t) : Evolves s (evictFor p bytes l t) := by
  induction l generalizing t with
  | nil => exact h
  | cons x l ih => exact .ite h (ih (h.onTil (by exact id)).onShf)

theorem Evolves.startFill {h' i : ℕ} {m : Model} (h : Evolves s t) : Evolves s (startFill h' i m t).1 := by
  unfold Machine.startFill
  dsimp only
  split
  · dsimp only
    exact h.evictFor.onShf.onTil (by exact id)
  · exact h.evictFor

/-- A model that is added brings a canonical image. -/
theorem Evolves.addModel {n : ℕ} {m : Model} (h : Evolves s t) (hm : Memory.wf m.image) :
    Evolves s (addModel n m t) := by
  refine h.onTil fun hold e he => ?_
  rcases mem_tins he with rfl | he
  · exact hm
  · exact hold e (List.mem_of_mem_filter he)

theorem Evolves.freeModel {n : ℕ} (h : Evolves s t) : Evolves s (freeModel n t) :=
  h.onTil fun hold e he => hold e (List.mem_of_mem_filter he)

theorem Evolves.commitModel {k : Cmd} (h : Evolves s t) : Evolves s (commitModel k t) := by
  unfold Machine.commitModel
  split
  · exact h
  · rename_i m hm
    have image (hold : ImagesCanonical t.til) : Memory.wf m.image := hold (k.handle, m) (mem_of_tget? hm)
    have committed : Evolves s (Machine.onModel k.handle (fun _ => readyModel m t) t) :=
      h.onModel fun hold _ _ => image hold
    exact .ite h.freeModel.completeSt (.ite committed.completeSt h.freeModel.completeSt)

theorem Evolves.resetScales {h' ctx : ℕ} (h : Evolves s t) : Evolves s (resetScales h' ctx t) :=
  h.onModel fun _ _ => by exact id

theorem Evolves.settleResets (h : Evolves s t) : Evolves s (settleResets t) :=
  (h.onTil (by exact id)).foldl fun _ _ h => h.resetScales.completeSt

theorem Leads.execModelLoadBegin {c : CmdRef} {d : CmdIn} : Leads s (execModelLoadBegin c d s) :=
  ((Evolves.refl s).begin fun _ _ _ _ h => (h.addModel (wf_writeBytes _ _ _ wf_nil)).completeSt).leads

theorem Leads.execModelLoadChunk {c : CmdRef} {d : CmdIn} : Leads s (execModelLoadChunk c d s) :=
  ((Evolves.refl s).begin fun _ _ _ _ h => (h.onModel fun _ _ => wf_writeBytes _ _ _).completeSt).leads

theorem Leads.execModelLoadCommit {c : CmdRef} {d : CmdIn} : Leads s (execModelLoadCommit c d s) :=
  ((Evolves.refl s).begin (fun _ _ _ _ h => h.commitModel)).leads

theorem Evolves.endModelUsers {h' : ℕ} (h : Evolves s t) : Evolves s (endModelUsers h' t) :=
  (h.onTil (by exact id)).foldl fun _ _ h => h.completeSt

theorem Leads.execModelLoadUnload {c : CmdRef} {d : CmdIn} : Leads s (execModelLoadUnload c d s) :=
  ((Evolves.refl s).begin (fun _ _ _ _ h => h.endModelUsers.freeModel.completeSt)).leads

theorem Leads.execModelLoadResetScales {c : CmdRef} {d : CmdIn} : Leads s (execModelLoadResetScales c d s) :=
  have h := Evolves.refl s
  (h.begin (fun _ _ _ _ h => (h.onTil (by exact id)).settleResets)).leads

theorem Leads.execModelLoadReadScales {c : CmdRef} {d : CmdIn} : Leads s (execModelLoadReadScales c d s) :=
  have h := Evolves.refl s
  Evolves.leads (h.begin (fun _ _ _ _ h => by
  split
  · exact h
  · exact h.finish)
  )

theorem Evolves.settlePins (h : Evolves s t) : Evolves s (settlePins t) :=
  (h.onTil (by exact id)).foldl (fun _ _ h => (h.onModel (fun _ _ => by exact id)).complete)

theorem Leads.execModelPin {c : CmdRef} {d : CmdIn} : Leads s (execModelPin c d s) :=
  have h := Evolves.refl s
  (h.begin (fun _ _ _ _ h => (h.onTil (by exact id)).settlePins)).leads

theorem Leads.execModelUnpin {c : CmdRef} {d : CmdIn} : Leads s (execModelUnpin c d s) :=
  have h := Evolves.refl s
  (h.begin (fun _ _ _ _ h => (h.onModel (fun _ _ => by exact id)).completeSt)).leads

theorem Evolves.onStep {c : CmdRef} {i : ℕ} {f : Step → Step} (h : Evolves s t) : Evolves s (onStep c i f t) := by
  unfold Machine.onStep
  exact h.onTil (by exact id)

theorem Evolves.stepFill {c : CmdRef} {i : ℕ} (h : Evolves s t) : Evolves s (stepFill c i t) := by
  unfold Machine.stepFill
  cases getModelRun c t with
  | none => exact h
  | some r =>
    cases getStep c i t with
    | none => exact h
    | some st =>
      dsimp only
      cases getModel r.handle t with
      | none => exact h
      | some m => exact .ite h (.ite h.onStep (.ite h.startFill.onStep h.startFill.onShf.onStep))

theorem Evolves.pinFill {c : CmdRef} {i : ℕ} (h : Evolves s t) : Evolves s (pinFill c i t) := by
  unfold Machine.pinFill
  split
  · exact h
  · split
    · exact h
    · exact .ite h.startFill h

theorem Evolves.endFill {h' i : ℕ} (h : Evolves s t) : Evolves s (endFill h' i t) := by
  unfold Machine.endFill
  split
  · exact h
  · exact .ite h (h.onTil (by exact id)).onShf.settlePins

theorem Leads.execShelfFill {c : CmdRef} {layer : ℕ} : Leads s (execShelfFill c layer s) :=
  (Evolves.refl s).stepFill.pinFill.leads

/-! Rows of embedding tables -/

theorem Evolves.onTab {h' : ℕ} {f : Tab → Tab} (h : Evolves s t) : Evolves s (onTab h' f t) :=
  h.onEmb

theorem Evolves.onEmbCounts {p : ℕ} {f : EmbCounts → EmbCounts} (h : Evolves s t) : Evolves s (onEmbCounts p f t) :=
  h.onEmb

/-! Embedding tables -/

theorem Evolves.onEmbCmd {c : CmdRef} {f : EmbCmd → EmbCmd} (h : Evolves s t) : Evolves s (onEmbCmd c f t) :=
  h.onEmb

theorem Evolves.dropEmb {c : CmdRef} (h : Evolves s t) : Evolves s (dropEmb c t) :=
  h.onEmb

theorem Evolves.reopen {c : EmbCmd} (h : Evolves s t) : Evolves s (reopen c t) :=
  .ite h.onEmbCounts.onTab h

theorem Evolves.removeAdds {c : CmdRef} (h : Evolves s t) : Evolves s (removeAdds c t) := by
  unfold Machine.removeAdds
  split
  · exact h
  · exact .ite h h.onTab

theorem Evolves.endEmb {c : CmdRef} (h : Evolves s t) : Evolves s (endEmb c t) := by
  unfold Machine.endEmb
  split
  · exact h.removeAdds
  · exact h.dropJobs.reopen.cancelReqs.dropEmb

theorem Evolves.failEmb {c : CmdRef} {st detail : ℕ} (h : Evolves s t) : Evolves s (failEmb c st detail t) :=
  h.endEmb.complete

theorem Evolves.askShard {kind : ℕ} {e : EmbCmd} {k : ℕ} {bodies : List (List Byte)} (h : Evolves s t) :
    Evolves s (askShard kind e k bodies t) := by
  unfold Machine.askShard
  split
  · exact h.sendReq.onEmbCmd
  · exact h

theorem Evolves.sendFetches {e : EmbCmd} {d : TabDesc} {rows : List ℕ} (h : Evolves s t) :
    Evolves s (sendFetches e d rows t) :=
  h.foldl (fun _ _ h => h.foldl (fun _ _ h => .ite h h.askShard))

theorem Evolves.startJobs {e : EmbCmd} {d : TabDesc} {write : Bool} {rows : List ℕ} (h : Evolves s t) :
    Evolves s (startJobs e d write rows t) :=
  (h.foldl (fun _ _ h => h.addJob)).onEmbCmd

theorem Evolves.seeRow {c : CmdRef} {p : ℕ} {bs : List Byte} (h : Evolves s t) : Evolves s (seeRow c p bs t) :=
  h.onEmbCmd

theorem Evolves.updateRow {e : EmbCmd} {t' : Tab} {p : ℕ} (h : Evolves s t) : Evolves s (updateRow e t' p t) := by
  unfold Machine.updateRow
  split
  · exact h
  · exact h.onTab.onEmbCounts.onEmbCmd

theorem Evolves.workRow {e : EmbCmd} {x : ℕ × ℕ} (h : Evolves s t) : Evolves s (workRow e t x) := by
  unfold Machine.workRow
  split
  · exact h
  · extract_lets copy
    cases e.kind with
    | pool => exact h.seeRow
    | update => exact h.seeRow
    | close => exact .ite h.updateRow h.seeRow
    | dump => exact h.seeRow
    | load => exact h.onTab
    | install => exact h.onTab.onEmbCmd
    | refresh => exact .ite h h.onTab.onEmbCmd
    | drop => exact h

theorem Evolves.workRows (h : Evolves s t) : Evolves s (workRows t) :=
  h.foldl (fun _ _ h => h.onEmbCmd.foldl (fun _ _ h => h.workRow))

theorem Evolves.sendSets {kind : ℕ} {e : EmbCmd} {d : TabDesc} {entries : ℕ → List (List Byte)} (h : Evolves s t) :
    Evolves s (sendSets kind e d entries t) :=
  h.foldl fun _ _ h => h.askShard.onEmbCounts

theorem Evolves.finishClose {e : EmbCmd} (h : Evolves s t) : Evolves s (finishClose e t) := by
  unfold Machine.finishClose
  split
  · exact h.onTab.dropEmb.completeRec
  · exact h.onTab.dropEmb.complete

theorem Evolves.settleRefresh {c : CmdRef} (h : Evolves s t) : Evolves s (settleRefresh c t) := by
  unfold Machine.settleRefresh
  split
  · exact h
  · split
    · exact h
    · exact .ite h.finishClose h

theorem Evolves.dropCopies {h' k : ℕ} (h : Evolves s t) : Evolves s (dropCopies h' k t) :=
  h.onTab

theorem Evolves.loseShard {e : EmbCmd} {k : ℕ} (h : Evolves s t) : Evolves s (loseShard e k t) :=
  h.dropCopies.onTab.onEmbCmd

theorem Evolves.endCommit {e : EmbCmd} {t' : Tab} (h : Evolves s t) : Evolves s (endCommit e t' t) :=
  (h.onEmbCmd.sendSets.foldl (fun _ _ h => h.loseShard)).settleRefresh

theorem Evolves.endPool {e : EmbCmd} {t' : Tab} (h : Evolves s t) : Evolves s (endPool e t' t) :=
  h.onEmbCounts.dropEmb.finish

theorem Evolves.endDump {e : EmbCmd} {t' : Tab} (h : Evolves s t) : Evolves s (endDump e t' t) :=
  h.dropEmb.finish

theorem Evolves.addToLedger {e : EmbCmd} {cs : List (ℕ × List W32)} {l : Table (List W32)} (h : Evolves s t) :
    Evolves s (addToLedger e cs l t) :=
  h.onEmbCounts.onTab

theorem Evolves.endUpdate {e : EmbCmd} {t' : Tab} (h : Evolves s t) : Evolves s (endUpdate e t' t) := by
  unfold Machine.endUpdate
  dsimp only
  split
  · exact h.dropEmb.completeSt
  · exact h.addToLedger.dropEmb.completeSt

theorem Evolves.endReplica {e : EmbCmd} (h : Evolves s t) : Evolves s (endReplica e t) :=
  h.dropEmb.complete

theorem Evolves.settleOne {e : EmbCmd} (h : Evolves s t) : Evolves s (settleOne e t) := by
  unfold Machine.settleOne
  split
  · exact h
  · refine .ite h.startJobs ?_
    split
    · exact h.endPool
    · exact h.endDump
    · exact h.endUpdate
    · exact h.dropEmb.completeSt
    · exact h.endCommit
    · exact h.endReplica
    · exact h.endReplica
    · exact h.endReplica

theorem Evolves.settleEmb {n : ℕ} (h : Evolves s t) : Evolves s (settleEmb n t) := by
  induction n generalizing t with
  | zero => exact h
  | succ n ih =>
    unfold Machine.settleEmb
    split
    · exact h
    · exact ih h.settleOne

theorem Evolves.settleAllEmb (h : Evolves s t) : Evolves s (settleAllEmb t) :=
  h.settleEmb

theorem Evolves.beginEmb {e : EmbCmd} {d : CmdIn} {rows : List ℕ} (h : Evolves s t) :
    Evolves s (beginEmb e d rows t) := by
  unfold Machine.beginEmb
  split
  · split
    · exact (h.dramLost.of_fst ‹_›).completeRec
  · split
    · dsimp only
      split
      · exact h.dramCorrected
      · exact h.dramCorrected.onEmb.sendFetches.settleAllEmb
    · dsimp only
      split
      · exact h
      · exact h.onEmb.sendFetches.settleAllEmb

theorem Leads.execEmbLookupPool {c : CmdRef} {d : CmdIn} : Leads s (execEmbLookupPool c d s) :=
  ((Evolves.refl s).begin (fun _ _ _ _ h => h.beginEmb)).leads

theorem Leads.execEmbLookupDump {c : CmdRef} {d : CmdIn} : Leads s (execEmbLookupDump c d s) :=
  ((Evolves.refl s).begin (fun _ _ _ _ h => h.beginEmb)).leads

theorem Leads.execEmbUpdate {c : CmdRef} {d : CmdIn} : Leads s (execEmbUpdate c d s) :=
  ((Evolves.refl s).begin (fun _ _ _ _ h => h.beginEmb)).leads

theorem Leads.execEmbUpdateLoad {c : CmdRef} {d : CmdIn} : Leads s (execEmbUpdateLoad c d s) :=
  ((Evolves.refl s).begin (fun _ _ _ _ h => h.beginEmb)).leads

theorem Leads.execEmbUpdateClose {c : CmdRef} {d : CmdIn} : Leads s (execEmbUpdateClose c d s) :=
  ((Evolves.refl s).begin (fun _ _ _ _ h => h.beginEmb)).leads

theorem Evolves.reportLost {c : CmdRef} {lost : List (ℕ × MemPlace)} (h : Evolves s t) :
    Evolves s (reportLost c lost t) :=
  h.foldl (fun _ _ h => by
    split
    · exact (h.dramLost.of_fst ‹_›).onEmbCmd)

theorem Evolves.commitClose {e : EmbCmd} {t' : Tab} {lost : List (ℕ × MemPlace)} (h : Evolves s t) :
    Evolves s (commitClose e t' lost t) := by
  unfold Machine.commitClose
  split
  · exact h.failEmb
  · exact h.reportLost.onTab.onEmbCounts.onEmbCmd.onCmd.startJobs.settleAllEmb

theorem Evolves.settleSets {c : CmdRef} {lost : List (ℕ × MemPlace)} (h : Evolves s t) :
    Evolves s (settleSets c lost t) := by
  unfold Machine.settleSets
  split
  · exact h
  · split
    · exact h
    · exact .ite h.commitClose h

theorem Evolves.startClose {c : CmdRef} {lost : List (ℕ × MemPlace)} (h : Evolves s t) :
    Evolves s (startClose c lost t) := by
  unfold Machine.startClose
  split
  · exact h
  · split
    · exact h
    · refine .ite h ?_
      split
      · exact h
      · exact h.failEmb
      · dsimp only
        split
        · exact h.failEmb
        · exact h.addToLedger.onTab.onEmbCmd.sendSets.settleSets

theorem Leads.execStepCloseStart {c : CmdRef} {lost : List (ℕ × MemPlace)} : Leads s (execStepCloseStart c lost s) :=
  (Evolves.refl s).startClose.leads

theorem Evolves.beginReplica {kind : EmbKind} {op : ℕ} {k : Cmd} {ps inp : List Byte} (h : Evolves s t) :
    Evolves s (beginReplica kind op k ps inp t) := by
  unfold Machine.beginReplica
  split
  · exact h
  · refine Evolves.settleAllEmb (.foldl (.ite h.onEmb.onTab h.onEmb) fun _ _ h => ?_)
    exact h.foldl fun _ _ h => .ite h h.askShard

theorem Leads.execEmbReplicaInstall {c : CmdRef} {d : CmdIn} : Leads s (execEmbReplicaInstall c d s) :=
  ((Evolves.refl s).begin (fun _ _ _ _ h => h.beginReplica)).leads

theorem Leads.execEmbReplicaDrop {c : CmdRef} {d : CmdIn} : Leads s (execEmbReplicaDrop c d s) :=
  ((Evolves.refl s).begin (fun _ _ _ _ h => h.beginReplica)).leads

theorem Leads.execEmbReplicaRefresh {c : CmdRef} {d : CmdIn} : Leads s (execEmbReplicaRefresh c d s) :=
  ((Evolves.refl s).begin (fun _ _ _ _ h => h.beginReplica)).leads

theorem Evolves.serveFetch {m : Msg} {c : Comp} (h : Evolves s t) : Evolves s (serveFetch m c t) := by
  unfold Machine.serveFetch
  split
  · exact h.respondSt
  · exact .ite h.respond (.ite h.respond (.ite h.holdMsg h.respondSt))

theorem Leads.execEmbFetch {src msg : ℕ} : Leads s (execEmbFetch src msg s) :=
  ((Evolves.refl s).handleReq (fun _ _ _ h => h.serveFetch)).leads

theorem Evolves.unawait {c : CmdRef} {k : ℕ} (h : Evolves s t) : Evolves s (unawait c k t) :=
  h.onEmbCmd

theorem Evolves.takeRows {r : Req} {m : Msg} (h : Evolves s t) : Evolves s (takeRows r m t) := by
  unfold Machine.takeRows
  split
  · exact h
  · split
    · exact h
    · split
      · exact h
      · refine .ite h.failEmb ?_
        exact (Evolves.ite h.onEmbCounts.onEmbCmd.onEmbCmd h.onEmbCounts.onEmbCmd.onTab).unawait.settleAllEmb

theorem Leads.execEmbRows {src msg : ℕ} : Leads s (execEmbRows src msg s) :=
  ((Evolves.refl s).handleRsp (fun _ _ _ h => h.takeRows)).leads

theorem Evolves.takeGset {lost : List (ℕ × MemPlace)} {m : Msg} {c : Comp} (h : Evolves s t) :
    Evolves s (takeGset lost m c t) := by
  unfold Machine.takeGset
  split
  · exact h.respondSt
  · refine .ite h.respondSt ?_
    dsimp only
    split
    · exact h.respondSt.onTab
    · exact h.respondSt.onTab.settleSets

theorem Leads.execEmbGset {src msg : ℕ} {lost : List (ℕ × MemPlace)} : Leads s (execEmbGset src msg lost s) :=
  ((Evolves.refl s).handleReq (fun _ _ _ h => h.takeGset)).leads

theorem Evolves.takeRset {m : Msg} {c : Comp} (h : Evolves s t) : Evolves s (takeRset m c t) := by
  unfold Machine.takeRset
  split
  · exact h.respondSt
  · refine .ite h.respondSt ?_
    dsimp only
    split
    · exact h.respondSt.onTab
    · exact h.respondSt.onTab.settleRefresh

theorem Leads.execEmbRset {src msg : ℕ} : Leads s (execEmbRset src msg s) :=
  ((Evolves.refl s).handleReq (fun _ _ _ h => h.takeRset)).leads

theorem Evolves.serveRepl {m : Msg} {c : Comp} (h : Evolves s t) : Evolves s (serveRepl m c t) := by
  unfold Machine.serveRepl
  split
  · exact h.respondSt
  · exact .ite h.holdMsg (.ite h.onTab.respond (.ite h.onTab.respond h.respond))

theorem Leads.execEmbRepl {src msg : ℕ} : Leads s (execEmbRepl src msg s) :=
  ((Evolves.refl s).handleReq (fun _ _ _ h => h.serveRepl)).leads

theorem Evolves.takeRepl {r : Req} {m : Msg} (h : Evolves s t) : Evolves s (takeRepl r m t) := by
  unfold Machine.takeRepl
  split
  · exact h
  · split
    · exact h
    · split
      · exact h
      · extract_lets _ answered
        have hv : Evolves s answered := .ite h (.ite h.onEmbCmd h.onEmbCmd)
        exact .ite hv.failEmb hv.unawait.settleAllEmb

theorem Leads.execEmbReplRsp {src msg : ℕ} : Leads s (execEmbReplRsp src msg s) :=
  ((Evolves.refl s).handleRsp (fun _ _ _ h => h.takeRepl)).leads

theorem Evolves.embReqEnds {c : CmdRef} {k st : ℕ} (h : Evolves s t) : Evolves s (embReqEnds c k st t) := by
  unfold Machine.embReqEnds
  split
  · exact h
  · exact .ite h.loseShard.settleRefresh h.failEmb

end Sys2Proof.Machine
end

section
/-!
PROOFS. Every operation of the model leads to a state that comes from the one before:
what fetched commands, selections and composed searches do.
-/
namespace Sys2Proof.Machine

variable {s t u : State}

/-! COMMAND_FETCH -/

theorem Evolves.forgetDup {c : CmdRef} (h : Evolves s t) : Evolves s (forgetDup c t) :=
  h.onHost

theorem Evolves.policeCmd {k : Cmd} (h : Evolves s t) : Evolves s (policeCmd k t).2 := by
  unfold Machine.policeCmd
  split
  · split
    · exact h.police
    · exact h
  · exact h

theorem Evolves.admitCmd {k : Cmd} (h : Evolves s t) : Evolves s (admitCmd k t) := by
  unfold Machine.admitCmd
  refine .ite h.onHost.completeSt (.ite h.onHost.onHost.policeCmd.forgetDup.completeSt ?_)
  split
  · exact h.onHost.onHost.policeCmd.completeSt
  · exact h.onHost.onHost.policeCmd

theorem Evolves.fetchCmd {q : QRef} {packet : List Byte} (h : Evolves s t) : Evolves s (fetchCmd q packet t) := by
  unfold Machine.fetchCmd
  refine .ite ?_ h
  dsimp only
  split
  · split
    · exact h.onQueue
    · exact h.onQueue.onHost.sendToHost
  · exact h.onQueue.admitCmd

theorem Leads.execCommandFetch {q : QRef} {packet : List Byte} : Leads s (execCommandFetch q packet s) :=
  (Evolves.refl s).fetchCmd.leads

theorem Evolves.expireDup {c : CmdRef} (h : Evolves s t) : Evolves s (expireDup c t) :=
  h.onHost

theorem Leads.execDupEntryExpiry {c : CmdRef} {now : ℕ} : Leads s (execDupEntryExpiry c now s) :=
  (Evolves.refl s).atTime.expireDup.leads

/-! Selection -/

theorem Evolves.beginSelect {c : SelCmd} (h : Evolves s t) : Evolves s (beginSelect c t) := by
  unfold Machine.beginSelect
  exact h.onSel

theorem Evolves.beginTopk {k : Cmd} {ps inp : List Byte} (h : Evolves s t) : Evolves s (beginTopk k ps inp t) :=
  h.beginSelect

theorem Evolves.beginThreshold {k : Cmd} {ps inp : List Byte} (h : Evolves s t) :
    Evolves s (beginThreshold k ps inp t) :=
  h.beginSelect

theorem Evolves.dropRows {c : CmdRef} (h : Evolves s t) : Evolves s (dropRows c t) :=
  h.onSel

theorem Evolves.dropSelect {c : CmdRef} (h : Evolves s t) : Evolves s (dropSelect c t) :=
  h.dropRows.onSel

theorem Evolves.onSelCounts {p : ℕ} {f : SelCounts → SelCounts} (h : Evolves s t) : Evolves s (onSelCounts p f t) :=
  h.onSel

theorem Evolves.countSelRow {r : SelRow} {c : SelCmd} {started : ℕ} {o : RowOut} (h : Evolves s t) :
    Evolves s (countSelRow r c started o t) :=
  h.onSelCounts

theorem Evolves.finishRow {r : SelRow} {c : SelCmd} {started : ℕ} {resultOk : Bool} (h : Evolves s t) :
    Evolves s (finishRow r c started resultOk t) := by
  unfold Machine.finishRow
  split
  · dsimp only
    split
    · exact h.countSelRow.dropSelect
    · exact (Evolves.ite h.countSelRow.fileErr h.countSelRow.fileErr.onCmd).dropSelect.completeWith
  · dsimp only
    split
    · exact h.countSelRow.dropSelect
    · exact .ite h.countSelRow.sendToHost.dropSelect.completeWith h.countSelRow.sendToHost.onSel

theorem Evolves.takeRow {n at' : ℕ} {r : SelRow} (h : Evolves s t) (he : takeRow n t = some (r, at', u)) :
    Evolves s u := by
  unfold Machine.takeRow at he
  split at he
  · cases he
    exact h.freeSel
  · cases he
  · split at he
    · cases he
    · obtain ⟨x, _, hx⟩ := Option.map_eq_some_iff.1 he
      cases hx
      exact h.onSel

theorem Evolves.returnRow {n : ℕ} (h : Evolves s t) : Evolves s (returnRow n t) := by
  unfold Machine.returnRow
  split
  · exact h.onSel.freeSel
  · exact h.freeSel

theorem Leads.execSelectTopk {c : CmdRef} {d : CmdIn} : Leads s (execSelectTopk c d s) :=
  ((Evolves.refl s).beginWith (fun _ _ _ _ h => h.beginTopk)).leads

theorem Leads.execSelectThreshold {c : CmdRef} {d : CmdIn} : Leads s (execSelectThreshold c d s) :=
  ((Evolves.refl s).beginWith (fun _ _ _ _ h => h.beginThreshold)).leads

/-! Composed searches and mutations -/

theorem Evolves.onCompSearch {c : CmdRef} {f : CompSearch → CompSearch} (h : Evolves s t) :
    Evolves s (onCompSearch c f t) :=
  h.onFab

theorem Evolves.dropCompSearch {c : CmdRef} (h : Evolves s t) : Evolves s (dropCompSearch c t) :=
  h.onFab

theorem Evolves.mergeSearch {x : CompSearch} (h : Evolves s t) : Evolves s (mergeSearch x t) :=
  h.dropCompSearch.onSelCounts.finish

theorem Evolves.settleSearch {c : CmdRef} (h : Evolves s t) : Evolves s (settleSearch c t) := by
  unfold Machine.settleSearch
  split
  · exact h
  · refine .ite h ?_
    split
    · exact h.dropCompSearch.complete
    · split
      · exact h.dropCompSearch.completeSt
      · exact .ite h h.mergeSearch

theorem Evolves.noteAnswerOf {c : CmdRef} {slot st detail : ℕ} {result : List Byte} (h : Evolves s t) :
    Evolves s (noteAnswerOf c slot st detail result t) :=
  h.onCompSearch

theorem Evolves.ownAnswer {a : FabricAns} (h : Evolves s t) : Evolves s (ownAnswer a t) :=
  h.onCompSearch.noteAnswerOf.settleSearch

theorem Evolves.subAnswer {x : SubSearch} {a : FabricAns} (h : Evolves s t) : Evolves s (subAnswer x a t) :=
  h.onFab.respond

theorem Evolves.giveAnswer {a : FabricAns} (h : Evolves s t) : Evolves s (giveAnswer t a) := by
  unfold Machine.giveAnswer
  split
  · exact h.subAnswer
  · exact h.ownAnswer

theorem Evolves.pump (h : Evolves s t) : Evolves s (pump t) :=
  h.onHost.foldl fun _ _ h => h.giveAnswer

theorem Evolves.beginComposed {op id : ℕ} {members : List (ℕ × ℕ)} {resultOk : Bool} {k : Cmd} {ps inp : List Byte}
    (h : Evolves s t) : Evolves s (beginComposed op id members resultOk k ps inp t) :=
  (h.onFab.foldl (fun _ _ h => h.sendReq)).enterAdmission

theorem Evolves.beginSearch {op : ℕ} {resultOk : Bool} {k : Cmd} {ps inp : List Byte} (h : Evolves s t) :
    Evolves s (beginSearch op resultOk k ps inp t) := by
  unfold Machine.beginSearch
  split
  · exact h.beginComposed
  · exact h.enterAdmission

theorem Leads.execSearch {c : CmdRef} {d : CmdIn} : Leads s (execSearch c d s) :=
  ((Evolves.refl s).beginWith (fun _ _ _ _ h => h.beginSearch)).leads

theorem Leads.execSearchFiltered {c : CmdRef} {d : CmdIn} : Leads s (execSearchFiltered c d s) :=
  ((Evolves.refl s).beginWith (fun _ _ _ _ h => h.beginSearch)).leads

theorem Leads.execRange {c : CmdRef} {d : CmdIn} : Leads s (execRange c d s) :=
  ((Evolves.refl s).beginWith (fun _ _ _ _ h => h.beginSearch)).leads

theorem Evolves.runSub {m : Msg} {c : Comp} (h : Evolves s t) : Evolves s (runSub m c t) := by
  unfold Machine.runSub
  dsimp only
  split
  · exact h.onFab.onHost.complete.pump
  · exact h.onFab.onHost.enterAdmission

theorem Leads.execSearchSub {src msg : ℕ} : Leads s (execSearchSub src msg s) :=
  ((Evolves.refl s).handleReq (fun _ _ _ h => h.runSub)).leads

theorem Evolves.takeSearchRsp {r : Req} {m : Msg} (h : Evolves s t) : Evolves s (takeSearchRsp r m t) := by
  unfold Machine.takeSearchRsp
  split
  · exact h
  · exact h.onCompSearch.noteAnswerOf.settleSearch

theorem Leads.execSearchRsp {src msg : ℕ} : Leads s (execSearchRsp src msg s) :=
  ((Evolves.refl s).handleRsp (fun _ _ _ h => h.takeSearchRsp)).leads

theorem Evolves.endComposed {c : CmdRef} (h : Evolves s t) : Evolves s (endComposed c t) :=
  .ite h.dropQuery.cancelReqs.dropCompSearch h

theorem Evolves.failComposed {c : CmdRef} {st : ℕ} (h : Evolves s t) : Evolves s (failComposed c st t) :=
  .ite h.endComposed.completeSt h

theorem Evolves.cancelRequest {m : Msg} (h : Evolves s t) : Evolves s (cancelRequest m t) := by
  unfold Machine.cancelRequest
  dsimp only
  split
  · exact h.onFab
  · exact .ite h.onFab h.onFab.dropQuery.onHost.onFab

theorem Leads.execCancelRequest {src msg : ℕ} : Leads s (execCancelRequest src msg s) :=
  ((Evolves.refl s).handleCtrl (fun _ _ h => h.cancelRequest)).leads

theorem Leads.execQueryAdmission {p now : ℕ} : Leads s (execQueryAdmission p now s) :=
  (Evolves.refl s).atTime.admitQuery.pump.leads

theorem Leads.execWalkStep {c : CmdRef} {now : ℕ} {mid : Bool} {ecc : EccOutcome} {place : MemPlace} :
    Leads s (execWalkStep c now mid ecc place s) :=
  (Evolves.refl s).atTime.walkStep.pump.leads

theorem Leads.execCrateReadComplete {handle crate : ℕ} {checksOk : Bool} :
    Leads s (execCrateReadComplete handle crate checksOk s) :=
  (Evolves.refl s).crateArrives.pump.leads

theorem Leads.execRerankReadComplete {c : CmdRef} {i : ℕ} : Leads s (execRerankReadComplete c i s) :=
  (Evolves.refl s).rerankArrives.pump.leads

theorem Leads.execSearchSelection {c : CmdRef} {mid resultOk : Bool} :
    Leads s (execSearchSelection c mid resultOk s) :=
  (Evolves.refl s).settleSearch.selectSearch.pump.leads

theorem Leads.execInsert {c : CmdRef} {d : CmdIn} : Leads s (execInsert c d s) :=
  ((Evolves.refl s).begin (fun _ _ _ _ h => h.beginInsert)).leads

theorem Leads.execDelete {c : CmdRef} {d : CmdIn} : Leads s (execDelete c d s) :=
  ((Evolves.refl s).begin (fun _ _ _ _ h => h.beginDelete)).leads

theorem Leads.execUpsert {c : CmdRef} {d : CmdIn} : Leads s (execUpsert c d s) :=
  ((Evolves.refl s).begin (fun _ _ _ _ h => h.beginInsert)).leads

theorem Leads.execSwapGeneration {c : CmdRef} {d : CmdIn} : Leads s (execSwapGeneration c d s) :=
  ((Evolves.refl s).begin (fun _ _ _ _ h => h.beginSwap)).leads

theorem Leads.execIndexMount {handle : ℕ} : Leads s (execIndexMount handle s) :=
  (Evolves.refl s).indexMount.leads

end Sys2Proof.Machine
end

section
/-!
PROOFS. Every operation of the model leads to a state that comes from the one before:
what tiles and model runs do.
-/
namespace Sys2Proof.Machine

variable {s t u : State}

/-! Steps on tiles -/

theorem Evolves.startUse {h' i : ℕ} {m : Model} (h : Evolves s t) : Evolves s (startUse h' i m t).2 := by
  unfold Machine.startUse
  split
  · exact h
  · split
    · exact h.onShf
    · split
      · exact h.onShf
      · exact h

theorem Evolves.addStep {c : CmdRef} {st : Step} (h : Evolves s t) : Evolves s (addStep c st t) := by
  unfold Machine.addStep
  exact h.onTil (by exact id)

theorem Evolves.startLayerJobs {r : Run} {m : Model} {i : ℕ} (h : Evolves s t) : Evolves s (startLayerJobs r m i t) :=
  h.foldl fun _ _ h => h.addJob

theorem Evolves.queuePicks {r : Run} {i rows : ℕ} (h : Evolves s t) : Evolves s (queuePicks r i rows t) := by
  unfold Machine.queuePicks
  exact h.onSel

theorem Evolves.launchStep {r : Run} {m : Model} {i rows : ℕ} (h : Evolves s t) :
    Evolves s (launchStep r m i rows t) := by
  unfold Machine.launchStep
  split
  · exact h
  · exact h.startLayerJobs
  · exact h.queuePicks

theorem Evolves.startStep {c : CmdRef} {i : ℕ} (h : Evolves s t) : Evolves s (startStep c i t) := by
  unfold Machine.startStep
  split
  · exact h
  · split
    · exact h
    · refine .ite h ?_
      split
      · exact ((h.startUse.onTil (by exact id)).onModel (fun _ _ => by exact id)).addStep.launchStep
      · exact h

theorem Leads.execLayerStepStart {c : CmdRef} {layer : ℕ} : Leads s (execLayerStepStart c layer s) :=
  (Evolves.refl s).startStep.leads

theorem Evolves.dropModelRun {c : CmdRef} (h : Evolves s t) : Evolves s (dropModelRun c t) :=
  (h.dropJobs.dropRows.onTil (by exact id)).settleResets

theorem Evolves.setWork {x : TileCtx} {w : TileWork} (h : Evolves s t) : Evolves s (setWork x w t) :=
  h.onStep

theorem Evolves.setStep {x : TileCtx} {w : TileWork} {st : Step} (h : Evolves s t) : Evolves s (setStep x w st t) :=
  h.onStep

/-- A tile instruction that issues does its effect, or leaves the state alone. -/
theorem Evolves.tileIssue {t' opc : ℕ} {fields : List (ℕ × ℕ × ℕ)} {f : TileCtx → TileWork → State → State}
    (h : Evolves s t) (hf : ∀ x0 x1 u, Evolves s u → Evolves s (f x0 x1 u)) :
    Evolves s (tileIssue t' opc fields f t) := by
  unfold Machine.tileIssue
  split
  · exact h
  · exact .ite (hf _ _ _ h) h

theorem Evolves.tileFault {x : TileCtx} (h : Evolves s t) : Evolves s (tileFault x t) :=
  h.dropModelRun.complete

theorem Evolves.tileScalar {t' opc sd : ℕ} {fields : List (ℕ × ℕ × ℕ)} {v : TileWork → ℕ} (h : Evolves s t) :
    Evolves s (tileScalar t' opc sd fields v t) :=
  h.tileIssue fun _ _ _ h => h.setWork

theorem Leads.execTileNop {t' : ℕ} : Leads s (execTileNop t' s) :=
  ((Evolves.refl s).tileIssue (fun _ _ _ h => h.setWork)).leads

theorem Leads.execTileEnd {t' : ℕ} : Leads s (execTileEnd t' s) :=
  ((Evolves.refl s).tileIssue (fun _ _ _ h => h.setWork)).leads

theorem Leads.execTileBar {t' : ℕ} : Leads s (execTileBar t' s) :=
  ((Evolves.refl s).tileIssue (fun _ _ _ h => h.setWork.onStep)).leads

theorem Leads.execTileLoop {t' sd target : ℕ} : Leads s (execTileLoop t' sd target s) :=
  ((Evolves.refl s).tileIssue (fun _ _ _ h => h.setWork)).leads

theorem Leads.execTileBrz {t' sd target : ℕ} : Leads s (execTileBrz t' sd target s) :=
  ((Evolves.refl s).tileIssue (fun _ _ _ h => h.setWork)).leads

theorem Leads.execTileSadd {t' sd sa sb : ℕ} : Leads s (execTileSadd t' sd sa sb s) :=
  (Evolves.refl s).tileScalar.leads

theorem Leads.execTileSaddi {t' sd sa imm : ℕ} : Leads s (execTileSaddi t' sd sa imm s) :=
  (Evolves.refl s).tileScalar.leads

theorem Leads.execTileSmuli {t' sd sa imm : ℕ} : Leads s (execTileSmuli t' sd sa imm s) :=
  (Evolves.refl s).tileScalar.leads

theorem Leads.execTileSshli {t' sd sa imm : ℕ} : Leads s (execTileSshli t' sd sa imm s) :=
  (Evolves.refl s).tileScalar.leads

theorem Evolves.tileDma {t' : ℕ} {out : Bool} {arr sa token len saddr : ℕ} (h : Evolves s t) :
    Evolves s (tileDma t' out arr sa token len saddr t) := by
  unfold Machine.tileDma
  exact h.tileIssue fun _ _ _ h => .ite h (.ite h.tileFault h.setWork)

theorem Leads.execTileDmaIn {t' arr sa token len saddr : ℕ} : Leads s (execTileDmaIn t' arr sa token len saddr s) :=
  (Evolves.refl s).tileDma.leads

theorem Leads.execTileDmaOut {t' arr sa token len saddr : ℕ} : Leads s (execTileDmaOut t' arr sa token len saddr s) :=
  (Evolves.refl s).tileDma.leads

theorem Evolves.shelfCorrected {p : MemPlace} {n : ℕ} (h : Evolves s t) : Evolves s (shelfCorrected p n t) :=
  h.onErr.fileRec

theorem Evolves.shelfLost {h' i : ℕ} {p : MemPlace} (h : Evolves s t) : Evolves s (shelfLost h' i p t) := by
  unfold Machine.shelfLost
  exact h.onErr.fileRec.onTil (by exact id)

theorem Evolves.dmaEcc {x : TileCtx} {d : TileDma} {ecc : EccOutcome} {p : MemPlace} (h : Evolves s t) :
    Evolves s (dmaEcc x d ecc p t).1 := by
  unfold Machine.dmaEcc
  split
  · split
    · exact h
    · exact h.shelfCorrected
    · exact h.shelfLost
  · split
    · exact h.dramRead.of_fst ‹_›
    · exact (h.dramRead.of_fst ‹_›).dropModelRun.completeRec

theorem Evolves.tileDmaDone {t' token : ℕ} {ecc : EccOutcome} {p : MemPlace} (h : Evolves s t) :
    Evolves s (tileDmaDone t' token ecc p t) := by
  unfold Machine.tileDmaDone
  split
  · exact h
  · split
    · exact h
    · split
      · refine .ite (h.dmaEcc.of_fst ‹_›) ?_
        split
        · exact h.dmaEcc.of_fst ‹_›
        · exact (h.dmaEcc.of_fst ‹_›).setStep

theorem Leads.execTileDmaComplete {t' token : ℕ} {ecc : EccOutcome} {place : MemPlace} :
    Leads s (execTileDmaComplete t' token ecc place s) :=
  (Evolves.refl s).tileDmaDone.leads

theorem Leads.execTileWait {t' mask : ℕ} : Leads s (execTileWait t' mask s) :=
  ((Evolves.refl s).tileIssue (fun _ _ _ h => .ite h h.setWork)).leads

theorem Leads.execTileMma {t' waddr aaddr rows acc kb : ℕ} {zero : Bool} :
    Leads s (execTileMma t' waddr aaddr rows acc kb zero s) :=
  ((Evolves.refl s).tileIssue (fun _ _ _ h => .ite h.tileFault h.setStep)).leads

theorem Leads.execTileEpi {t' oaddr rows acc fn : ℕ} {bias : Bool} {baddr : ℕ} {raw : Bool} :
    Leads s (execTileEpi t' oaddr rows acc fn bias baddr raw s) :=
  ((Evolves.refl s).tileIssue (fun _ _ _ h => h.setStep)).leads

theorem Leads.execTileVec {t' daddr xaddr yaddr fn : ℕ} : Leads s (execTileVec t' daddr xaddr yaddr fn s) :=
  ((Evolves.refl s).tileIssue (fun _ _ _ h => .ite h.tileFault h.setStep)).leads

theorem Evolves.lateStop {t' : ℕ} (h : Evolves s t) : Evolves s (lateStop t' t) := by
  unfold Machine.lateStop
  split
  · exact h
  · split
    · exact h
    · exact .ite h h.onStep.onPart.onShf

theorem Leads.execTileLateStop {t' now : ℕ} : Leads s (execTileLateStop t' now s) :=
  (Evolves.refl s).atTime.lateStop.leads

theorem Evolves.closeStep {c : CmdRef} {i : ℕ} {f : Run → Run} (h : Evolves s t) : Evolves s (closeStep c i f t) := by
  unfold Machine.closeStep
  exact h.onTil (by exact id)

theorem Evolves.rerunRead {c : CmdRef} {r : Run} {st : Step} {ecc : EccOutcome} {p : MemPlace} (h : Evolves s t) :
    Evolves s (rerunRead c r st ecc p t).1 := by
  unfold Machine.rerunRead
  split
  · split
    · exact h
    · exact h.shelfCorrected
    · exact h.shelfLost
  · split
    · exact h.dramRead.of_fst ‹_›
    · exact (h.dramRead.of_fst ‹_›).dropModelRun.completeRec

theorem Evolves.recordStep {c : CmdRef} {i : ℕ} {r : Run} {x : LayerCtx} {st : Step} {e : StepEnd} (h : Evolves s t) :
    Evolves s (recordStep c i r x st e t) :=
  (h.onModel (fun _ _ => by exact id)).onTilCounts.closeStep.settleResets

theorem Evolves.endStep {c : CmdRef} {i : ℕ} {ecc : EccOutcome} {p : MemPlace} (h : Evolves s t) :
    Evolves s (endStep c i ecc p t).1 := by
  unfold Machine.endStep
  split
  · split
    · exact h
    · extract_lets
      split
      · exact h
      · split
        · exact h
        · split
          · exact h.closeStep.settleResets
          · extract_lets
            split
            · exact h
            · extract_lets
              split
              · split
                rename_i he
                have read := h.rerunRead.of_fst he
                split
                · exact read.recordStep
                · exact read
              · exact h.recordStep
  · exact h

theorem Evolves.fillLost {h' i seq : ℕ} {dropped : Bool} (h : Evolves s t) :
    Evolves s (fillLost h' i seq dropped t) :=
  (h.onTil (by exact id)).foldl fun _ _ h => h.dropModelRun.completeRec

theorem Evolves.fillEnds {h' i : ℕ} {ecc : EccOutcome} {p : MemPlace} (h : Evolves s t) :
    Evolves s (fillEnds h' i ecc p t) := by
  unfold Machine.fillEnds
  refine .ite h ?_
  split
  · exact (h.dramRead.of_fst ‹_›).endFill
  · exact (h.dramRead.of_fst ‹_›).fillLost

theorem Leads.execShelfFillComplete {handle layer : ℕ} {ecc : EccOutcome} {place : MemPlace} :
    Leads s (execShelfFillComplete handle layer ecc place s) :=
  (Evolves.refl s).fillEnds.leads

/-! MODEL_RUN -/

theorem Evolves.onModelRun {c : CmdRef} {f : Run → Run} (h : Evolves s t) : Evolves s (onModelRun c f t) :=
  h.onTil (by exact id)

theorem Evolves.failRun {c : CmdRef} {st detail : ℕ} (h : Evolves s t) : Evolves s (failRun c st detail t) :=
  .ite h.cancelReqs.dropModelRun.complete h

theorem Evolves.feedRun {r : Run} (h : Evolves s t) : Evolves s (feedRun t r) := by
  unfold Machine.feedRun
  split
  · exact .ite h.onModelRun h.failRun
  · exact h

theorem Evolves.feedRuns (h : Evolves s t) : Evolves s (feedRuns t) :=
  h.foldl fun _ _ h => h.feedRun

theorem Evolves.beginRun {resultOk : Bool} {k : Cmd} {ps inp : List Byte} (h : Evolves s t) :
    Evolves s (beginRun resultOk k ps inp t) :=
  (h.onTil (by exact id)).feedRuns

theorem Leads.execModelRun {c : CmdRef} {d : CmdIn} : Leads s (execModelRun c d s) :=
  ((Evolves.refl s).begin (fun _ _ _ _ h => h.beginRun)).leads

theorem Evolves.consume {r : Run} (h : Evolves s t) : Evolves s (consume r t) :=
  .ite h.onComp.forgetBlock h

theorem Evolves.sendBlock {r : Run} {a : Act} (h : Evolves s t) : Evolves s (sendBlock r a t) := by
  unfold Machine.sendBlock
  cases getComp r.comp t with
  | none => exact h.failRun
  | some c =>
    extract_lets bytes
    generalize chunks 1048576 ((bytes.length + 1048575) / 1048576) bytes = parts
    cases parts with
    | nil => exact h
    | cons b rest => exact h.onModelRun.sendReq

theorem Evolves.deliverRun {c : CmdRef} (h : Evolves s t) : Evolves s (deliverRun c t) := by
  unfold Machine.deliverRun
  split
  · exact h
  · split
    · exact h
    · split
      · exact h
      · exact .ite h (.ite h.sendBlock h.consume.dropModelRun.finish)

theorem Leads.execLayerStepEnd {c : CmdRef} {layer : ℕ} {ecc : EccOutcome} {place : MemPlace} :
    Leads s (execLayerStepEnd c layer ecc place s) :=
  have h := (Evolves.refl s).endStep
  Evolves.leads (.ite h.deliverRun h)

theorem Evolves.ackedRun {c : CmdRef} (h : Evolves s t) : Evolves s (ackedRun c t) := by
  unfold Machine.ackedRun
  split
  · exact h
  · exact h.consume.dropModelRun.complete

theorem Evolves.takeBlock {m : Msg} {c : Comp} (h : Evolves s t) : Evolves s (takeBlock m c t) :=
  .ite h.respondSt h.respondSt.forgetBlock.onFab.feedRuns

theorem Leads.execActBlock {src msg : ℕ} : Leads s (execActBlock src msg s) :=
  ((Evolves.refl s).handleReq (fun _ _ _ h => h.takeBlock)).leads

end Sys2Proof.Machine
end

section
/-!
PROOFS. Every operation of the model leads to a state that comes from the one before:
what slots, partitions, media and units do.
-/
namespace Sys2Proof.Machine

variable {s t u : State}

/-! Records of a slot -/

theorem Evolves.dropRecs {id slot : ℕ} (h : Evolves s t) : Evolves s (dropRecs id slot t) := by
  unfold Machine.dropRecs
  split
  · exact h
  · split
    · exact h.onFab
    · exact h.onTab.onFab

theorem Evolves.addDupRec {c : Comp} {id slot : ℕ} {r : SlotRec} (h : Evolves s t) :
    Evolves s (addDupRec c id slot r t) :=
  .ite h h.onFab

theorem Evolves.addRec {c : Comp} {id slot : ℕ} {r : SlotRec} (h : Evolves s t) :
    Evolves s (addRec c id slot t r) := by
  unfold Machine.addRec
  split
  · exact .ite h h.onFab
  · exact h.addDupRec
  · exact .ite h.onTab h

theorem Evolves.setSlot {id slot : ℕ} {st : SlotState} (h : Evolves s t) : Evolves s (setSlot id slot st t) :=
  h.onSlot

theorem Evolves.discardRecs {id slot : ℕ} (h : Evolves s t) : Evolves s (discardRecs id slot t) := by
  unfold Machine.discardRecs
  split
  · exact h
  · exact .ite h ((h.dropRecs.onFabCounts.foldl (fun _ _ h => .ite h.failEmb h)).foldl (fun _ _ h => h.failRun))

/-! Compositions and slots -/

theorem Evolves.putComp {id : ℕ} {c : Comp} (h : Evolves s t) : Evolves s (putComp id c t) :=
  h.onFab

theorem Leads.execComposeInstall {c : CmdRef} {d : CmdIn} : Leads s (execComposeInstall c d s) :=
  ((Evolves.refl s).begin (fun _ _ _ _ h => h.putComp.completeSt)).leads

theorem Leads.execComposeRead {c : CmdRef} {d : CmdIn} : Leads s (execComposeRead c d s) :=
  have h := Evolves.refl s
  Evolves.leads (h.begin (fun _ _ _ _ h => by
  split
  · exact h
  · exact h.finish)
  )

theorem Evolves.endWaiter {kind : ℕ} {c : CmdRef} {slot st : ℕ} (h : Evolves s t) :
    Evolves s (endWaiter kind c slot st t) :=
  .ite h.failComposed (.ite h.failRun h.embReqEnds)

theorem Evolves.endHandoff {id slot st : ℕ} {back : SlotState} (h : Evolves s t) :
    Evolves s (endHandoff id slot st back t) := by
  unfold Machine.endHandoff
  split
  · exact h
  · extract_lets
    split
    · exact h.onFab.onSlot.setSlot
    · exact h.onFab.onSlot.setSlot.complete

theorem Evolves.endRequests {id : ℕ} (h : Evolves s t) : Evolves s (endRequests id t) :=
  (h.foldl (fun _ _ h => h.unholdMsg.respondSt)).foldl fun _ _ h => h.dropQuery.completeSt.pump

theorem Evolves.endUsers {id : ℕ} {c : Comp} (h : Evolves s t) : Evolves s (endUsers id c t) :=
  (((h.endRequests.foldl (fun _ _ h => h.failComposed)).foldl (fun _ _ h => h.failRun)).foldl (fun _ _ h => by
    refine .ite ?_ h.failEmb
    split
    · exact h
    · exact (h.foldl (fun _ _ h => h.loseShard)).settleRefresh)).foldl fun _ _ h => h.endHandoff

theorem Leads.execComposeRemove {c : CmdRef} {d : CmdIn} : Leads s (execComposeRemove c d s) :=
  have h := Evolves.refl s
  Evolves.leads (h.begin (fun _ _ _ _ h => by
  dsimp only
  split
  · exact h
  · exact h.endUsers.onFab.completeSt)
  )

theorem Evolves.windowEnds {id : ℕ} (h : Evolves s t) : Evolves s (windowEnds id t) := by
  unfold Machine.windowEnds
  split
  · exact h
  · split
    · exact h
    · exact .ite h h.onComp

theorem Leads.execDrainWindowEnd {comp now : ℕ} : Leads s (execDrainWindowEnd comp now s) :=
  (Evolves.refl s).atTime.windowEnds.leads

theorem Evolves.holdExpires {h' : HoldRef} (h : Evolves s t) : Evolves s (holdExpires h' t) := by
  unfold Machine.holdExpires
  split
  · split
    · exact h
    · split
      · exact h
      · exact .ite h.completeSt h
  · split
    · exact h
    · split
      · exact h
      · exact .ite h.unholdMsg.respondSt h

theorem Leads.execEpochHoldExpiry {hold : HoldRef} {now : ℕ} : Leads s (execEpochHoldExpiry hold now s) :=
  (Evolves.refl s).atTime.holdExpires.leads

theorem Evolves.sendCommit {id slot token peer dpart epoch : ℕ} (h : Evolves s t) :
    Evolves s (sendCommit id slot token peer dpart epoch t) :=
  h.sendOnly

theorem Evolves.sendRecs {id slot token peer : ℕ} (h : Evolves s t) : Evolves s (sendRecs id slot token peer t) := by
  unfold Machine.sendRecs
  cases getComp id t with
  | none => exact h
  | some c =>
    extract_lets recs
    generalize stateBodies recs = bodies
    cases bodies with
    | nil => exact h.onSlot.sendOnly.sendCommit
    | cons b rest => exact h.onSlot.sendOnly.sendReq

theorem Leads.execHandoff {c : CmdRef} {d : CmdIn} : Leads s (execHandoff c d s) :=
  ((Evolves.refl s).begin (fun _ _ _ _ h => h.setSlot.onSlot.sendRecs)).leads

theorem Evolves.handoffTimeout {id slot : ℕ} (h : Evolves s t) : Evolves s (handoffTimeout id slot t) := by
  unfold Machine.handoffTimeout
  split
  · exact h
  · exact .ite h (.ite h.onSlot.endHandoff h.onSlot.onFab)

theorem Leads.execHandoffTimeout {comp slot now : ℕ} : Leads s (execHandoffTimeout comp slot now s) :=
  (Evolves.refl s).atTime.handoffTimeout.leads

theorem Evolves.takeOffer {m : Msg} (h : Evolves s t) : Evolves s (takeOffer m t) := by
  unfold Machine.takeOffer
  split
  · exact h.takeMsg
  · refine .ite h ?_
    refine .ite h.takeMsg ?_
    refine .ite h.takeMsg.onSlot ?_
    split
    · exact h.takeMsg.setSlot.onSlot
    · exact h.takeMsg.setSlot.onSlot
    · exact h.takeMsg.askOwner
    · exact h.takeMsg
    · exact h.takeMsg

theorem Leads.execHandoffOffer {src msg : ℕ} : Leads s (execHandoffOffer src msg s) := by
  have h := Evolves.refl s
  refine Evolves.leads ?_
  split
  · exact h
  · exact h.takeOffer

theorem Evolves.sendAccept {m : Msg} {c : Comp} {st : ℕ} (h : Evolves s t) : Evolves s (sendAccept m c st t) :=
  h.sendOnly

theorem Evolves.acceptSlot {m : Msg} (h : Evolves s t) : Evolves s (acceptSlot m t) := by
  unfold Machine.acceptSlot
  split
  · exact h
  · extract_lets _ _ _ done recorded
    have hdone : Evolves s done := h.onSlot
    have hrecorded : Evolves s recorded := hdone.foldl fun _ _ h => h.addRec
    exact .ite h (.ite (Evolves.ite hdone.setSlot hdone).sendAccept (Evolves.ite hrecorded.setSlot hrecorded).sendAccept)

theorem Evolves.takeCommit {m : Msg} (h : Evolves s t) : Evolves s (takeCommit m t) := by
  unfold Machine.takeCommit
  split
  · exact h.takeMsg
  · exact .ite h.takeMsg.sendAccept (.ite h.takeMsg.onSlot.acceptSlot (.ite h.takeMsg h))

theorem Leads.execHandoffCommit {src msg : ℕ} : Leads s (execHandoffCommit src msg s) := by
  have h := Evolves.refl s
  refine Evolves.leads ?_
  split
  · exact h
  · exact h.takeCommit

theorem Evolves.takeState {m : Msg} (h : Evolves s t) : Evolves s (takeState m t) := by
  unfold Machine.takeState
  split
  · exact h.unholdMsg.respondSt
  · exact .ite h.unholdMsg.respondSt (.ite h.unholdMsg.onSlot.respondSt.acceptSlot h.holdMsg)

theorem Leads.execHandoffState {src msg : ℕ} : Leads s (execHandoffState src msg s) := by
  have h := Evolves.refl s
  refine Evolves.leads ?_
  split
  · exact .ite h.takeMsg.fabricDup.takeState h.takeMsg.fabricDup
  · split
    · exact h.takeState
    · exact h

theorem Evolves.takeAccept {m : Msg} (h : Evolves s t) : Evolves s (takeAccept m t) := by
  unfold Machine.takeAccept
  split
  · exact h
  · exact .ite h (.ite (.ite h.endHandoff h.onSlot) (.ite h.dropRecs.endHandoff h.dropRecs.onSlot))

theorem Leads.execHandoffAccept {src msg : ℕ} : Leads s (execHandoffAccept src msg s) :=
  ((Evolves.refl s).handleCtrl (fun _ _ h => h.takeAccept)).leads

theorem Evolves.decideOwner {m : Msg} {c : Comp} (h : Evolves s t) : Evolves s (decideOwner m c t) :=
  .ite h (.ite h.setSlot (.ite h.setSlot h.setSlot.onComp.sendRecs))

theorem Leads.execOwnerQuery {src msg : ℕ} : Leads s (execOwnerQuery src msg s) :=
  have h := Evolves.refl s
  Evolves.leads (h.handleCtrl (fun _ _ h => by
  split
  · exact h
  · exact h.sendOnly.decideOwner)
  )

theorem Leads.execOwnerAns {src msg : ℕ} : Leads s (execOwnerAns src msg s) :=
  have h := Evolves.refl s
  Evolves.leads (h.handleCtrl (fun _ _ h => by
  split
  · exact h
  · exact h.onSlot.decideOwner)
  )

theorem Evolves.retryQuery {id slot : ℕ} (h : Evolves s t) : Evolves s (retryQuery id slot t) := by
  unfold Machine.retryQuery
  split
  · exact h
  · split
    · exact h
    · exact .ite h h.onSlot.askOwner

theorem Leads.execOwnerQueryRetry {comp slot now : ℕ} : Leads s (execOwnerQueryRetry comp slot now s) :=
  (Evolves.refl s).atTime.retryQuery.leads

theorem Evolves.orphanSweep {id : ℕ} (h : Evolves s t) : Evolves s (orphanSweep id t) := by
  unfold Machine.orphanSweep
  split
  · exact h
  · exact .ite h (h.foldl (fun _ _ h => h.discardRecs)).onComp

theorem Leads.execOrphanSweep {comp now : ℕ} : Leads s (execOrphanSweep comp now s) :=
  (Evolves.refl s).atTime.orphanSweep.leads

theorem Evolves.ackFails {r : Req} {m : Msg} {c : CmdRef} (h : Evolves s t) : Evolves s (ackFails r m c t) := by
  unfold Machine.ackFails
  refine .ite h.failRun ?_
  split
  · exact h
  · exact .ite h.embReqEnds h.failEmb

theorem Evolves.takeAck {r : Req} {m : Msg} (h : Evolves s t) : Evolves s (takeAck r m t) := by
  unfold Machine.takeAck
  split
  · refine .ite h.ackFails ?_
    split
    · exact h.sendReq
    · exact .ite h.ackedRun h.unawait
  · refine .ite h ?_
    split
    · exact h.sendReq
    · exact h.sendCommit

theorem Leads.execBulkAck {src msg : ℕ} : Leads s (execBulkAck src msg s) :=
  ((Evolves.refl s).handleRsp (fun _ _ _ h => h.takeAck)).leads

theorem Evolves.requestTimeout {id : ℕ} (h : Evolves s t) : Evolves s (requestTimeout id t) := by
  unfold Machine.requestTimeout
  split
  · exact h
  · refine .ite h ?_
    split
    · exact (Evolves.ite h.dropReq.onXq h.dropReq.onXq.onFab.sendOnly).endWaiter
    · exact .ite h.dropReq.onXq h.dropReq.onXq.onFab.sendOnly

theorem Leads.execRequestTimeout {req now : ℕ} : Leads s (execRequestTimeout req now s) :=
  (Evolves.refl s).atTime.requestTimeout.leads

theorem Evolves.endWaiting {id node : ℕ} (h : Evolves s t) : Evolves s (endWaiting id node t) := by
  unfold Machine.endWaiting
  dsimp only
  split
  · exact h.foldl (fun _ _ h => by
      split
      · exact h.dropReq.endWaiter
      · exact h)
  · exact (h.foldl (fun _ _ h => by
      split
      · exact h.dropReq.endWaiter
      · exact h)).foldl fun _ _ h => h.endHandoff

theorem Evolves.markLost {node id : ℕ} (h : Evolves s t) : Evolves s (markLost node t id) :=
  h.onComp.endWaiting

theorem Evolves.tellLost {node : ℕ} {e : ℕ × Comp} (h : Evolves s t) : Evolves s (tellLost node t e) :=
  (h.foldl (fun _ _ h => h.sendOnly)).takeFree.fileRec

theorem Evolves.memberLost {node : ℕ} (h : Evolves s t) : Evolves s (memberLost node t) := by
  unfold Machine.memberLost
  split
  · exact h
  · exact .ite h ((h.onFab.foldl (fun _ _ h => h.markLost)).foldl (fun _ _ h => h.tellLost))

theorem Leads.execMemberLost {node now : ℕ} : Leads s (execMemberLost node now s) :=
  (Evolves.refl s).atTime.memberLost.leads

theorem Leads.execLostNotice {src msg : ℕ} : Leads s (execLostNotice src msg s) :=
  ((Evolves.refl s).handleCtrl (fun _ _ h => h.foldl (fun _ _ h => h.markLost))).leads

/-! Commands ended early -/

theorem Evolves.endSearch {c : CmdRef} (h : Evolves s t) : Evolves s (endSearch c t) :=
  h.endComposed.dropQuery

theorem Evolves.endGroup {c : CmdRef} (h : Evolves s t) : Evolves s (endGroup c t) := by
  unfold Machine.endGroup
  split
  · exact h.releaseGroup
  · exact h

theorem Evolves.endStallWork {c : CmdRef} (h : Evolves s t) : Evolves s (endStallWork c t) := by
  unfold Machine.endStallWork
  split
  · exact (Evolves.ite h.onIndex h).dropJobs.dropRowCmd.onStk
  · exact h.dropJobs.dropRowCmd.onStk

theorem Evolves.endModelWork {c : CmdRef} (h : Evolves s t) : Evolves s (endModelWork c t) := by
  unfold Machine.endModelWork
  exact (Evolves.ite h.dropModelRun h).onTil (by exact id)

theorem Evolves.dropStaged {c : CmdRef} (h : Evolves s t) : Evolves s (dropStaged c t) :=
  h.onPtn (by exact id)

theorem Evolves.endHandoffOf {c : CmdRef} (h : Evolves s t) : Evolves s (endHandoffOf c t) :=
  h.foldl (fun _ _ h => h.foldl (fun _ _ h => h.onSlot.endHandoff))

theorem Evolves.releaseCmd {c : CmdRef} (h : Evolves s t) : Evolves s (releaseCmd c t) :=
  (h.onMed.onBoot (by exact id)).dropHostItems.endSearch.endGroup.dropSelect.endStallWork.endModelWork.endEmb.cancelReqs
    |>.dropStaged.endHandoffOf

theorem Evolves.endCmd {c : CmdRef} {st : ℕ} (h : Evolves s t) : Evolves s (endCmd c st t) := by
  unfold Machine.endCmd
  split
  · exact h
  · exact .ite h h.releaseCmd.completeSt.settleAllEmb

theorem Evolves.abortAll {cs : List CmdRef} (h : Evolves s t) : Evolves s (abortAll cs t) :=
  h.foldl fun _ _ h => h.endCmd

theorem Leads.execAbort {c : CmdRef} {d : CmdIn} : Leads s (execAbort c d s) :=
  ((Evolves.refl s).begin (fun _ _ _ _ h => h.abortAll.complete)).leads

theorem Leads.execDeadlineExpiry {c : CmdRef} {now : ℕ} : Leads s (execDeadlineExpiry c now s) := by
  have h := Evolves.refl s
  refine Evolves.leads ?_
  split
  · exact h.atTime
  · exact .ite h.atTime.endCmd h.atTime

theorem Evolves.resetPartition {p : ℕ} (h : Evolves s t) : Evolves s (resetPartition p t) :=
  h.abortAll.foldl fun _ _ h => h.disableQueue

theorem Evolves.leaveD3 {f : Fn} (h : Evolves s t) : Evolves s (leaveD3 f t) :=
  h.onHost

theorem Leads.execFunctionLevelResetVf {port : Port} {n : ℕ} : Leads s (execFunctionLevelResetVf port n s) :=
  have h := Evolves.refl s
  (Evolves.ite h.resetPartition.leaveD3 h).leads

theorem Evolves.resetPf {port : Port} (h : Evolves s t) : Evolves s (resetPf port t) :=
  h.onHost.disableQueue.foldl fun _ _ h => h.resetPartition

theorem Leads.execFunctionLevelResetPf {port : Port} : Leads s (execFunctionLevelResetPf port s) :=
  (Evolves.refl s).resetPf.leaveD3.leads

theorem Evolves.stopQueues {p : ℕ} (h : Evolves s t) : Evolves s (stopQueues p t) :=
  h.foldl fun _ _ h => h.onQueue

theorem Evolves.flushHostq {p : ℕ} (h : Evolves s t) : Evolves s (flushHostq p t) :=
  h.setHostq.foldl (fun _ _ h => by
    split
    · exact h
    · exact h.writeEntry)

theorem Evolves.adoptOne {port : Port} {p : ℕ} (h : Evolves s t) : Evolves s (adoptOne port t p) :=
  h.onHost.abortAll.flushHostq.onHost.stopQueues.onPart

theorem Leads.execPartAdopt {c : CmdRef} {d : CmdIn} : Leads s (execPartAdopt c d s) :=
  have h := Evolves.refl s
  (h.begin (fun _ _ _ _ h => (h.foldl (fun _ _ h => h.adoptOne)).complete)).leads

/-! Register access -/

theorem Evolves.setLatch {f : Fn} {v : Option (ℕ × ℕ)} (h : Evolves s t) : Evolves s (setLatch f v t) :=
  h.onHost

theorem Evolves.flushLatch {f : Fn} (h : Evolves s t) : Evolves s (flushLatch f t) := by
  unfold Machine.flushLatch
  split
  · exact h
  · exact h.setLatch.fileBadAccess

theorem Evolves.writeAt {f : Fn} {off : ℕ} {act : State → State} (h : Evolves s t)
    (hact : ∀ u, Evolves s u → Evolves s (act u)) : Evolves s (writeAt f off act t) := by
  unfold Machine.writeAt
  refine .ite h ?_
  refine .ite h ?_
  dsimp only
  split
  · exact h.flushLatch.fileBadAccess
  · exact h.flushLatch.fileForeign
  · exact .ite (hact _ h.flushLatch) h.flushLatch

/-! Partitions -/

theorem Evolves.gateUnits {l : List (UnitKind × ℕ)} (h : Evolves s t) : Evolves s (gateUnits l t) :=
  h.onPtn (by exact id)

theorem Evolves.endUnserved {p : ℕ} (h : Evolves s t) : Evolves s (endUnserved p t) :=
  ((h.foldl (fun _ _ h => h.endQuery)).foldl (fun _ _ h => by
    split
    · exact .ite h.failRun h
    · exact h)).pump

theorem Evolves.makeCtx {p n gang us : ℕ} (h : Evolves s t) : Evolves s (makeCtx p n gang us t) := by
  unfold Machine.makeCtx
  refine h.onPart.onTil fun hold e he => ?_
  obtain ⟨x, hx, rfl⟩ := List.mem_map.1 he
  dsimp only
  split
  · exact hold x hx
  · exact hold x hx

theorem Evolves.endStaged {c : CmdRef} {v : Verdict} {f : State → State} (h : Evolves s t)
    (hf : ∀ u, Evolves s u → Evolves s (f u)) : Evolves s (endStaged c v f t) := by
  unfold Machine.endStaged
  split
  · exact (hf _ h).completeSt
  · exact h.complete
  · exact h

theorem Evolves.applyOne {p : ℕ} {g : Staged} (h : Evolves s t) : Evolves s (applyOne p t g) := by
  unfold Machine.applyOne
  split
  · exact h.endStaged fun _ h => h.onPart
  · exact h.endStaged fun _ h => h.onPart.gateUnits.endUnserved
  · exact h.endStaged fun _ h => h.onPart
  · exact h.onPart
  · exact h.onPart
  · exact h.endStaged fun _ h => h.makeCtx

theorem Evolves.applyStaged {p : ℕ} (h : Evolves s t) : Evolves s (applyStaged p t) :=
  h.onPart.foldl fun _ _ h => h.applyOne

theorem Evolves.stage {p : ℕ} {g : Staged} (h : Evolves s t) : Evolves s (stage p g t) :=
  .ite h.onPart.applyStaged h.onPart

theorem Evolves.freshPage {p : ℕ} (h : Evolves s t) : Evolves s (freshPage p t) :=
  h.onHost.onPart

theorem Leads.execPartConfigCreate {c : CmdRef} {d : CmdIn} : Leads s (execPartConfigCreate c d s) :=
  ((Evolves.refl s).begin (fun _ _ _ _ h => h.freshPage.onPart.completeSt)).leads

theorem Leads.execPartConfigDestroy {c : CmdRef} {d : CmdIn} : Leads s (execPartConfigDestroy c d s) :=
  ((Evolves.refl s).begin (fun _ _ _ _ h => h.resetPartition.gateUnits.freshPage.completeSt)).leads

theorem Leads.execPartConfigGrant {c : CmdRef} {d : CmdIn} : Leads s (execPartConfigGrant c d s) :=
  ((Evolves.refl s).begin (fun _ _ _ _ h => h.stage)).leads

theorem Leads.execPartConfigWithdraw {c : CmdRef} {d : CmdIn} : Leads s (execPartConfigWithdraw c d s) :=
  ((Evolves.refl s).begin (fun _ _ _ _ h => h.stage)).leads

theorem Leads.execPartConfigShares {c : CmdRef} {d : CmdIn} : Leads s (execPartConfigShares c d s) :=
  ((Evolves.refl s).begin (fun _ _ _ _ h => h.stage)).leads

/-- A region that is added brings a canonical memory. -/
theorem Evolves.putRegion {n : ℕ} {r : Region} (h : Evolves s t) (hr : Memory.wf r.mem) :
    Evolves s (putRegion n r t) := by
  refine h.onPtn fun hold e he => ?_
  rcases mem_tins he with rfl | he
  · exact hr
  · exact hold e (List.mem_of_mem_filter he)

theorem Leads.execPartConfigRegionAlloc {c : CmdRef} {d : CmdIn} : Leads s (execPartConfigRegionAlloc c d s) := by
  refine ((Evolves.refl s).begin fun _ _ _ _ h => ?_).leads
  split
  · exact h.completeSt
  · exact (h.putRegion wf_nil).complete

theorem Leads.execPartConfigRegionFree {c : CmdRef} {d : CmdIn} : Leads s (execPartConfigRegionFree c d s) :=
  ((Evolves.refl s).begin fun _ _ _ _ h =>
    (h.onPtn fun hold e he => hold e (List.mem_of_mem_filter he)).completeSt).leads

theorem Leads.execPartConfigPort {c : CmdRef} {d : CmdIn} : Leads s (execPartConfigPort c d s) :=
  ((Evolves.refl s).begin (fun _ _ _ _ h => h.onPart.completeSt)).leads

theorem Evolves.putTab {h' : ℕ} {t' : Tab} (h : Evolves s t) : Evolves s (putTab h' t' t) :=
  h.onEmb

theorem Leads.execPartConfigTableCreate {c : CmdRef} {d : CmdIn} : Leads s (execPartConfigTableCreate c d s) :=
  ((Evolves.refl s).begin (fun _ _ _ _ h => h.putTab.completeSt)).leads

theorem Leads.execPartConfigTableResize {c : CmdRef} {d : CmdIn} : Leads s (execPartConfigTableResize c d s) :=
  ((Evolves.refl s).begin (fun _ _ _ _ h => h.onTab.completeSt)).leads

theorem Leads.execPartConfigTableDestroy {c : CmdRef} {d : CmdIn} : Leads s (execPartConfigTableDestroy c d s) :=
  ((Evolves.refl s).begin (fun _ _ _ _ h => h.onEmb.completeSt)).leads

theorem Leads.execPartConfigTableRead {c : CmdRef} {d : CmdIn} : Leads s (execPartConfigTableRead c d s) :=
  have h := Evolves.refl s
  Evolves.leads (h.begin (fun _ _ _ _ h => by
  split
  · exact h
  · exact h.finish)
  )

/-! The media commands -/

theorem Leads.execMedProfile {c : CmdRef} {d : CmdIn} : Leads s (execMedProfile c d s) :=
  ((Evolves.refl s).begin (fun _ _ _ _ h => h.onMed.completeSt)).leads

theorem Evolves.mountSegment (h : Evolves s t) : Evolves s (mountSegment t) := by
  unfold Machine.mountSegment
  exact h.onMed.onMedCounts

theorem Evolves.formatFlash {f : MedFormat} {bad : List ℕ} (h : Evolves s t) : Evolves s (formatFlash f bad t) :=
  h.onMed.onMedCounts.mountSegment

theorem Leads.execMedFormat {c : CmdRef} {d : CmdIn} {bad : List ℕ} : Leads s (execMedFormat c d bad s) :=
  ((Evolves.refl s).begin (fun _ _ _ _ h => h.formatFlash.completeSt)).leads

theorem Leads.execMedCheckpoint {c : CmdRef} {d : CmdIn} : Leads s (execMedCheckpoint c d s) :=
  ((Evolves.refl s).begin (fun _ _ _ _ h => h.onMed.startCkpt)).leads

theorem Leads.execMedRetireLun {c : CmdRef} {d : CmdIn} : Leads s (execMedRetireLun c d s) :=
  ((Evolves.refl s).begin (fun _ _ _ _ h => h.failLun.complete)).leads

theorem Leads.execMedInfo {c : CmdRef} {d : CmdIn} : Leads s (execMedInfo c d s) :=
  ((Evolves.refl s).begin (fun _ _ _ _ h => h.finish)).leads

theorem Evolves.adoptPage {e : ℕ × Tag} (h : Evolves s t) : Evolves s (adoptPage t e) :=
  .ite h (.ite h.onMed h)

theorem Evolves.failChannel {c mismatch : ℕ} (h : Evolves s t) : Evolves s (failChannel c mismatch t) :=
  (h.foldl (fun _ _ h => h.onLun)).fileRec

theorem Evolves.checkParts {parts : List PartReport} (h : Evolves s t) : Evolves s (checkParts parts t) := by
  unfold Machine.checkParts
  split
  · exact h
  · exact (h.foldl (fun _ _ h => by
      split
      · exact h.failChannel
      · exact h)).onMed

theorem Evolves.scanPage {lost : List ℕ} {e : ℕ × Tag} (h : Evolves s t) : Evolves s (scanPage lost t e) :=
  .ite h.adoptPage (.ite h.onMedCounts.adoptPage h.fileRec)

theorem Evolves.checkGasp (h : Evolves s t) : Evolves s (checkGasp t) := by
  unfold Machine.checkGasp
  split
  · exact h
  · exact h.foldl fun _ _ h => .ite h h.flashFail

theorem Evolves.closeStreams (h : Evolves s t) : Evolves s (closeStreams t) :=
  h.onMed.foldl (fun _ _ h => by
    split
    · exact h.setBlocks
    · exact h)

theorem Evolves.eraseDirty (h : Evolves s t) : Evolves s (eraseDirty t) :=
  h.foldl fun _ _ h => h.issueOp

theorem Evolves.closeOpenStripes (h : Evolves s t) : Evolves s (closeOpenStripes t) :=
  h.foldl fun _ _ h => h.copyPage

theorem Evolves.mountMedia {lost : List ℕ} (h : Evolves s t) : Evolves s (mountMedia lost t) := by
  unfold Machine.mountMedia
  extract_lets _ checked scanned _ _ _ ready _ _
  have hchecked : Evolves s checked := h.onMed.checkGasp
  have hscanned : Evolves s scanned := hchecked.foldl fun _ _ h => h.scanPage
  have hready : Evolves s ready := hscanned.onMed.closeStreams.onMed.takeFree
  exact hready.mountSegment.checkCapacity.onSrch.eraseDirty.sweepEmpty.closeOpenStripes

theorem Evolves.startMedia {parts : List PartReport} {lost : List ℕ} (h : Evolves s t) :
    Evolves s (startMedia parts lost t) :=
  .ite (.ite h.checkParts.mountMedia h.checkParts) h

theorem Leads.execMediaMount {parts : List PartReport} {lost : List ℕ} : Leads s (execMediaMount parts lost s) :=
  (Evolves.refl s).startMedia.leads

theorem Evolves.finishWork {e : ℕ × OpWork} (h : Evolves s t) : Evolves s (finishWork t e) := by
  unfold Machine.finishWork
  split
  · exact h.landProgram
  · exact h.countProgram.segPageDone
  · exact h.countProgram.anchorDone
  · exact h

theorem Evolves.dropOps (h : Evolves s t) : Evolves s (dropOps t) :=
  h.onMed

theorem Evolves.finishPrograms (h : Evolves s t) : Evolves s (finishPrograms t) :=
  (h.onHost.dropOps.foldl (fun _ _ h => h.finishWork)).onHost.dropOps

theorem Evolves.gaspFlash (h : Evolves s t) : Evolves s (gaspFlash t) :=
  .ite h.finishPrograms.onMed h.finishPrograms

theorem Evolves.powerCycleFlash (h : Evolves s t) : Evolves s (powerCycleFlash t) := by
  unfold Machine.powerCycleFlash
  exact h.onMed.onMed

/-! Contexts and the scheduler -/

theorem Leads.execCtxCreate {c : CmdRef} {d : CmdIn} : Leads s (execCtxCreate c d s) :=
  ((Evolves.refl s).begin (fun _ _ _ _ h => .ite h.stage h.makeCtx.completeSt)).leads

theorem Leads.execCtxDestroy {c : CmdRef} {d : CmdIn} : Leads s (execCtxDestroy c d s) := by
  refine ((Evolves.refl s).begin fun _ _ _ _ h => (h.onPart.onTil fun hold e he => ?_).completeSt).leads
  obtain ⟨x, hx, rfl⟩ := List.mem_map.1 he
  dsimp only
  split
  · exact hold x hx
  · exact hold x hx

theorem Evolves.countPtnBusy {p : ℕ} (h : Evolves s t) : Evolves s (countPtnBusy p t) :=
  h.onPart

theorem Evolves.writeCtx {p n v : ℕ} (h : Evolves s t) : Evolves s (writeCtx p n v t) :=
  .ite h (.ite (.ite h (.ite h.countPtnBusy h.stage)) (Evolves.ite h (.ite h.countPtnBusy h.stage)).stage)

theorem Evolves.resumeTiles {p : ℕ} {cs : List ℕ} (h : Evolves s t) : Evolves s (resumeTiles p cs t) := by
  unfold Machine.resumeTiles
  exact h.onTil (by exact id)

theorem Evolves.loseSaved {p : ℕ} {cs : List ℕ} {x : ℕ × MemPlace} (h : Evolves s t) :
    Evolves s (loseSaved p cs t x) :=
  h.foldl (fun _ _ h => by
    split
    · exact (h.dramLost.of_fst ‹_›).dropModelRun.completeRec)

theorem Evolves.startGang {p gang : ℕ} {lost : List (ℕ × MemPlace)} (h : Evolves s t) :
    Evolves s (startGang p gang lost t) :=
  (h.foldl (fun _ _ h => h.loseSaved)).resumeQueries.resumeTiles.onPart

theorem Leads.execGangStart {p now : ℕ} {lost : List (ℕ × MemPlace)} : Leads s (execGangStart p now lost s) := by
  have h := Evolves.refl s
  refine Evolves.leads ?_
  refine .ite ?_ h.atTime
  split
  · exact h.atTime.startGang
  · exact h.atTime

theorem Leads.execSliceEnd {p now : ℕ} : Leads s (execSliceEnd p now s) :=
  have h := Evolves.refl s
  (Evolves.ite h.atTime.onPart h.atTime).leads

theorem Leads.execStopPosted {p now : ℕ} : Leads s (execStopPosted p now s) :=
  have h := Evolves.refl s
  (Evolves.ite (.ite h.atTime.onPart (.ite h.atTime.onPart h.atTime)) h.atTime).leads

theorem Evolves.drainTile {t' : ℕ} (h : Evolves s t) : Evolves s (drainTile t t') := by
  unfold Machine.drainTile
  split
  · exact h
  · exact h.foldl fun _ _ h => h.tileDmaDone

theorem Evolves.saveTiles {p : ℕ} {cs : List ℕ} (h : Evolves s t) : Evolves s (saveTiles p cs t) := by
  unfold Machine.saveTiles
  exact (h.foldl (fun _ _ h => h.drainTile)).onTil (by exact id)

theorem Evolves.parkCtxs {p : ℕ} {cs : List ℕ} (h : Evolves s t) : Evolves s (parkCtxs p cs t) :=
  h.onPart

theorem Evolves.enterQuiesced {p : ℕ} (h : Evolves s t) : Evolves s (enterQuiesced p t) :=
  h.parkQueries.onPart

theorem Evolves.afterSwitch {p : ℕ} {was : PState} {lost : List (ℕ × MemPlace)} (h : Evolves s t) :
    Evolves s (afterSwitch p was lost t) := by
  unfold Machine.afterSwitch
  refine .ite h.enterQuiesced ?_
  refine .ite h.onPart ?_
  split
  · exact h.startGang
  · exact h.onPart

theorem Evolves.switchGang {p ns : ℕ} {lost : List (ℕ × MemPlace)} (h : Evolves s t) :
    Evolves s (switchGang p ns lost t) :=
  .ite h h.parkQueries.saveTiles.parkCtxs.onPart.applyStaged.afterSwitch

theorem Leads.execContextSwitch {p now ns : ℕ} {lost : List (ℕ × MemPlace)} :
    Leads s (execContextSwitch p now ns lost s) :=
  have h := Evolves.refl s
  (Evolves.ite h.atTime.switchGang h.atTime).leads

theorem Evolves.startQuiesce {p : ℕ} (h : Evolves s t) : Evolves s (startQuiesce p t) := by
  unfold Machine.startQuiesce
  dsimp only
  split
  · exact h.enterQuiesced.applyStaged
  · exact h.onPart
  · exact h

theorem Evolves.endQuiesce {p : ℕ} (h : Evolves s t) : Evolves s (endQuiesce p t) :=
  .ite h.onPart.resumeQueries h

theorem Evolves.settleQuiesce {p : ℕ} (h : Evolves s t) : Evolves s (settleQuiesce p t) :=
  .ite h.startQuiesce h.endQuiesce

theorem Evolves.writePtnCtrl {p v : ℕ} (h : Evolves s t) : Evolves s (writePtnCtrl p v t) :=
  h.onPart.settleQuiesce

/-! Units and repairs -/

theorem Evolves.useSpare {kind : UnitKind} {n : ℕ} (h : Evolves s t) : Evolves s (useSpare kind n t) := by
  unfold Machine.useSpare
  split
  · exact h.onErr
  · exact h

theorem Evolves.endUncorr {seq : ℕ} {dropped : Bool} {c : CmdRef} (h : Evolves s t) :
    Evolves s (endUncorr seq dropped t c) := by
  unfold Machine.endUncorr
  split
  · exact h
  · exact .ite h h.releaseCmd.completeRec.settleAllEmb

theorem Evolves.endWork {kind : UnitKind} {n : ℕ} {parked : Bool} {seq : ℕ} {dropped : Bool} (h : Evolves s t) :
    Evolves s (endWork kind n parked seq dropped t) :=
  (h.foldl (fun _ _ h => h.endUncorr)).pump

theorem Evolves.settleWait {p : ℕ} (h : Evolves s t) : Evolves s (settleWait p t) :=
  .ite h h.onPart.settleQuiesce

theorem Evolves.retireUnit {kind : UnitKind} {n seq : ℕ} {dropped : Bool} (h : Evolves s t) :
    Evolves s (retireUnit kind n seq dropped t) :=
  h.onErr.logRepair.fileRec.endWork.settleWait

theorem Evolves.loseSelector {n seq : ℕ} {dropped : Bool} (h : Evolves s t) :
    Evolves s (loseSelector n seq dropped t) :=
  .ite h.returnRow (h.returnRow.foldl (fun _ _ h => h.endUncorr)).pump

theorem Evolves.takeOut {kind : UnitKind} {n : ℕ} {fatal : Bool} (h : Evolves s t) :
    Evolves s (takeOut kind n fatal t) := by
  unfold Machine.takeOut
  refine .ite h ?_
  extract_lets
  split
  rename_i he
  extract_lets _ noted lost ended
  have hnoted : Evolves s noted := (h.fileErr.of_fst he).onErr
  have hlost : Evolves s lost := .ite hnoted.loseSelector hnoted
  have hended : Evolves s ended := .ite hlost.endWork hlost
  exact .ite hended.retireUnit hended.settleWait

theorem Evolves.substitute {kind : UnitKind} {n : ℕ} {spareOk : Bool} (h : Evolves s t) :
    Evolves s (substitute kind n spareOk t) := by
  unfold Machine.substitute
  split
  · exact h
  · extract_lets _ used
    have hv : Evolves s used := h.useSpare
    refine .ite h (.ite ?_ ?_)
    · exact (Evolves.ite hv.logRepair.fileRec.onErr.onPart hv.logRepair.fileRec.onErr).settleWait
    · exact .ite hv.logRepair.fileErr.retireUnit hv.logRepair.fileErr

theorem Evolves.haltModule (h : Evolves s t) : Evolves s (haltModule t) := by
  unfold Machine.haltModule
  split
  extract_lets ended disabled
  have hended : Evolves s ended := h.foldl fun _ _ h => h.endUncorr
  have hdisabled : Evolves s disabled := hended.foldl fun _ _ h => h.onLane.laneFails fun _ _ h => h.resendOf
  exact hdisabled.gaspFlash

theorem Evolves.settleHalt {f : State → State} (h : Evolves s t) (hf : ∀ u, Evolves s u → Evolves s (f u)) :
    Evolves s (settleHalt f t) :=
  .ite (hf _ h).haltModule (hf _ h)

theorem Evolves.patrolRead {stack pc bank row unit : ℕ} {found again : EccOutcome} (h : Evolves s t) :
    Evolves s (patrolRead stack pc bank row unit found again t) := by
  unfold Machine.patrolRead
  split
  · exact h.noteRead
  · exact h.dramLost
  · exact (Evolves.ite h.dramCorrected.onDram.onErr h.dramCorrected).dramRead

theorem Evolves.patrol {stack pc bank row unit : ℕ} {found again : EccOutcome} (h : Evolves s t) :
    Evolves s (patrol stack pc bank row unit found again t) :=
  .ite h (.ite h.patrolRead.onDram h.patrolRead)

theorem Evolves.countCe {kind : UnitKind} {n : ℕ} (h : Evolves s t) : Evolves s (countCe kind n t) :=
  .ite h.onErr.takeOut h.onErr

theorem Evolves.loseRecord {word : ℕ} (h : Evolves s t) : Evolves s (loseRecord word t) := by
  unfold Machine.loseRecord
  dsimp only
  split
  · exact h
  · exact h.onErrQueue.onErr.pfInterrupt

theorem Evolves.sramLost {struct place unit word : ℕ} {owner : Option UnitKind} (h : Evolves s t) :
    Evolves s (sramLost struct place unit word owner t) := by
  unfold Machine.sramLost
  split
  · split
    · exact .ite h.onErr.loseRecord.fileErr.takeOut h.onErr.loseRecord.fileErr
    · exact h.onErr.loseRecord.fileErr
  · split
    · exact .ite h.onErr.fileErr.takeOut h.onErr.fileErr
    · exact h.onErr.fileErr

theorem Evolves.sramRead {struct place unit word : ℕ} {owner : Option UnitKind} {found : EccOutcome}
    (h : Evolves s t) : Evolves s (sramRead struct place unit word owner found t) := by
  unfold Machine.sramRead
  split
  · exact h
  · exact h.sramLost
  · split
    · exact h.onErr.fileRec.countCe
    · exact h.onErr.fileRec

theorem Evolves.flitFails {boundary link : ℕ} {again : Bool} {c : Option CmdRef} (h : Evolves s t) :
    Evolves s (flitFails boundary link again c t) := by
  unfold Machine.flitFails
  refine .ite h ?_
  refine .ite h.onErr ?_
  split
  · dsimp only
    split <;> exact h.onErr.onErr.fileErr.endUncorr
  · dsimp only
    split <;> exact h.onErr.onErr.fileErr

theorem Evolves.watchdog {kind : UnitKind} {n : ℕ} (h : Evolves s t) : Evolves s (watchdog kind n t) :=
  .ite h h.fileErr.onErr.takeOut

theorem Evolves.handleRec {sev seq : ℕ} (h : Evolves s t) : Evolves s (handleRec sev seq t) :=
  h.onErrQueue

theorem Evolves.writeErrQstat {f : Fn} {sev v : ℕ} (h : Evolves s t) : Evolves s (writeErrQstat f sev v t) :=
  .ite (.ite h.onErrQueue h) (Evolves.ite h.onErrQueue h).onErrQueue

theorem Evolves.passOwner {lost : Port} (h : Evolves s t) : Evolves s (passOwner lost t) :=
  .ite h.onErr h

theorem Leads.execSubstitution {kind : UnitKind} {unit : ℕ} {spareOk : Bool} :
    Leads s (execSubstitution kind unit spareOk s) :=
  ((Evolves.refl s).settleHalt (fun _ h => h.substitute)).leads

theorem Leads.execUnitWatchdog {kind : UnitKind} {unit : ℕ} : Leads s (execUnitWatchdog kind unit s) :=
  ((Evolves.refl s).settleHalt (fun _ h => h.watchdog)).leads

theorem Leads.execRecordHandled {sev seq now : ℕ} : Leads s (execRecordHandled sev seq now s) :=
  have h := Evolves.refl s
  (Evolves.ite h.atTime.handleRec h).leads

theorem Leads.execErrorQueueRetire {f : Fn} {sev : ℕ} {value : W32} : Leads s (execErrorQueueRetire f sev value s) :=
  have h := Evolves.refl s
  (Evolves.ite h.writeErrQstat h).leads

theorem Leads.execPatrolScrub {stack pc bank row unit : ℕ} {first again : EccOutcome} :
    Leads s (execPatrolScrub stack pc bank row unit first again s) :=
  (Evolves.refl s).patrol.leads

theorem Leads.execSramScrub {struct place unit word : ℕ} {owner : Option UnitKind} {found : EccOutcome} :
    Leads s (execSramScrub struct place unit word owner found s) :=
  ((Evolves.refl s).settleHalt (fun _ h => h.sramRead)).leads

theorem Leads.execNocFlitFailure {boundary link : ℕ} {again : Bool} {c : Option CmdRef} :
    Leads s (execNocFlitFailure boundary link again c s) :=
  ((Evolves.refl s).settleHalt (fun _ h => h.flitFails)).leads

end Sys2Proof.Machine
end

section
/-!
PROOFS. Every operation of the model leads to a state that comes from the one before:
what the board, the boot block and the registers do.
-/
namespace Sys2Proof.Machine

variable {s t u : State}

/-! Criers, links and counters -/

theorem Evolves.onCrier {n : ℕ} {f : Crier → Crier} (h : Evolves s t) : Evolves s (onCrier n f t) :=
  h.onMbx

theorem Evolves.notifyEndpoint {code : ℕ} (h : Evolves s t) : Evolves s (notifyEndpoint code t) := by
  unfold Machine.notifyEndpoint
  split
  · exact h.emit
  · exact h

theorem Evolves.endpointWrite {e : Endpoint} {off : ℕ} {act : State → State} (h : Evolves s t)
    (hact : ∀ u, Evolves s u → Evolves s (act u)) : Evolves s (endpointWrite e off act t) := by
  unfold Machine.endpointWrite
  split
  · exact h.writeAt hact
  · exact .ite (hact _ h) h

theorem Evolves.rejectCrier {e : Endpoint} {n off : ℕ} (h : Evolves s t) : Evolves s (rejectCrier e n off t) :=
  h.onCrier.onMbx.fileRec

theorem Evolves.countPost (h : Evolves s t) : Evolves s (countPost t) :=
  h.onMbx

theorem Evolves.heartbeatPost {p : Port} {n : ℕ} (h : Evolves s t) : Evolves s (heartbeatPost p n t) :=
  .ite h.countPost h.countPost.onHost.onCrier

theorem Evolves.postCrier {e : Endpoint} {n notice : ℕ} (h : Evolves s t) : Evolves s (postCrier e n notice t) := by
  unfold Machine.postCrier
  refine .ite h.rejectCrier ?_
  split
  · exact h.heartbeatPost
  · exact .ite h.rejectCrier h.onCrier.countPost.notifyEndpoint

theorem Evolves.takeCrier {e : Endpoint} {n : ℕ} (h : Evolves s t) : Evolves s (takeCrier e n t) :=
  .ite h.rejectCrier (.ite h.onCrier.notifyEndpoint h)

theorem Evolves.withdrawCrier {e : Endpoint} {n : ℕ} (h : Evolves s t) : Evolves s (withdrawCrier e n t) :=
  .ite h.rejectCrier (.ite h.onCrier h)

theorem Evolves.timeoutCrier {n : ℕ} (h : Evolves s t) : Evolves s (timeoutCrier n t) := by
  unfold Machine.timeoutCrier
  dsimp only
  split
  · exact h
  · exact .ite h h.onCrier.onMbx.notifyEndpoint

theorem Leads.execCrierPost {e : Endpoint} {n : ℕ} {notice : W32} : Leads s (execCrierPost e n notice s) :=
  have h := Evolves.refl s
  (Evolves.ite (h.endpointWrite (fun _ h => h.postCrier)) h).leads

theorem Leads.execCrierTake {e : Endpoint} {n : ℕ} : Leads s (execCrierTake e n s) :=
  have h := Evolves.refl s
  (Evolves.ite (h.endpointWrite (fun _ h => h.takeCrier)) h).leads

theorem Leads.execCrierWithdraw {e : Endpoint} {n : ℕ} : Leads s (execCrierWithdraw e n s) :=
  have h := Evolves.refl s
  (Evolves.ite (h.endpointWrite (fun _ h => h.withdrawCrier)) h).leads

theorem Leads.execCrierTimeout {n now : ℕ} : Leads s (execCrierTimeout n now s) :=
  have h := Evolves.refl s
  (Evolves.ite h.atTime.timeoutCrier h).leads

theorem Evolves.writeCcfgFields {n v : ℕ} (h : Evolves s t) : Evolves s (writeCcfgFields n v t) :=
  .ite h.onCrier.onMbx h.onCrier

theorem Evolves.writeCcfg {e : Endpoint} {n v : ℕ} (h : Evolves s t) : Evolves s (writeCcfg e n v t) := by
  unfold Machine.writeCcfg
  split
  · exact .ite h (.ite (.ite h.onCrier h) (.ite h h.writeCcfgFields))
  · exact .ite h.writeCcfgFields h

theorem Leads.execMbxCcfgWrite {e : Endpoint} {n : ℕ} {value : W32} : Leads s (execMbxCcfgWrite e n value s) :=
  have h := Evolves.refl s
  (Evolves.ite (h.endpointWrite (fun _ h => h.writeCcfg)) h).leads

theorem Evolves.writeCstat {p : Port} {n v : ℕ} (h : Evolves s t) : Evolves s (writeCstat p n v t) :=
  h.onCrier

theorem Evolves.writeCctrl {p : Port} {n v : ℕ} (h : Evolves s t) : Evolves s (writeCctrl p n v t) :=
  .ite (Evolves.ite h.takeCrier h).withdrawCrier (.ite h.takeCrier h)

theorem Evolves.loseHeartbeat {p : Port} (h : Evolves s t) : Evolves s (loseHeartbeat p t) :=
  h.onHost.onMbx.onCrier.emit.fileRec.passOwner

theorem Evolves.heartbeatTimeout {p : Port} (h : Evolves s t) : Evolves s (heartbeatTimeout p t) := by
  unfold Machine.heartbeatTimeout
  split
  · exact h
  · exact .ite h.loseHeartbeat h

theorem Leads.execHeartbeatTimeout {port : Port} {now : ℕ} : Leads s (execHeartbeatTimeout port now s) :=
  (Evolves.refl s).atTime.heartbeatTimeout.leads

theorem Evolves.linkUp {p : Port} (h : Evolves s t) : Evolves s (linkUp p t) :=
  .ite h h.onHost

theorem Evolves.linkDown {p : Port} (h : Evolves s t) : Evolves s (linkDown p t) :=
  .ite h.onHost.loseHeartbeat h

theorem Leads.execPcieLinkUp {port : Port} : Leads s (execPcieLinkUp port s) :=
  (Evolves.refl s).linkUp.leads

theorem Leads.execPcieLinkDown {port : Port} : Leads s (execPcieLinkDown port s) :=
  (Evolves.refl s).linkDown.leads

theorem Leads.execPerstAssert {port : Port} {us : ℕ} : Leads s (execPerstAssert port us s) :=
  have h := Evolves.refl s
  (Evolves.ite h h.onHost.linkDown).leads

theorem Leads.execPerstDeassert {port : Port} : Leads s (execPerstDeassert port s) :=
  (Evolves.refl s).onHost.leads

theorem Leads.execD3hotTransition {f : Fn} {d3 : Bool} : Leads s (execD3hotTransition f d3 s) :=
  have h := Evolves.refl s
  (Evolves.ite h (.ite h.leaveD3 (.ite h.onHost h))).leads

theorem Evolves.setAwake {kind : UnitKind} {n : ℕ} {on : Bool} (h : Evolves s t) :
    Evolves s (setAwake kind n on t) := by
  unfold Machine.setAwake
  split
  · exact h.onStall
  · exact h.onPtn (by exact id)

theorem Evolves.gateUnit {kind : UnitKind} {n since : ℕ} (h : Evolves s t) : Evolves s (gateUnit kind n since t) :=
  .ite h.setAwake h

theorem Leads.execGatingEntry {kind : UnitKind} {unit since now : ℕ} :
    Leads s (execGatingEntry kind unit since now s) :=
  (Evolves.refl s).atTime.gateUnit.leads

theorem Evolves.wakeUnit {kind : UnitKind} {n ns : ℕ} (h : Evolves s t) : Evolves s (wakeUnit kind n ns t) :=
  .ite (Evolves.ite h.setAwake h.setAwake.setAwake).onPwr h

theorem Leads.execUnitWake {kind : UnitKind} {unit ns : ℕ} : Leads s (execUnitWake kind unit ns s) :=
  (Evolves.refl s).wakeUnit.leads

theorem Evolves.latchCounter {r : Reader} {cycles : Bool} {half : Half} (h : Evolves s t) :
    Evolves s (latchCounter r cycles half t).2 := by
  unfold Machine.latchCounter
  split
  · exact h
  · dsimp only
    exact h.onPwr
  · dsimp only
    exact h.onPwr

theorem Evolves.readCounter {r : Reader} {cycles : Bool} {half : Half} (h : Evolves s t) :
    Evolves s (readCounter r cycles half t) :=
  h.latchCounter.emit

theorem Leads.execCounterRead {r : Reader} {cycles : Bool} {half : Half} :
    Leads s (execCounterRead r cycles half s) :=
  have h := Evolves.refl s
  (Evolves.ite h.readCounter h.emit).leads

/-! Power and resets -/

theorem Evolves.holdWrites (h : Evolves s t) : Evolves s (holdWrites t) := by
  unfold Machine.holdWrites
  exact h.onMed

theorem Evolves.releaseWrites (h : Evolves s t) : Evolves s (releaseWrites t) :=
  h.onMed.foldl fun _ _ h => h.issueOp

theorem Evolves.settleHeld (h : Evolves s t) : Evolves s (settleHeld t) :=
  .ite (.ite h h.holdWrites) (.ite h.releaseWrites h)

theorem Leads.execBankMeasurement {quarterVolts : ℕ} : Leads s (execBankMeasurement quarterVolts s) :=
  (Evolves.refl s).onIsland.settleHeld.leads

theorem Leads.execBankCapacitanceTest {nF : ℕ} : Leads s (execBankCapacitanceTest nF s) :=
  (Evolves.refl s).onIsland.settleHeld.leads

/-- Loss of power leaves no region, no model and no window; the slots and the identity block stay (R442). -/
theorem Evolves.goDown {p : Phase} (h : Evolves s t) : Evolves s (goDown p t) := by
  have spared := h.gaspFlash.powerCycleFlash
  exact {
    pending := spared.pending
    out := spared.out
    free := spared.free
    regions := fun _ => List.forall_mem_nil _
    images := fun _ => List.forall_mem_nil _
    boots := fun hb => by
      obtain ⟨a, b, i, _⟩ := spared.boots hb
      exact ⟨a, b, i, wf_nil⟩ }

theorem Evolves.resetModule {c : ResetCause} (h : Evolves s t) : Evolves s (resetModule c t) :=
  .ite h.goDown h

theorem Evolves.shutDown {p : Phase} (h : Evolves s t) : Evolves s (shutDown p t) :=
  h.goDown.onIsland

theorem Leads.execHoldupStart {mv us : ℕ} : Leads s (execHoldupStart mv us s) :=
  have h := Evolves.refl s
  (Evolves.ite h.shutDown.onIsland h).leads

theorem Leads.execInputRestored {mv ms : ℕ} : Leads s (execInputRestored mv ms s) := by
  have h := Evolves.refl s
  refine Evolves.leads ?_
  refine .ite ?_ h
  dsimp only
  split
  · exact h.onIsland.onBoot (by exact id)
  · exact .ite (h.onIsland.onBoot (by exact id)) h.onIsland
  · exact h.onIsland
  · exact h.onIsland
  · exact h.onIsland

theorem Leads.execInputFault {overvoltage : Bool} : Leads s (execInputFault overvoltage s) :=
  have h := Evolves.refl s
  (Evolves.ite h.onIsland.shutDown h.onIsland).leads

theorem Leads.execModuleReset {cause : ResetCause} : Leads s (execModuleReset cause s) :=
  have h := Evolves.refl s
  (Evolves.ite h.resetModule h).leads

theorem Leads.execPinReset {us : ℕ} : Leads s (execPinReset us s) :=
  have h := Evolves.refl s
  (Evolves.ite h h.resetModule).leads

theorem Leads.execFirmwareWatchdog : Leads s (execFirmwareWatchdog s) :=
  have h := Evolves.refl s
  (Evolves.ite h.resetModule h).leads

theorem Evolves.fileLocked {f : Fn} {off : ℕ} (h : Evolves s t) : Evolves s (fileLocked f off t) :=
  h.fileRec

theorem Evolves.writeBootCtrl {f : Fn} {v : ℕ} (h : Evolves s t) : Evolves s (writeBootCtrl f v t) := by
  unfold Machine.writeBootCtrl
  extract_lets _ _ _ written
  have hv : Evolves s written := .ite (.ite h.fileLocked h) (h.onBoot (by exact id))
  exact .ite hv (.ite hv.resetModule hv.fileBadValue)

theorem Leads.execBootCtrlReset {f : Fn} {value : W32} : Leads s (execBootCtrlReset f value s) :=
  have h := Evolves.refl s
  (Evolves.ite (h.writeAt (fun _ h => h.writeBootCtrl)) h).leads

theorem Leads.execModEnRise : Leads s (execModEnRise s) :=
  have h := Evolves.refl s
  (Evolves.ite (h.onIsland.onBoot (by exact id)) h.onIsland).leads

theorem Leads.execModEnFall {us : ℕ} : Leads s (execModEnFall us s) :=
  have h := Evolves.refl s
  (Evolves.ite h (.ite h.onIsland.goDown (h.onIsland.onBoot (by exact id)))).leads

theorem Leads.execStandbyIslandPowerUp : Leads s (execStandbyIslandPowerUp s) :=
  have h := Evolves.refl s
  (Evolves.ite h h.onIsland).leads

theorem Leads.execStandbyIslandPowerLoss : Leads s (execStandbyIslandPowerLoss s) :=
  have h := Evolves.refl s
  (Evolves.ite h.goDown (h.onBoot (by exact id))).onIsland.leads

theorem Evolves.powerSample {w : ℕ} (h : Evolves s t) : Evolves s (powerSample w t) := by
  unfold Machine.powerSample
  exact h.onPwr

theorem Leads.execPowerSample {watts mv now : ℕ} : Leads s (execPowerSample watts mv now s) :=
  (Evolves.refl s).atTime.onIsland.powerSample.leads

theorem Evolves.thermalSample {hub : ℕ} {dies : List ℕ} {lid : ℕ} (h : Evolves s t) :
    Evolves s (thermalSample hub dies lid t) :=
  .ite h.onPwr (.ite h.onPwr.onIsland.shutDown h.onPwr.onIsland)

theorem Leads.execThermalSample {hub : ℕ} {stackTemps : List ℕ} {lid : ℕ} :
    Leads s (execThermalSample hub stackTemps lid s) :=
  (Evolves.refl s).thermalSample.leads

theorem Evolves.smbAnswer {r : Option (List Byte)} (h : Evolves s t) : Evolves s (smbAnswer r t) :=
  .ite h.emit h

theorem Leads.execSmbStatus : Leads s (execSmbStatus s) :=
  (Evolves.refl s).smbAnswer.leads

theorem Leads.execSmbInputMv : Leads s (execSmbInputMv s) :=
  (Evolves.refl s).smbAnswer.leads

theorem Leads.execSmbInputW : Leads s (execSmbInputW s) :=
  (Evolves.refl s).smbAnswer.leads

theorem Leads.execSmbTemps : Leads s (execSmbTemps s) :=
  (Evolves.refl s).smbAnswer.leads

theorem Leads.execSmbHoldup : Leads s (execSmbHoldup s) :=
  (Evolves.refl s).smbAnswer.leads

theorem Leads.execSmbSerial : Leads s (execSmbSerial s) :=
  (Evolves.refl s).smbAnswer.leads

theorem Leads.execSmbCause : Leads s (execSmbCause s) :=
  (Evolves.refl s).smbAnswer.leads

theorem Evolves.smbControl {allowed : Bool} {act : State → State} (h : Evolves s t)
    (hact : ∀ u, Evolves s u → Evolves s (act u)) : Evolves s (smbControl allowed act t) :=
  .ite h (.ite (hact _ h.emit) h.emit)

theorem Leads.execSmbClearSticky {pecOk : Bool} : Leads s (execSmbClearSticky pecOk s) :=
  ((Evolves.refl s).smbControl (fun _ h => h.onIsland)).leads

theorem Leads.execSmbReset {pecOk : Bool} : Leads s (execSmbReset pecOk s) :=
  ((Evolves.refl s).smbControl (fun _ h => h.resetModule)).leads

theorem Leads.execSmbArmRecovery {pecOk : Bool} : Leads s (execSmbArmRecovery pecOk s) :=
  ((Evolves.refl s).smbControl (fun _ h => h.onIsland)).leads

theorem Leads.execSmbAlertResponse : Leads s (execSmbAlertResponse s) :=
  (Evolves.refl s).smbAnswer.leads

/-! Certificates -/

/-- The identity block as read at power-on (R507). -/
theorem Evolves.useIdentity {m : Memory} (h : Evolves s t) : Evolves s (useIdentity m t) :=
  h.onBoot fun ⟨a, b, _, w⟩ => ⟨a, b, wf_storeMem m, w⟩

/-! Boot and firmware -/

/-- A change of a firmware slot keeps the boot block canonical where it keeps that slot canonical. -/
theorem Evolves.onFwSlot {n : ℕ} {f : FwSlot → FwSlot} (h : Evolves s t)
    (hf : ∀ x, Memory.wf x.bytes → Memory.wf (f x).bytes) : Evolves s (onFwSlot n f t) := by
  refine h.onBoot fun ⟨a, b, i, w⟩ => ?_
  split
  · exact ⟨hf _ a, b, i, w⟩
  · exact ⟨a, hf _ b, i, w⟩

theorem Evolves.applyRows (h : Evolves s t) : Evolves s (applyRows t) := by
  unfold Machine.applyRows
  exact h.onErr

theorem Evolves.selfTest {u' : UnitKind × ℕ} (h : Evolves s t) : Evolves s (selfTest t u') := by
  unfold Machine.selfTest
  split
  · refine .ite h ?_
    refine .ite h.onErr.useSpare ?_
    split
    · exact (h.onErr.fileErr.of_fst ‹_›).onErr

theorem Evolves.loadFactory {m : Memory} (h : Evolves s t) : Evolves s (loadFactory m t) :=
  h.onErr.foldl (fun _ _ h => by
    split
    · exact .ite h.useSpare h
    · exact h)

theorem Evolves.raiseSvn {n : ℕ} (h : Evolves s t) : Evolves s (raiseSvn n t) :=
  .ite (h.onBoot (by exact id)) h

theorem Evolves.bringUp {n : ℕ} {trial fell : Bool} {f : BootFindings} (h : Evolves s t) :
    Evolves s (bringUp n trial fell f t) := by
  unfold Machine.bringUp
  extract_lets tested _ _ _ _ _ ready
  have htested : Evolves s tested := h.applyRows.foldl fun _ _ h => h.selfTest
  have hready : Evolves s ready := (htested.onBoot (by exact id)).onIsland
  exact .ite hready hready.raiseSvn

theorem Evolves.stopAt {st : Stage} (h : Evolves s t) : Evolves s (stopAt st t) :=
  h.onBoot (by exact id)

theorem Evolves.runRom {removed : Bool} {f : BootFindings} (h : Evolves s t) : Evolves s (runRom removed f t) := by
  unfold Machine.runRom
  split
  · exact h.stopAt
  · refine .ite (Evolves.ite h.useIdentity.onIsland h.useIdentity).stopAt ?_
    split
    · dsimp only
      split
      · exact (h.useIdentity.onIsland.onBoot (by exact id)).stopAt
      · exact (h.useIdentity.onIsland.onBoot (by exact id)).loadFactory.bringUp
    · dsimp only
      split
      · exact (h.useIdentity.onBoot (by exact id)).stopAt
      · exact (h.useIdentity.onBoot (by exact id)).loadFactory.bringUp

theorem Evolves.powerOn {f : BootFindings} (h : Evolves s t) : Evolves s (powerOn f t) := by
  have restarted : Evolves s { t with cycles := 0 } := { h with }
  unfold Machine.powerOn
  split
  · exact .ite h (restarted.onIsland.onBoot (by exact id)).runRom
  · exact h
  · exact h
  · exact h
  · exact h

theorem Leads.execPowerOn {b : BootFindings} : Leads s (execPowerOn b s) :=
  (Evolves.refl s).powerOn.leads

theorem Evolves.openSession {n : ℕ} {p : Port} (h : Evolves s t) : Evolves s (openSession n p t) :=
  (h.onFwSlot fun _ _ => wf_nil).onBoot (by exact id)

theorem Leads.execFwStageBegin {c : CmdRef} {d : CmdIn} : Leads s (execFwStageBegin c d s) :=
  ((Evolves.refl s).begin (fun _ _ _ _ h => h.openSession.completeSt)).leads

theorem Evolves.programSlot {n off : ℕ} {bs : List Byte} (h : Evolves s t) : Evolves s (programSlot n off bs t) := by
  unfold Machine.programSlot
  exact (h.onFwSlot fun _ => wf_writeBytes _ _ _).onBoot (by exact id)

theorem Leads.execFwStageChunk {c : CmdRef} {d : CmdIn} : Leads s (execFwStageChunk c d s) :=
  ((Evolves.refl s).begin (fun _ _ _ _ h => h.programSlot.completeSt)).leads

theorem Evolves.armSlot {n : ℕ} {f : BootRec → BootRec} (h : Evolves s t) : Evolves s (armSlot n f t) := by
  unfold Machine.armSlot
  exact (h.onFwSlot (fun _ => by exact id)).onBoot (by exact id)

theorem Leads.execFwArm {c : CmdRef} {d : CmdIn} {v : SlotSigs} : Leads s (execFwArm c d v s) :=
  have h := Evolves.refl s
  (h.begin (fun _ _ _ _ h => (Evolves.ite (h.armSlot.onBoot (by exact id)) h.armSlot).complete)).leads

theorem Leads.execFwConfirm {c : CmdRef} {d : CmdIn} : Leads s (execFwConfirm c d s) :=
  have h := Evolves.refl s
  (h.begin (fun _ _ _ _ h => .ite h.completeSt (h.onBoot (by exact id)).raiseSvn.complete)).leads

theorem Evolves.expireTrial (h : Evolves s t) : Evolves s (expireTrial t) := by
  unfold Machine.expireTrial
  split
  · exact h
  · exact .ite h (h.onBoot (by exact id)).resetModule

theorem Leads.execTrialExpiry {now : ℕ} : Leads s (execTrialExpiry now s) :=
  (Evolves.refl s).atTime.expireTrial.leads

theorem Evolves.rcvEnds {error : ℕ} (h : Evolves s t) : Evolves s (rcvEnds error t) :=
  h.onBoot (by exact id)

theorem Evolves.rcvOp {p : Port} {needs : Bool} {act : State → State} (h : Evolves s t)
    (hact : ∀ u, Evolves s u → Evolves s (act u)) : Evolves s (rcvOp p needs act t) := by
  unfold Machine.rcvOp
  split
  · exact h.takeFree.onBoot (by exact id)
  · split
    · exact .ite h.rcvEnds (hact _ h)
    · exact .ite (hact _ h) h.rcvEnds
  · exact h
  · exact h
  · exact h

theorem Evolves.rcvErase {port : Port} (h : Evolves s t) : Evolves s (rcvErase port t) :=
  h.rcvOp fun _ h => h.openSession.rcvEnds

theorem Evolves.rcvReset {port : Port} (h : Evolves s t) : Evolves s (rcvReset port t) :=
  h.rcvOp (fun _ h => h.onBoot (by exact id))

theorem Leads.execRcvErase {port : Port} : Leads s (execRcvErase port s) :=
  (Evolves.refl s).rcvErase.leads

/-- A write to the DATA window (R522). -/
theorem Evolves.fillWindow {off : ℕ} {bs : List Byte} (h : Evolves s t) : Evolves s (fillWindow off bs t) :=
  h.onBoot fun ⟨a, b, i, w⟩ => ⟨a, b, i, wf_writeBytes _ _ _ w⟩

theorem Evolves.rcvProgram {chunk : ℕ} (h : Evolves s t) : Evolves s (rcvProgram chunk t) :=
  .ite h.rcvEnds h.programSlot.rcvEnds

theorem Evolves.rcvWrite {port : Port} {chunk : ℕ} (h : Evolves s t) : Evolves s (rcvWrite port chunk t) :=
  h.rcvOp fun _ h => h.rcvProgram

theorem Leads.execRcvWrite {port : Port} {chunk : ℕ} {data : List Byte} : Leads s (execRcvWrite port chunk data s) :=
  have h := Evolves.refl s
  (Evolves.ite h.fillWindow.rcvWrite h).leads

theorem Evolves.rcvArm {v : SlotSigs} (h : Evolves s t) : Evolves s (rcvArm v t) :=
  .ite h.rcvEnds (.ite h.rcvEnds (.ite h.rcvEnds (.ite h.rcvEnds h.armSlot.rcvEnds)))

theorem Leads.execRcvArm {port : Port} {v : SlotSigs} : Leads s (execRcvArm port v s) :=
  ((Evolves.refl s).rcvOp (fun _ h => h.rcvArm)).leads

theorem Leads.execRcvReset {port : Port} : Leads s (execRcvReset port s) :=
  (Evolves.refl s).rcvReset.leads

theorem Evolves.onOwner {f : OwnerRec → OwnerRec} (h : Evolves s t) : Evolves s (onOwner f t) :=
  h.onBoot (by exact id)

theorem Leads.execOwnerRead {c : CmdRef} {d : CmdIn} : Leads s (execOwnerRead c d s) :=
  have h := Evolves.refl s
  (h.begin (fun _ _ _ _ h => (h.onBoot (by exact id)).takeFree.finish)).leads

theorem Leads.execOwnerInstallKey {c : CmdRef} {d : CmdIn} : Leads s (execOwnerInstallKey c d s) :=
  ((Evolves.refl s).begin (fun _ _ _ _ h => h.onOwner.completeSt)).leads

theorem Leads.execOwnerLock {c : CmdRef} {d : CmdIn} {verifies : Bool} : Leads s (execOwnerLock c d verifies s) :=
  ((Evolves.refl s).begin (fun _ _ _ _ h => h.onOwner.completeSt)).leads

theorem Leads.execOwnerUnlock {c : CmdRef} {d : CmdIn} {verifies : Bool} : Leads s (execOwnerUnlock c d verifies s) :=
  have h := Evolves.refl s
  (h.begin (fun _ _ _ _ h => .ite (h.onBoot (by exact id)).onOwner.completeSt (h.onBoot (by exact id)).completeSt)).leads

theorem Evolves.runAttest {c : CmdRef} {nonce : List Byte} {resultOk : Bool} (h : Evolves s t) :
    Evolves s (runAttest c nonce resultOk t) := by
  unfold Machine.runAttest
  dsimp only
  split
  · exact (h.onBoot (by exact id)).takeFree.fileRec.completeSt
  · exact .ite (h.onBoot (by exact id)).completeSt ((h.onBoot (by exact id)).onBoot (by exact id)).finish

theorem Leads.execAttest {c : CmdRef} {d : CmdIn} : Leads s (execAttest c d s) :=
  have h := Evolves.refl s
  (h.begin (fun _ _ _ _ h => .ite h.runAttest (h.onBoot (by exact id)))).leads

theorem Leads.execAttestStart {now : ℕ} : Leads s (execAttestStart now s) := by
  have h := Evolves.refl s
  refine Evolves.leads ?_
  split
  · exact h.atTime
  · exact .ite (h.atTime.onBoot (by exact id)).runAttest h.atTime

/-! Activation boundaries -/

theorem Evolves.endBadRun {r : Run} (h : Evolves s t) : Evolves s (endBadRun t r) := by
  unfold Machine.endBadRun
  split
  · exact h
  · exact h.dropModelRun.completeRec

theorem Evolves.endBadEmb {e : EmbCmd} (h : Evolves s t) : Evolves s (endBadEmb t e) := by
  unfold Machine.endBadEmb
  split
  · exact h
  · exact .ite h h.endEmb.completeRec

theorem Evolves.settleJobs (h : Evolves s t) : Evolves s (settleJobs t) :=
  ((h.workRows.foldl (fun _ _ h => h.endBadRun)).foldl (fun _ _ h => h.endBadEmb)).settleAllEmb

theorem Leads.execActivationBoundary {stall ns : ℕ} {hub : List (ℕ × ℕ)} {ecc : EccOutcome} {row unit : ℕ} :
    Leads s (execActivationBoundary stall ns hub ecc row unit s) :=
  (Evolves.refl s).boundary.settleJobs.pump.leads

/-! Indexes -/

theorem Evolves.putIndex {h' : ℕ} {ix : Index} (h : Evolves s t) : Evolves s (putIndex h' ix t) :=
  h.onSrch

theorem Leads.execPartConfigIndexCreate {c : CmdRef} {d : CmdIn} : Leads s (execPartConfigIndexCreate c d s) :=
  have h := Evolves.refl s
  Evolves.leads (h.begin (fun _ _ _ _ h => by
  split
  · exact h.completeSt
  · exact h.putIndex.onMut.writeMeta.completeSt)
  )

theorem Evolves.dropFrames {x keep n : ℕ} (h : Evolves s t) : Evolves s (dropFrames x keep n t) := by
  induction n generalizing t with
  | zero => exact h
  | succ n ih =>
    unfold Machine.dropFrames
    split
    · exact h
    · refine .ite h ?_
      dsimp only
      split
      · exact h
      · exact ih h.onIndex.takeFree

theorem Leads.execPartConfigIndexResize {c : CmdRef} {d : CmdIn} : Leads s (execPartConfigIndexResize c d s) :=
  ((Evolves.refl s).begin (fun _ _ _ _ h => h.dropFrames.onIndex.onMeta.completeSt)).leads

theorem Evolves.trimRun {base n : ℕ} (h : Evolves s t) : Evolves s (trimRun base n t) :=
  h.onMed.journal

theorem Evolves.dropIndex {h' : ℕ} {ix : Index} (h : Evolves s t) : Evolves s (dropIndex h' ix t) := by
  unfold Machine.dropIndex
  exact h.trimRun.trimRun.onSrch.onMed.onMut

theorem Leads.execPartConfigIndexDestroy {c : CmdRef} {d : CmdIn} : Leads s (execPartConfigIndexDestroy c d s) :=
  have h := Evolves.refl s
  Evolves.leads (h.begin (fun _ _ _ _ h => by
  split
  · exact h.completeSt
  · exact h.dropIndex.completeSt)
  )

theorem Leads.execPartConfigIndexRead {c : CmdRef} {d : CmdIn} : Leads s (execPartConfigIndexRead c d s) :=
  have h := Evolves.refl s
  Evolves.leads (h.begin (fun _ _ _ _ h => by
  split
  · exact h.completeSt
  · exact h.finish)
  )

/-! Policers and shapers in time -/

theorem Evolves.refillPolicers (h : Evolves s t) : Evolves s (refillPolicers t) :=
  h.foldl fun _ _ h => h.onPolicer

theorem Evolves.drainPorts (h : Evolves s t) : Evolves s (drainPorts t) :=
  h.hostDrain.hostDrain

theorem Evolves.refillShapers (h : Evolves s t) : Evolves s (refillShapers t) :=
  (h.foldl (fun _ _ h => h.onShaper)).drainPorts

theorem Leads.execPolicerRefill : Leads s (execPolicerRefill s) :=
  (Evolves.refl s).refillPolicers.leads

theorem Leads.execShaperRefill : Leads s (execShaperRefill s) :=
  (Evolves.refl s).refillShapers.leads

theorem Evolves.stagePolicer {n : ℕ} {f : PolCfg → PolCfg} (h : Evolves s t) : Evolves s (stagePolicer n f t) :=
  h.onPolicer

theorem Evolves.writePctrl {n v : ℕ} (h : Evolves s t) : Evolves s (writePctrl n v t) :=
  h.onPolicer

theorem Evolves.stageShaper {n : ℕ} {f : ShapeCfg → ShapeCfg} (h : Evolves s t) : Evolves s (stageShaper n f t) :=
  h.onShaper

theorem Evolves.writeSctrl {n v : ℕ} (h : Evolves s t) : Evolves s (writeSctrl n v t) :=
  h.onShaper.drainPorts

theorem Leads.execPolicerCommit {f : Fn} {n : ℕ} {value : W32} : Leads s (execPolicerCommit f n value s) :=
  have h := Evolves.refl s
  (Evolves.ite (h.writeAt (fun _ h => h.writePctrl)) h).leads

theorem Leads.execShaperCommit {f : Fn} {n : ℕ} {value : W32} : Leads s (execShaperCommit f n value s) :=
  have h := Evolves.refl s
  (Evolves.ite (h.writeAt (fun _ h => h.writeSctrl)) h).leads

theorem Evolves.putSample {e : ℕ × ℕ} (h : Evolves s t) : Evolves s (putSample t e) := by
  unfold Machine.putSample
  exact h.emit.onTm

theorem Evolves.samplingRound {writeOk : Bool} (h : Evolves s t) : Evolves s (samplingRound writeOk t) :=
  .ite h (Evolves.ite h.onTm (.ite (h.foldl (fun _ _ h => h.putSample)) h.onTm.fileRec)).onTm

theorem Leads.execSamplingRound {now : ℕ} {writeOk : Bool} : Leads s (execSamplingRound now writeOk s) :=
  (Evolves.refl s).atTime.samplingRound.leads

theorem Evolves.countTmBusy (h : Evolves s t) : Evolves s (countTmBusy t) :=
  h.onTm

theorem Evolves.writeRingCfg {v : ℕ} (h : Evolves s t) : Evolves s (writeRingCfg v t) :=
  .ite (Evolves.ite h.countTmBusy h.onTm).onTm.onTm (Evolves.ite h.countTmBusy h.onTm).onTm

theorem Evolves.writeRingBase {v : ℕ} (h : Evolves s t) : Evolves s (writeRingBase v t) :=
  .ite h (.ite h.countTmBusy h.onTm)

theorem Evolves.writeRingPtr {f : Fn} {v : ℕ} (h : Evolves s t) : Evolves s (writeRingPtr f v t) :=
  .ite h.onTm h.fileBadValue

theorem Leads.execSamplingEnable {f : Fn} {value : W32} : Leads s (execSamplingEnable f value s) :=
  have h := Evolves.refl s
  (Evolves.ite (h.writeAt (fun _ h => h.writeRingCfg)) h).leads

theorem Leads.execRingHeadWrite {f : Fn} {value : W64} : Leads s (execRingHeadWrite f value s) :=
  have h := Evolves.refl s
  (Evolves.ite (h.writeAt (fun _ h => h.writeRingPtr)) h).leads

/-! Registers -/

theorem Evolves.putQueueReg {q : QRef} {k v : ℕ} (h : Evolves s t) : Evolves s (putQueueReg q k v t) :=
  .ite h.writeQcfg (.ite h.writeQstat h)

theorem Evolves.putPtnReg {p k v : ℕ} (h : Evolves s t) : Evolves s (putPtnReg p k v t) := by
  unfold Machine.putPtnReg
  refine .ite h.writePtnCtrl ?_
  refine .ite h.writeCtx ?_
  split
  · exact h.putQueueReg
  · exact h

theorem Evolves.putPolicerReg {n k v : ℕ} (h : Evolves s t) : Evolves s (putPolicerReg n k v t) := by
  unfold Machine.putPolicerReg
  split
  · exact h.stagePolicer
  · exact h.stagePolicer
  · exact h.stagePolicer
  · exact h.stagePolicer
  · exact h.writePctrl
  · exact h

theorem Evolves.putShaperReg {n k v : ℕ} (h : Evolves s t) : Evolves s (putShaperReg n k v t) := by
  unfold Machine.putShaperReg
  split
  · exact h.stageShaper
  · exact h.stageShaper
  · exact h.writeSctrl
  · exact h

theorem Evolves.putTmReg {off v : ℕ} (h : Evolves s t) : Evolves s (putTmReg off v t) := by
  unfold Machine.putTmReg
  refine .ite h.onTm ?_
  refine .ite h.writeRingCfg ?_
  refine .ite h.onTm ?_
  split
  · exact h.putPolicerReg
  · exact h.putShaperReg
  · exact h

theorem Evolves.writeNodeId {v : ℕ} (h : Evolves s t) : Evolves s (writeNodeId v t) :=
  .ite h (.ite { h with } h.onFabCounts)

theorem Evolves.writeTcfg {v : ℕ} (h : Evolves s t) : Evolves s (writeTcfg v t) :=
  h.onFab

theorem Evolves.putXqReg {off v : ℕ} (h : Evolves s t) : Evolves s (putXqReg off v t) := by
  unfold Machine.putXqReg
  refine .ite h.writeNodeId ?_
  refine .ite h.writeTcfg ?_
  split
  · exact h.writeLctrl
  · exact h.onLane
  · exact h

theorem Evolves.writeMedCfg {v : ℕ} (h : Evolves s t) : Evolves s (writeMedCfg v t) :=
  h.onMed

theorem Evolves.putMedReg {off v : ℕ} (h : Evolves s t) : Evolves s (putMedReg off v t) :=
  .ite h.writeMedCfg (.ite h.onMed h)

theorem Evolves.putStkReg {t' k v : ℕ} (h : Evolves s t) : Evolves s (putStkReg t' k v t) :=
  .ite (.ite h.onStack h) (.ite (.ite h h.onStack) h)

theorem Evolves.putWlkReg {f : Fn} {off v : ℕ} (h : Evolves s t) : Evolves s (putWlkReg f off v t) :=
  .ite h.onSrch (.ite h.onMut.triggerAll (.ite h.writeRepair h))

theorem Evolves.putCrierReg {p : Port} {n k v : ℕ} (h : Evolves s t) : Evolves s (putCrierReg p n k v t) := by
  unfold Machine.putCrierReg
  split
  · exact h.writeCcfg
  · exact h.postCrier
  · exact h.writeCstat
  · exact h.writeCctrl
  · exact h

theorem Evolves.writePwrCfg {v : ℕ} (h : Evolves s t) : Evolves s (writePwrCfg v t) := by
  unfold Machine.writePwrCfg
  exact h.onPwr

theorem Evolves.putPwrReg {off v : ℕ} (h : Evolves s t) : Evolves s (putPwrReg off v t) :=
  .ite h.writePwrCfg (.ite h.onIsland h)

theorem Evolves.writeErrCfg {v : ℕ} (h : Evolves s t) : Evolves s (writeErrCfg v t) :=
  h.onErr

theorem Evolves.putErrReg {f : Fn} {off v : ℕ} (h : Evolves s t) : Evolves s (putErrReg f off v t) := by
  unfold Machine.putErrReg
  refine .ite h.writeErrCfg ?_
  split
  · exact h.writeErrQstat
  · exact h

theorem Evolves.writeRcvCmd {p : Port} {v : ℕ} (h : Evolves s t) : Evolves s (writeRcvCmd p v t) := by
  unfold Machine.writeRcvCmd
  split
  · exact h.rcvErase
  · exact h.rcvWrite
  · exact h.rcvReset
  · exact h

theorem Evolves.putBootReg {f : Fn} {off v : ℕ} (h : Evolves s t) : Evolves s (putBootReg f off v t) :=
  .ite h.writeBootCtrl (.ite h.writeRcvCmd h)

theorem Evolves.put32 {f : Fn} {off v : ℕ} (h : Evolves s t) : Evolves s (put32 f off v t) := by
  unfold Machine.put32
  refine .ite h.fillWindow (.ite ?_ ?_)
  · split
    · exact h.putQueueReg
    · exact h
  · split
    · exact h.putPtnReg
    · refine .ite h (.ite h.putTmReg (.ite h.putXqReg (.ite h.putMedReg (.ite h.putStkReg ?_))))
      refine .ite (.ite (h.onTil (by exact id)) h) (.ite h.putWlkReg (.ite (.ite h.onSel h) (.ite h ?_)))
      refine .ite h.putCrierReg ?_
      exact .ite h (.ite h.putPwrReg (.ite h.putErrReg (.ite h.putBootReg h)))

theorem Evolves.writeQcolour {p v : ℕ} (h : Evolves s t) : Evolves s (writeQcolour p v t) :=
  .ite h h.onTm

theorem Evolves.writeRoute {e v : ℕ} (h : Evolves s t) : Evolves s (writeRoute e v t) :=
  .ite h h.onFab.rerouteWaiting

theorem Evolves.put64 {f : Fn} {off v : ℕ} (h : Evolves s t) : Evolves s (put64 f off v t) := by
  unfold Machine.put64
  split
  · exact .ite h.writeQueueBase (.ite h.writeQueueBase h)
  · refine .ite h.writeRingBase ?_
    refine .ite h.writeRingPtr ?_
    refine .ite h.onTm ?_
    split
    · exact h.writeQcolour
    · exact h.writeRoute
    · exact h

theorem Evolves.writeHalf {f : Fn} {base : ℕ} {high : Bool} {v : ℕ} (h : Evolves s t) :
    Evolves s (writeHalf f base high v t) := by
  unfold Machine.writeHalf
  refine .ite (h.writeAt (fun _ h => h)) ?_
  refine .ite h.flushLatch.setLatch ?_
  split
  · exact .ite h.setLatch.put64 h.flushLatch.fileBadAccess
  · exact h.fileBadAccess

theorem Evolves.write32 {f : Fn} {off v : ℕ} (h : Evolves s t) : Evolves s (write32 f off v t) :=
  .ite h.writeHalf (h.writeAt (fun _ h => h.put32))

theorem Evolves.write64 {f : Fn} {off v : ℕ} (h : Evolves s t) : Evolves s (write64 f off v t) :=
  .ite (h.writeAt (fun _ h => h.put64)) h.write32.write32

theorem Evolves.bell {f : Fn} {off v : ℕ} (h : Evolves s t) : Evolves s (bell f off v t) :=
  h.doorbell

theorem Evolves.writeBar2 {f : Fn} {off size v : ℕ} (h : Evolves s t) : Evolves s (writeBar2 f off size v t) :=
  .ite h (.ite h.bell (.ite h.bell.bell h.fileBadAccess))

theorem Evolves.writeBar0 {f : Fn} {off size v : ℕ} (h : Evolves s t) : Evolves s (writeBar0 f off size v t) := by
  unfold Machine.writeBar0
  split
  · exact h
  · exact .ite h.write32 (.ite h.write64 h.flushLatch.fileBadAccess)

theorem Evolves.registerWrite {f : Fn} {bar2 : Bool} {off size v : ℕ} (h : Evolves s t) :
    Evolves s (registerWrite f bar2 off size v t) :=
  .ite h (.ite h.writeBar2 h.writeBar0)

theorem Leads.execRegisterWrite {f : Fn} {bar2 : Bool} {offset size : ℕ} {value : W64} :
    Leads s (execRegisterWrite f bar2 offset size value s) :=
  (Evolves.refl s).registerWrite.leads

theorem Leads.execQueueEnable {f : Fn} {q : QRef} {value : W32} : Leads s (execQueueEnable f q value s) :=
  have h := Evolves.refl s
  (Evolves.ite (h.writeAt (fun _ h => h.writeQcfg)) h).leads

theorem Leads.execQueueDisable {f : Fn} {q : QRef} {value : W32} : Leads s (execQueueDisable f q value s) :=
  have h := Evolves.refl s
  (Evolves.ite (h.writeAt (fun _ h => h.writeQcfg)) h).leads

theorem Leads.execRepairStart {f : Fn} {value : W32} : Leads s (execRepairStart f value s) :=
  have h := Evolves.refl s
  (Evolves.ite (h.writeAt (fun _ h => h.writeRepair)) h).leads

theorem Leads.execPtnCtxWrite {f : Fn} {p n : ℕ} {value : W32} : Leads s (execPtnCtxWrite f p n value s) :=
  have h := Evolves.refl s
  (Evolves.ite (h.writeAt (fun _ h => h.writeCtx)) h).leads

theorem Leads.execQuiesceSet {f : Fn} {p : ℕ} {value : W32} : Leads s (execQuiesceSet f p value s) :=
  have h := Evolves.refl s
  (Evolves.ite (h.writeAt (fun _ h => h.writePtnCtrl)) h).leads

theorem Leads.execQuiesceClear {f : Fn} {p : ℕ} {value : W32} : Leads s (execQuiesceClear f p value s) :=
  have h := Evolves.refl s
  (Evolves.ite (h.writeAt (fun _ h => h.writePtnCtrl)) h).leads

theorem Leads.execLaneEnable {f : Fn} {lane : ℕ} {value : W32} : Leads s (execLaneEnable f lane value s) :=
  have h := Evolves.refl s
  (Evolves.ite (h.writeAt (fun _ h => h.writeLctrl)) h).leads

theorem Leads.execLaneDisable {f : Fn} {lane : ℕ} {value : W32} : Leads s (execLaneDisable f lane value s) :=
  have h := Evolves.refl s
  (Evolves.ite (h.writeAt (fun _ h => h.writeLctrl)) h).leads

theorem Leads.execNodeIdWrite {f : Fn} {value : W32} : Leads s (execNodeIdWrite f value s) :=
  have h := Evolves.refl s
  (Evolves.ite (h.writeAt (fun _ h => h.writeNodeId)) h).leads

theorem Leads.execRoutingEntryWrite {f : Fn} {node : ℕ} {value : W64} :
    Leads s (execRoutingEntryWrite f node value s) :=
  have h := Evolves.refl s
  (Evolves.ite (h.writeAt (fun _ h => h.writeRoute)) h).leads

/-! Rows on a selector -/

theorem Evolves.finishPick {r : SelRow} {i : ℕ} (h : Evolves s t) : Evolves s (finishPick r i t) := by
  unfold Machine.finishPick
  split
  · exact h
  · split
    · exact h
    · split
      · exact h
      · exact h.onStep

theorem Evolves.runOut {r : SelRow} {started : ℕ} {resultOk : Bool} (h : Evolves s t) :
    Evolves s (runOut r started resultOk t) := by
  unfold Machine.runOut
  split
  · exact h.finishPick
  · split
    · exact h
    · exact h.finishRow

theorem Evolves.stagingCorrected {n row bytes : ℕ} (h : Evolves s t) : Evolves s (stagingCorrected n row bytes t) :=
  h.onErr.fileRec.countCe

theorem Evolves.stagingLost {n : ℕ} {r : SelRow} (h : Evolves s t) : Evolves s (stagingLost n r t) := by
  unfold Machine.stagingLost
  extract_lets counted
  rcases hf : Machine.fileErr (stagingRec n r counted) none false counted with ⟨v, seq, dropped⟩
  have filed := h.onErr.fileErr.of_fst hf
  exact (Evolves.ite filed.dropModelRun filed.dropSelect).completeRec

theorem Evolves.selectorRow {n : ℕ} {mid : Bool} {sram : EccOutcome} {resultOk : Bool} (h : Evolves s t) :
    Evolves s (selectorRow n mid sram resultOk t) := by
  unfold Machine.selectorRow
  refine .ite h ?_
  split
  · exact h
  · refine .ite (h.takeRow ‹_›).onSel ?_
    split
    · exact (h.takeRow ‹_›).runOut
    · exact (h.takeRow ‹_›).runOut.stagingCorrected
    · exact (h.takeRow ‹_›).stagingLost

theorem Leads.execSelectorRow {sel : ℕ} {mid : Bool} {sram : EccOutcome} {resultOk : Bool} :
    Leads s (execSelectorRow sel mid sram resultOk s) :=
  (Evolves.refl s).selectorRow.leads

/-! A tick -/

theorem Evolves.tick (h : Evolves s t) : Evolves s (tick t) := { h with }

end Sys2Proof.Machine
end

section
/-!
PROOFS. A step leads to a state that comes from the one before, and so keeps the byte memories canonical.
-/
namespace Sys2Proof.Machine

variable {s t : State}

/-- What every command leads to comes from the state it acts on. -/
theorem Leads.exec {i : Instr} : Leads s (exec i s) := by
  cases i with
  | sqTailDoorbell => exact .execSqTailDoorbell
  | cqHeadDoorbell => exact .execCqHeadDoorbell
  | commandFetch => exact .execCommandFetch
  | dupEntryExpiry => exact .execDupEntryExpiry
  | intTimeExpiry => exact .execIntTimeExpiry
  | deadlineExpiry => exact .execDeadlineExpiry
  | ringDmaFailure => exact .execRingDmaFailure
  | queueEnable => exact .execQueueEnable
  | queueDisable => exact .execQueueDisable
  | queueDrained => exact .execQueueDrained
  | registerWrite => exact .execRegisterWrite
  | counterRead => exact .execCounterRead
  | functionLevelResetVf => exact .execFunctionLevelResetVf
  | functionLevelResetPf => exact .execFunctionLevelResetPf
  | pcieLinkUp => exact .execPcieLinkUp
  | pcieLinkDown => exact .execPcieLinkDown
  | perstAssert => exact .execPerstAssert
  | heartbeatTimeout => exact .execHeartbeatTimeout
  | abort => exact .execAbort
  | partAdopt => exact .execPartAdopt
  | search => exact .execSearch
  | searchFiltered => exact .execSearchFiltered
  | range => exact .execRange
  | queryAdmission => exact .execQueryAdmission
  | walkStep => exact .execWalkStep
  | crateBatchIssue => exact .execCrateBatchIssue
  | crateReadComplete => exact .execCrateReadComplete
  | rerankReadIssue => exact .execRerankReadIssue
  | rerankReadComplete => exact .execRerankReadComplete
  | searchSelection => exact .execSearchSelection
  | insert => exact .execInsert
  | delete => exact .execDelete
  | upsert => exact .execUpsert
  | groupPublish => exact .execGroupPublish
  | ringWaitExpiry => exact .execRingWaitExpiry
  | crateWriteback => exact .execCrateWriteback
  | swapGeneration => exact .execSwapGeneration
  | repairStart => exact .execRepairStart
  | repairCrateSweep => exact .execRepairCrateSweep
  | indexMount => exact .execIndexMount
  | selectTopk => exact .execSelectTopk
  | selectThreshold => exact .execSelectThreshold
  | selectorRow => exact .execSelectorRow
  | stallRun => exact .execStallRun
  | rowOpPlain => exact .execRowOpPlain
  | rowOpDerive => exact .execRowOpDerive
  | rowOpClear => exact .execRowOpClear
  | activationBoundary => exact .execActivationBoundary
  | refreshDebtIncrement => exact .execRefreshDebtIncrement
  | refreshClassEvaluation => exact .execRefreshClassEvaluation
  | stallNop => exact .execStallNop
  | stallEnd => exact .execStallEnd
  | stallSeg => exact .execStallSeg
  | stallBr => exact .execStallBr
  | stallDbnz => exact .execStallDbnz
  | stallBz => exact .execStallBz
  | stallSetmode => exact .execStallSetmode
  | stallLd => exact .execStallLd
  | stallSt => exact .execStallSt
  | stallLda => exact .execStallLda
  | stallSta => exact .execStallSta
  | stallLds => exact .execStallLds
  | stallSts => exact .execStallSts
  | stallRop => exact .execStallRop
  | stallSadd => exact .execStallSadd
  | stallSsub => exact .execStallSsub
  | stallSmul => exact .execStallSmul
  | stallSaddi => exact .execStallSaddi
  | stallSmuli => exact .execStallSmuli
  | stallSshli => exact .execStallSshli
  | stallSshri => exact .execStallSshri
  | stallSandi => exact .execStallSandi
  | stallSori => exact .execStallSori
  | stallSlui => exact .execStallSlui
  | stallVmac => exact .execStallVmac
  | stallVmacs => exact .execStallVmacs
  | stallVsqd => exact .execStallVsqd
  | stallVadd => exact .execStallVadd
  | stallVsub => exact .execStallVsub
  | stallVmul => exact .execStallVmul
  | stallVmax => exact .execStallVmax
  | stallVmin => exact .execStallVmin
  | stallVbcast => exact .execStallVbcast
  | stallVmov => exact .execStallVmov
  | stallUnpk4 => exact .execStallUnpk4
  | stallUnpk8 => exact .execStallUnpk8
  | stallVrsq => exact .execStallVrsq
  | stallVrcp => exact .execStallVrcp
  | stallAclr => exact .execStallAclr
  | stallAadd => exact .execStallAadd
  | stallAmul => exact .execStallAmul
  | stallAmuls => exact .execStallAmuls
  | stallAwid => exact .execStallAwid
  | stallCvt => exact .execStallCvt
  | stallAred => exact .execStallAred
  | stallArsq => exact .execStallArsq
  | modelLoadBegin => exact .execModelLoadBegin
  | modelLoadChunk => exact .execModelLoadChunk
  | modelLoadCommit => exact .execModelLoadCommit
  | modelLoadUnload => exact .execModelLoadUnload
  | modelLoadResetScales => exact .execModelLoadResetScales
  | modelLoadReadScales => exact .execModelLoadReadScales
  | modelRun => exact .execModelRun
  | modelPin => exact .execModelPin
  | modelUnpin => exact .execModelUnpin
  | layerStepStart => exact .execLayerStepStart
  | layerStepEnd => exact .execLayerStepEnd
  | shelfFill => exact .execShelfFill
  | tileLateStop => exact .execTileLateStop
  | tileNop => exact .execTileNop
  | tileEnd => exact .execTileEnd
  | tileBar => exact .execTileBar
  | tileLoop => exact .execTileLoop
  | tileBrz => exact .execTileBrz
  | tileDmaIn => exact .execTileDmaIn
  | tileDmaOut => exact .execTileDmaOut
  | tileDmaComplete => exact .execTileDmaComplete
  | tileWait => exact .execTileWait
  | tileMma => exact .execTileMma
  | tileEpi => exact .execTileEpi
  | tileVec => exact .execTileVec
  | tileSadd => exact .execTileSadd
  | tileSaddi => exact .execTileSaddi
  | tileSmuli => exact .execTileSmuli
  | tileSshli => exact .execTileSshli
  | embLookupPool => exact .execEmbLookupPool
  | embLookupDump => exact .execEmbLookupDump
  | embUpdate => exact .execEmbUpdate
  | embUpdateClose => exact .execEmbUpdateClose
  | embUpdateLoad => exact .execEmbUpdateLoad
  | stepCloseStart => exact .execStepCloseStart
  | embReplicaInstall => exact .execEmbReplicaInstall
  | embReplicaDrop => exact .execEmbReplicaDrop
  | embReplicaRefresh => exact .execEmbReplicaRefresh
  | partConfigCreate => exact .execPartConfigCreate
  | partConfigDestroy => exact .execPartConfigDestroy
  | partConfigGrant => exact .execPartConfigGrant
  | partConfigWithdraw => exact .execPartConfigWithdraw
  | partConfigShares => exact .execPartConfigShares
  | partConfigRegionAlloc => exact .execPartConfigRegionAlloc
  | partConfigRegionFree => exact .execPartConfigRegionFree
  | partConfigPort => exact .execPartConfigPort
  | partConfigIndexCreate => exact .execPartConfigIndexCreate
  | partConfigIndexResize => exact .execPartConfigIndexResize
  | partConfigIndexDestroy => exact .execPartConfigIndexDestroy
  | partConfigIndexRead => exact .execPartConfigIndexRead
  | partConfigTableCreate => exact .execPartConfigTableCreate
  | partConfigTableResize => exact .execPartConfigTableResize
  | partConfigTableDestroy => exact .execPartConfigTableDestroy
  | partConfigTableRead => exact .execPartConfigTableRead
  | ctxCreate => exact .execCtxCreate
  | ctxDestroy => exact .execCtxDestroy
  | ptnCtxWrite => exact .execPtnCtxWrite
  | sliceEnd => exact .execSliceEnd
  | stopPosted => exact .execStopPosted
  | contextSwitch => exact .execContextSwitch
  | gangStart => exact .execGangStart
  | quiesceSet => exact .execQuiesceSet
  | quiesceClear => exact .execQuiesceClear
  | substitution => exact .execSubstitution
  | unitWatchdog => exact .execUnitWatchdog
  | laneEnable => exact .execLaneEnable
  | laneDisable => exact .execLaneDisable
  | laneUp => exact .execLaneUp
  | laneTrainingRestart => exact .execLaneTrainingRestart
  | laneDown => exact .execLaneDown
  | cellReceive => exact .execCellReceive
  | replayTimeout => exact .execReplayTimeout
  | replayBudgetExpiry => exact .execReplayBudgetExpiry
  | frameReceive => exact .execFrameReceive
  | transitDrop => exact .execTransitDrop
  | searchSub => exact .execSearchSub
  | searchRsp => exact .execSearchRsp
  | embFetch => exact .execEmbFetch
  | embRows => exact .execEmbRows
  | embGset => exact .execEmbGset
  | embRset => exact .execEmbRset
  | embRepl => exact .execEmbRepl
  | embReplRsp => exact .execEmbReplRsp
  | actBlock => exact .execActBlock
  | bulkAck => exact .execBulkAck
  | handoffOffer => exact .execHandoffOffer
  | handoffState => exact .execHandoffState
  | handoffCommit => exact .execHandoffCommit
  | handoffAccept => exact .execHandoffAccept
  | ownerQuery => exact .execOwnerQuery
  | ownerAns => exact .execOwnerAns
  | probe => exact .execProbe
  | probeAck => exact .execProbeAck
  | lostNotice => exact .execLostNotice
  | droppedNotice => exact .execDroppedNotice
  | cancelRequest => exact .execCancelRequest
  | requestTimeout => exact .execRequestTimeout
  | memberLost => exact .execMemberLost
  | fabricDupExpiry => exact .execFabricDupExpiry
  | composeInstall => exact .execComposeInstall
  | composeRemove => exact .execComposeRemove
  | composeRead => exact .execComposeRead
  | drainWindowEnd => exact .execDrainWindowEnd
  | epochHoldExpiry => exact .execEpochHoldExpiry
  | handoff => exact .execHandoff
  | handoffTimeout => exact .execHandoffTimeout
  | ownerQueryRetry => exact .execOwnerQueryRetry
  | orphanSweep => exact .execOrphanSweep
  | nodeIdWrite => exact .execNodeIdWrite
  | routingEntryWrite => exact .execRoutingEntryWrite
  | policerRefill => exact .execPolicerRefill
  | shaperRefill => exact .execShaperRefill
  | policerCommit => exact .execPolicerCommit
  | shaperCommit => exact .execShaperCommit
  | samplingRound => exact .execSamplingRound
  | samplingEnable => exact .execSamplingEnable
  | ringHeadWrite => exact .execRingHeadWrite
  | medProfile => exact .execMedProfile
  | medFormat => exact .execMedFormat
  | medCheckpoint => exact .execMedCheckpoint
  | medRetireLun => exact .execMedRetireLun
  | medInfo => exact .execMedInfo
  | mediaMount => exact .execMediaMount
  | flashReadEnqueue => exact .execFlashReadEnqueue
  | flashReadComplete => exact .execFlashReadComplete
  | flashProgramComplete => exact .execFlashProgramComplete
  | flashEraseComplete => exact .execFlashEraseComplete
  | operationResume => exact .execOperationResume
  | lunFailed => exact .execLunFailed
  | journalFlush => exact .execJournalFlush
  | checkpointStart => exact .execCheckpointStart
  | checkpointAbandon => exact .execCheckpointAbandon
  | garbageCollection => exact .execGarbageCollection
  | coldRelocation => exact .execColdRelocation
  | holdupStart => exact .execHoldupStart
  | inputRestored => exact .execInputRestored
  | inputFault v => exact .execInputFault (overvoltage := v)
  | crierPost => exact .execCrierPost
  | crierTake => exact .execCrierTake
  | crierWithdraw => exact .execCrierWithdraw
  | crierTimeout => exact .execCrierTimeout
  | mbxCcfgWrite => exact .execMbxCcfgWrite
  | gatingEntry => exact .execGatingEntry
  | unitWake => exact .execUnitWake
  | powerSample => exact .execPowerSample
  | thermalSample => exact .execThermalSample
  | bankMeasurement => exact .execBankMeasurement
  | bankCapacitanceTest => exact .execBankCapacitanceTest
  | recordHandled => exact .execRecordHandled
  | errorQueueRetire => exact .execErrorQueueRetire
  | patrolScrub => exact .execPatrolScrub
  | sramScrub => exact .execSramScrub
  | nocFlitFailure => exact .execNocFlitFailure
  | powerOn => exact .execPowerOn
  | moduleReset => exact .execModuleReset
  | bootCtrlReset => exact .execBootCtrlReset
  | modEnRise => exact .execModEnRise
  | modEnFall => exact .execModEnFall
  | pinReset => exact .execPinReset
  | fwStageBegin => exact .execFwStageBegin
  | fwStageChunk => exact .execFwStageChunk
  | fwArm => exact .execFwArm
  | fwConfirm => exact .execFwConfirm
  | trialExpiry => exact .execTrialExpiry
  | firmwareWatchdog => exact .execFirmwareWatchdog
  | attest => exact .execAttest
  | ownerRead => exact .execOwnerRead
  | ownerInstallKey => exact .execOwnerInstallKey
  | ownerLock => exact .execOwnerLock
  | ownerUnlock => exact .execOwnerUnlock
  | rcvErase => exact .execRcvErase
  | rcvWrite => exact .execRcvWrite
  | rcvArm => exact .execRcvArm
  | rcvReset => exact .execRcvReset
  | smbStatus => exact .execSmbStatus
  | smbInputMv => exact .execSmbInputMv
  | smbInputW => exact .execSmbInputW
  | smbTemps => exact .execSmbTemps
  | smbHoldup => exact .execSmbHoldup
  | smbSerial => exact .execSmbSerial
  | smbCause => exact .execSmbCause
  | smbClearSticky => exact .execSmbClearSticky
  | smbReset => exact .execSmbReset
  | smbArmRecovery => exact .execSmbArmRecovery
  | smbAlertResponse => exact .execSmbAlertResponse
  | cellTime => exact .execCellTime
  | perstDeassert => exact .execPerstDeassert
  | standbyIslandPowerUp => exact .execStandbyIslandPowerUp
  | standbyIslandPowerLoss => exact .execStandbyIslandPowerLoss
  | distanceTableComplete => exact .execDistanceTableComplete
  | shelfFillComplete => exact .execShelfFillComplete
  | loadDataArrival => exact .execLoadDataArrival
  | d3hotTransition => exact .execD3hotTransition
  | attestStart => exact .execAttestStart
  | prbs31CheckError => exact .execPrbs31CheckError

/-- A step's next state comes from the state before it, less the command at the front of its queue. -/
theorem evolves_of_step (h : step s = .next t) : Evolves { s with pending := s.pending.tail } t := by
  unfold step at h
  cases hp : s.pending with
  | nil =>
    rw [hp] at h
    cases h
    exact { (Evolves.refl s).tick with pending := hp }
  | cons i rest =>
    rw [hp] at h
    exact Leads.exec t h

/-- Settles O59: the next state comes from the state before it, whose byte memories the queue is no part of. -/
theorem stepsKeepMemoryCanonical : Obligations.StepsKeepMemoryCanonical := by
  unfold Obligations.StepsKeepMemoryCanonical
  intro s t canonical stepped
  have unqueued : MemoryCanonical { s with pending := s.pending.tail } := { canonical with }
  exact (evolves_of_step stepped).memoryCanonical unqueued

end Sys2Proof.Machine
end

section
/-!
PROOFS. Queue pairs: what a doorbell that reaches its queue does, what a write of PTN_QCFG makes of a queue, and how a
queue drains, signals and halts (R40–R45).
-/
namespace Sys2Proof.Machine

variable {f : Fn} {page : Nat} {q : QRef} {s : State}

/-! Doorbells (R34, R38, R45). -/

/-- Only partitions 0 to 63 are served (R33). -/
theorem servedBy_lt {p : Nat} {port : Port} (h : servedBy p s = some port) : p < 64 := by
  by_contra hp
  simp [servedBy, hp] at h

/-- A doorbell page has the slots of 17 queues (R38, R45). -/
theorem bellSlot_queue (h : bellSlot f page q s) : q.q ≤ 16 := by
  rcases h with ⟨-, -, hq, -⟩ | ⟨-, -, rfl⟩ | ⟨-, -, -, -, hq⟩
  · exact hq
  · exact le_refl _
  · exact hq

/-- A doorbell written at a queue's slot rings that queue, and a record of it names the slot's place in BAR2. -/
theorem doorbell_slot (h : bellSlot f page q s) (head : Bool) (v : Nat) :
    doorbell f page q.q head v s = ringDoorbell f q head (bellOffset f page q.q + 4 * b2n head) v s := by
  have hq := bellSlot_queue h
  obtain ⟨scope, n⟩ := q
  rcases h with ⟨hf, rfl, -, hp⟩ | ⟨hf, rfl, hc⟩ | ⟨hf, live, hp, rfl, -⟩
  · have hpage : page < 64 := servedBy_lt hp
    have place : page * 4096 + (8 * n + 4 * b2n head) = bellOffset f page n + 4 * b2n head := by
      rw [bellOffset, if_pos hf]; omega
    simp only [doorbell, if_pos hf, if_neg (show ¬page = 64 by omega), if_neg (show ¬64 < page by omega), hp, ne_eq,
      not_true_eq_false, if_false, if_pos hq, place]
  · cases hc
    have place : 64 * 4096 + (8 * 16 + 4 * b2n head) = bellOffset f 64 16 + 4 * b2n head := by
      rw [bellOffset, if_pos hf]; omega
    simp only [doorbell, if_pos hf, if_true, place]
  · have hv : ¬f.vf = 0 := by omega
    have own : f.vf - 1 = page := by omega
    have place : 8 * n + 4 * b2n head = bellOffset f page n + 4 * b2n head := by
      rw [bellOffset, if_neg hv, Nat.zero_add]
    have here : (fnLive f s && decide (n ≤ 16) && page + 1 == f.vf) = true := by simp [live, hp, show n ≤ 16 from hq]
    simp only [doorbell, if_neg hv, if_pos here, own, place]

/-- A doorbell of a DISABLED queue is discarded. -/
theorem ringDoorbell_disabled (h : (getQueue q s).state = .disabled) (head : Bool) (off v : Nat) :
    ringDoorbell f q head off v s = s := if_pos h

/-- An SQ_TAIL doorbell of a queue that is not DISABLED is accepted or refused. -/
theorem ringDoorbell_tail (h : (getQueue q s).state ≠ .disabled) (off v : Nat) :
    ringDoorbell f q false off v s =
      if sqTailOk (getQueue q s) v then onQueue q (fun x => { x with sqTail := v }) s else refuseDoorbell f q off s :=
  if_neg h

/-- A CQ_HEAD doorbell of a queue that is not DISABLED is accepted or refused. -/
theorem ringDoorbell_head (h : (getQueue q s).state ≠ .disabled) (off v : Nat) :
    ringDoorbell f q true off v s =
      if cqHeadOk (getQueue q s) v then onQueue q (fun x => { x with cqHead := v }) s else refuseDoorbell f q off s :=
  if_neg h

/-- SQ_TAIL stays on the ring and takes no posted entry back. -/
theorem sqTailOk_iff {x : Queue} {v : Nat} : sqTailOk x v = true ↔
    v < 2 ^ x.sqLog2 ∧ (x.sqTail + 2 ^ x.sqLog2 - x.sqHead) % 2 ^ x.sqLog2 ≤ (v + 2 ^ x.sqLog2 - x.sqHead) % 2 ^ x.sqLog2 := by
  simp [sqTailOk]

/-- CQ_HEAD stays on the ring, between the previous CQ_HEAD and CQ_TAIL. -/
theorem cqHeadOk_iff {x : Queue} {v : Nat} : cqHeadOk x v = true ↔
    v < 2 ^ x.cqLog2 ∧ (v + 2 ^ x.cqLog2 - x.cqHead) % 2 ^ x.cqLog2 ≤ (x.cqTail + 2 ^ x.cqLog2 - x.cqHead) % 2 ^ x.cqLog2 := by
  simp [cqHeadOk]

/-- Settles O2: a slot's doorbell rings its queue, which discards, accepts or refuses it by the model's two checks. -/
theorem doorbellsMoveTheRings : Obligations.DoorbellsMoveTheRings := by
  unfold Obligations.DoorbellsMoveTheRings
  intro f page q v s slot x n m refuse
  have tail {t : State} (h : ringDoorbell f q false (bellOffset f page q.q) v.toNat s = t) :
      exec (.sqTailDoorbell f page q.q v) s = .next t := congrArg _ ((doorbell_slot slot false _).trans h)
  have head {t : State} (h : ringDoorbell f q true (bellOffset f page q.q + 4) v.toNat s = t) :
      exec (.cqHeadDoorbell f page q.q v) s = .next t := congrArg _ ((doorbell_slot slot true _).trans h)
  refine ⟨fun off => ⟨tail (ringDoorbell_disabled off ..), head (ringDoorbell_disabled off ..)⟩, fun on => ⟨?_, ?_, ?_, ?_⟩⟩
  · exact fun ok => tail ((ringDoorbell_tail on ..).trans (if_pos (sqTailOk_iff.2 ok)))
  · exact fun bad => tail ((ringDoorbell_tail on ..).trans (if_neg (mt sqTailOk_iff.1 bad)))
  · exact fun ok => head ((ringDoorbell_head on ..).trans (if_pos (cqHeadOk_iff.2 ok)))
  · exact fun bad => head ((ringDoorbell_head on ..).trans (if_neg (mt cqHeadOk_iff.1 bad)))

/-! Writes of PTN_QCFG (R40, R42, R43). -/

/-- A bit of a word is that bit of its number. -/
theorem bit_toNat {w : Nat} (v : BitVec w) (i : Nat) : bit v.toNat i = v.getLsbD i := by
  rw [BitVec.getLsbD, Nat.testBit_eq_decide_div_mod_eq, bit]
  rfl

/-- PTN_QCFG's fields but ENABLE, as a write leaves them in a DISABLED queue (R40): a vector out of range is not taken. -/
def qcfgFields (q : QRef) (v : Nat) (x : Queue) : Queue :=
  { x with
    intCount := bits v 15 10, intTime := bits v 9 0, sqLog2 := bits v 30 26, cqLog2 := bits v 25 21
    vec := if bits v 20 16 ≤ maxVec q then bits v 20 16 else x.vec }

/-- A DISABLED queue takes every field. -/
theorem writeQcfgFields_disabled (h : (getQueue q s).state = .disabled) (v : Nat) :
    writeQcfgFields q v s = onQueue q (qcfgFields q v) s := by
  simp only [writeQcfgFields, if_pos h, onQueue_onQueue]
  exact onQueue_congr s rfl

/-- A queue that is not DISABLED takes the live-safe fields of a write that keeps its sizes and its vector. -/
theorem writeQcfgFields_enabled {v : Nat} (h : (getQueue q s).state ≠ .disabled) (hsq : bits v 30 26 = (getQueue q s).sqLog2)
    (hcq : bits v 25 21 = (getQueue q s).cqLog2) (hvec : bits v 20 16 = (getQueue q s).vec) :
    writeQcfgFields q v s = onQueue q (fun x => { x with intCount := bits v 15 10, intTime := bits v 9 0 }) s := by
  simp only [writeQcfgFields, if_neg h, hsq, hcq, hvec, ite_self, and_self, if_true]

/-- A queue that may be enabled starts (R42, R48). -/
theorem enableQueue_starts (h : (getQueue q s).state = .disabled) (ok : enableOk q s = true) :
    enableQueue q s = onQueue q startQueue s := by
  simp only [enableQueue, h, ne_eq, not_true_eq_false, if_false, ok, if_true]

/-- A DISABLED queue that may not be enabled gets CFG_ERR (R42). -/
theorem enableQueue_refused (h : (getQueue q s).state = .disabled) (bad : enableOk q s = false) :
    enableQueue q s = onQueue q (fun x => { x with cfgErr := true }) s := by
  simp only [enableQueue, h, ne_eq, not_true_eq_false, if_false, bad, Bool.false_eq_true]

/-- A size out of range lets no queue be enabled (R42). -/
theorem enableOk_size (h : (getQueue q s).sqLog2 < 4 ∨ 16 < (getQueue q s).sqLog2 ∨ (getQueue q s).cqLog2 < 4 ∨
    16 < (getQueue q s).cqLog2) : enableOk q s = false := by
  rcases h with h | h | h | h <;> simp [enableOk, Nat.not_le.2 h]

/-- Settles O3: a DISABLED queue takes the fields, and the model's test of them decides between a start and CFG_ERR. -/
theorem queueEnableStartsEmptyRings : Obligations.QueueEnableStartsEmptyRings := by
  unfold Obligations.QueueEnableStartsEmptyRings
  intro f q v s holds reaches set off sq cq vec fields
  let t := onQueue q (qcfgFields q v.toNat) s
  have set' : bit v.toNat 31 = true := (bit_toNat v 31).trans set
  have off' : (getQueue q t).state = .disabled := by rw [getQueue_onQueue_same]; exact off
  have write : exec (.queueEnable f q v) s = .next (enableQueue q t) := by
    refine congrArg Host.Outcome.next ?_
    rw [holds, set', writeAt_reaches reaches, writeQcfg, writeQcfgFields_disabled off, set']
    rfl
  rw [write]
  refine ⟨fun hsq hsq' hcq hcq' context port ready => ?_, fun size => ?_⟩
  · have ok : enableOk q t = true := by
      simp only [enableOk, t, getQueue_onQueue_same, queueHasContext_onQueue, scopePort_onQueue, onQueue_board, qcfgFields,
        Bool.and_eq_true, decide_eq_true_eq, beq_iff_eq]
      exact ⟨⟨⟨⟨⟨⟨hsq, hsq'⟩, hcq⟩, hcq'⟩, context⟩, port⟩, ready⟩
    rw [enableQueue_starts off' ok, onQueue_onQueue]
    rfl
  · have bad : enableOk q t = false := enableOk_size (by rw [getQueue_onQueue_same]; exact size)
    rw [enableQueue_refused off' bad, onQueue_onQueue]
    rfl

/-! Drain, interrupt timer and halt (R40, R43, R44). -/

/-- An enabled queue whose ENABLE is cleared drains. -/
theorem disableQueue_enabled (h : (getQueue q s).enable = true) :
    disableQueue q s = onQueue q (fun x => { x with enable := false, state := .draining }) s := if_pos h

/-- Settles O4: a write that keeps the sizes and the vector changes the live-safe fields and starts the drain; what has drained,
or is halted with ENABLE clear, is DISABLED. -/
theorem queueDisableDrains : Obligations.QueueDisableDrains := by
  unfold Obligations.QueueDisableDrains
  refine ⟨?clear, ?drained⟩
  case clear =>
    intro f q v s holds reaches clear on off hsq hcq hvec
    have clear' : bit v.toNat 31 = false := (bit_toNat v 31).trans clear
    refine congrArg Host.Outcome.next ?_
    rw [holds, clear', writeAt_reaches reaches, writeQcfg, writeQcfgFields_enabled off hsq hcq hvec, clear']
    refine (disableQueue_enabled ?_).trans (onQueue_onQueue ..)
    rw [getQueue_onQueue_same]
    exact on
  case drained =>
    intro q s none state
    exact congrArg _ (if_pos ⟨none, state⟩)

/-- The timer of a queue whose oldest unsignalled completion is INT_TIME old raises its vector (R40). -/
theorem intTimer_due {t : Nat} {port : Port} (old : (getQueue q s).oldest = some t) (timed : (getQueue q s).intTime ≠ 0)
    (due : t + (getQueue q s).intTime ≤ timeUs s) (served : scopePort q.scope s = some port) :
    intTimer q s = emit (.msix (scopeFn q.scope port) (getQueue q s).vec)
      (onQueue q (fun x => { x with unsignalled := 0, oldest := none }) s) := by
  simp only [intTimer, old, if_pos (And.intro timed due), served]

/-- Settles O5: the interrupt timer by `intTimer_due` at the event's time, the failed ring access by the queue's state. -/
theorem queueEventsSignalAndHalt : Obligations.QueueEventsSignalAndHalt := by
  unfold Obligations.QueueEventsSignalAndHalt
  refine ⟨?timer, ?halt⟩
  case timer =>
    intro q now t port s old timed due served
    exact congrArg _ (intTimer_due (s := atTime now s) old timed due served)
  case halt =>
    intro q addr s state
    exact congrArg _ (if_pos state)

end Sys2Proof.Machine
end

section
/-!
PROOFS. Commands of the host: what a fetch takes from its ring, and what an expiry, ABORT, PART_ADOPT and a function level
reset end (R46, R47, R53, R56–R60, R64–R69).
-/
namespace Sys2Proof.Machine

variable {q : QRef} {s : State}

/-! Fetch (R46, R47, R53, R58–R60). -/

/-- The entry at SQ_HEAD is taken: SQ_HEAD goes one on, around the ring (R46). -/
def entryTaken (q : QRef) (s : State) : State :=
  onQueue q (fun x => { x with sqHead := (x.sqHead + 1) % 2 ^ (getQueue q s).sqLog2 }) s

/-- The model moves SQ_HEAD to the number it read before. -/
theorem entryTaken_eq : entryTaken q s =
    onQueue q (fun x => { x with sqHead := ((getQueue q s).sqHead + 1) % 2 ^ (getQueue q s).sqLog2 }) s := onQueue_congr s rfl

/-- The answer `a` of a completed command given again to its duplicate `k`, past the shapers where its entry is (R59, R399). -/
def echoAnswer (q : QRef) (k : Cmd) (a : Answer) (s : State) : State :=
  sendToHost k [.entry k.ref a true] (q.q == 16 || a.status == stAborted || a.status == stTimeout)
    (onHost (fun h => { h with cmds := h.cmds ++ [{ k with phase := .finishing, committed := true }] }) s)

/-- A queue that may fetch takes the entry at SQ_HEAD; of a command the table does not hold, it asks the admission. -/
theorem fetchCmd_new {packet : List Byte} (length : packet.length = 64) (may : mayFetch q s = true)
    (free : heldDup (cmdOf q packet (timeUs s)).ref s = none) :
    fetchCmd q packet s = admitCmd (cmdOf q packet (timeUs s)) (entryTaken q s) := by
  have free' : heldDup (cmdOf q packet (timeUs (entryTaken q s))).ref (entryTaken q s) = none := free
  simp only [fetchCmd, if_pos (And.intro length may), ← entryTaken_eq, free']
  rfl

/-- The duplicate of a running command is dropped (R58). -/
theorem fetchCmd_running {packet : List Byte} {d : Dup} (length : packet.length = 64) (may : mayFetch q s = true)
    (found : heldDup (cmdOf q packet (timeUs s)).ref s = some d) (runs : d.answer = none) :
    fetchCmd q packet s = entryTaken q s := by
  have found' : heldDup (cmdOf q packet (timeUs (entryTaken q s))).ref (entryTaken q s) = some d := found
  simp only [fetchCmd, if_pos (And.intro length may), ← entryTaken_eq, found', runs]

/-- The duplicate of a completed command is answered again, with what the table notes (R59). -/
theorem fetchCmd_answered {packet : List Byte} {d : Dup} {a : Answer} (length : packet.length = 64) (may : mayFetch q s = true)
    (found : heldDup (cmdOf q packet (timeUs s)).ref s = some d) (answered : d.answer = some a) :
    fetchCmd q packet s = echoAnswer q (cmdOf q packet (timeUs s)) a (entryTaken q s) := by
  have found' : heldDup (cmdOf q packet (timeUs (entryTaken q s))).ref (entryTaken q s) = some d := found
  simp only [fetchCmd, if_pos (And.intro length may), ← entryTaken_eq, found', answered]
  rfl

/-- A command is noted in the duplicate table as running since its fetch (R56). -/
def noteFetched (k : Cmd) (s : State) : State :=
  onHost (fun h => { h with
    cmds := h.cmds ++ [k]
    dups := h.dups.filter (fun d => d.ref != k.ref) ++ [{ ref := k.ref, fetched := k.fetched, answer := none }] }) s

/-- A command that the table has room for, its policer lets pass and its packet checks let through waits as fetched. -/
theorem admitCmd_waits {k : Cmd} (room : (liveDups s).length < Config.dupCapacity)
    (passes : (policeCmd k (noteFetched k s)).1 = false) (sound : packetStatus k = none) :
    admitCmd k s = (policeCmd k (noteFetched k s)).2 := by
  have full : ¬Config.dupCapacity ≤ (liveDups s).length := by omega
  change (if Config.dupCapacity ≤ (liveDups s).length then _ else
    if (policeCmd k (noteFetched k s)).1 then _ else
      match packetStatus k with
      | some st => completeSt k.ref st (policeCmd k (noteFetched k s)).2
      | none => (policeCmd k (noteFetched k s)).2) = _
  simp only [if_neg full, passes, Bool.false_eq_true, if_false, sound]

/-- Settles O6: the duplicate table, as the fetch finds it, decides between a drop, an echo and an admission. -/
theorem fetchTakesTheNextEntry : Obligations.FetchTakesTheNextEntry := by
  unfold Obligations.FetchTakesTheNextEntry
  intro q packet s length may n s' k
  have fetch {t : State} (h : fetchCmd q packet s = t) : exec (.commandFetch q packet) s = .next t := congrArg _ h
  refine ⟨fun d found runs => fetch (fetchCmd_running length may found runs),
    fun d a found answered => fetch (fetchCmd_answered length may found answered), ?_⟩
  intro free room sound entry t passes
  exact fetch ((fetchCmd_new length may free).trans (admitCmd_waits room passes sound))

/-! Expiries, ABORT and PART_ADOPT (R56, R57, R64–R66, R69). -/

variable {c : CmdRef} {k : Cmd}

/-- A command that is not past its commit point ends with its status and gives back what it held (R65). -/
theorem endCmd_before (found : findCmd c s = some k) (before : pastEnd k = false) (st : Nat) :
    endCmd c st s = settleAllEmb (completeSt c st (releaseCmd c s)) := by
  simp only [endCmd, found, before, Bool.false_eq_true, if_false]

/-- Settles O7: the table drops what is past its retention; a command past its deadline is ended by `endCmd_before`. -/
theorem expiriesEndEntriesAndCommands : Obligations.ExpiriesEndEntriesAndCommands := by
  unfold Obligations.ExpiriesEndEntriesAndCommands
  refine ⟨fun c now s => rfl, fun c now k s found timed own past before => congrArg Host.Outcome.next ?_⟩
  have found' : findCmd c (atTime now s) = some k := found
  have due : k.deadline ≠ 0 ∧ (!k.remote) = true ∧ k.fetched + k.deadline ≤ timeUs (atTime now s) :=
    ⟨timed, by rw [own]; rfl, past⟩
  simp only [found', if_pos due]
  exact endCmd_before found' before _

/-- Settles O8: both commands begin once their checks pass, and what they begin is their effect. -/
theorem abortAndAdoptActOnTheirScope : Obligations.AbortAndAdoptActOnTheirScope := by
  unfold Obligations.AbortAndAdoptActOnTheirScope
  refine ⟨fun c d k ps inp s due ok => next_begin due ok ?_, fun c d k ps inp s due ok => next_begin due ok ?_⟩
  · rw [findCmd_ref due.found]
  · rw [findCmd_ref due.found]
    rfl

/-! Function level resets (R67). -/

/-- Settles O9: the VF is live, so its partition is reset; a PF's reset has no condition. -/
theorem functionResetsClearTheirQueues : Obligations.FunctionResetsClearTheirQueues := by
  unfold Obligations.FunctionResetsClearTheirQueues
  refine ⟨fun port n s vf live => ?_, fun port s => rfl⟩
  exact congrArg Host.Outcome.next (if_pos ⟨vf, live⟩)

end Sys2Proof.Machine
end

section
/-!
PROOFS. The ports: what configuration space holds after a write, links, PERST_N, D3hot and the heartbeat watch (R32, R68, R459,
R508, R542, R546).
-/
namespace Sys2Proof.Machine

variable {p : Port} {f : Fn} {s : State}

/-! Configuration space (R32). -/

/-- A function's configuration is what a change of it made. -/
@[simp] theorem getPcie_onPcie_same (f : Fn) (g : PcieCfg → PcieCfg) : getPcie f (onPcie f g s) = g (getPcie f s) := by
  simp [getPcie, onPcie]

/-- A size of 128 bytes times a power of two reads back as its code. -/
theorem sizeCode_roundtrip (v : Nat) : (128 * 2 ^ v / 128).log2 = v := by
  rw [Nat.mul_div_cancel_left _ (by decide), Nat.log2_two_pow]

/-- The lowest bit as a number. -/
theorem b2n_bit_zero (v : Nat) : b2n (bit v 0) = v % 2 := by
  rcases Nat.mod_two_eq_zero_or_one v with h | h <;> simp [bit, b2n, h]

/-- A PF's VF Enable is the bit last written. -/
theorem vfEnable_written (h : f.vf = 0) (v : Nat) : configRead f .vfEnable (configWrite f .vfEnable v s) = v % 2 := by
  have own : (s.host.vfEnable.filter (· != f.port) ++ if bit v 0 then [f.port] else []).contains f.port = bit v 0 := by
    cases bit v 0 <;> simp
  have write : (configWrite f .vfEnable v s).host.vfEnable =
      s.host.vfEnable.filter (· != f.port) ++ if bit v 0 then [f.port] else [] := by rw [configWrite, if_pos h]; rfl
  simp only [configRead, write, own, h, beq_self_eq_true, Bool.true_and, b2n_bit_zero]

/-! Links and heartbeats (R68, R459, R508). -/

/-- A powered port whose PERST_N is high and whose link is down trains it. -/
theorem linkUp_trains (high : s.host.perst.contains p = false) (down : s.host.linkUp.contains p = false)
    (powered : portsPowered s = true) : linkUp p s = onHost (fun h => { h with
      linkUp := h.linkUp ++ [p], linkTrained := h.linkTrained.filter (· != p) ++ [p] }) s := by
  simp only [linkUp, high, down, powered, Bool.not_true, Bool.or_self, Bool.false_eq_true, if_false]

/-- A trained link that goes down loses the heartbeat. -/
theorem linkDown_trained (up : s.host.linkUp.contains p = true) : linkDown p s =
    loseHeartbeat p (onHost (fun h => { h with linkUp := h.linkUp.filter (· != p) }) s) := if_pos up

/-- An armed watch that has run out loses the heartbeat. -/
theorem heartbeatTimeout_due {t us : Nat} (timer : (getCrier (126 + p.num) s).timer = some (t, us))
    (armed : s.host.hbArmed.contains p = true) (due : t + us ≤ timeUs s) : heartbeatTimeout p s = loseHeartbeat p s := by
  simp only [heartbeatTimeout, timer, armed, due, decide_true, Bool.and_self, if_true]

/-- Settles O10: each event by its lemma above; the identity and what a lost heartbeat does are the model's definitions. -/
theorem portsFollowTheirPins : Obligations.PortsFollowTheirPins := by
  unfold Obligations.PortsFollowTheirPins
  refine ⟨?config, ?up, ?down, ?perst, fun p s => rfl, ?watch, ?d3, fun p s => rfl⟩
  case config =>
    intro f v s device
    refine ⟨rfl, fun h => ?_, fun h => if_neg (by omega), fun h => ?_, fun h => if_neg (by omega),
      fun h => vfEnable_written h v, fun h => if_neg h⟩
    · simp only [configWrite, if_pos h, configRead, getPcie_onPcie_same, sizeCode_roundtrip]
    · simp only [configWrite, if_pos h, configRead, getPcie_onPcie_same, sizeCode_roundtrip]
  case up =>
    intro p s high down powered
    exact congrArg _ (linkUp_trains high down powered)
  case down =>
    intro p s up
    exact congrArg _ (linkDown_trained up)
  case perst =>
    intro p us s long up
    have low : exec (.perstAssert p us) s =
        .next (linkDown p (onHost (fun h => { h with perst := h.perst.filter (· != p) ++ [p] }) s)) :=
      congrArg _ (if_neg (Nat.not_lt.2 long))
    exact low.trans (congrArg _ (linkDown_trained up))
  case watch =>
    intro p now t us s timer armed due
    exact congrArg _ (heartbeatTimeout_due (s := atTime now s) timer armed due)
  case d3 =>
    intro f s vf
    have there : ¬64 < f.vf := by omega
    refine ⟨congrArg _ (if_neg there), fun off => ?_, fun on => ?_⟩
    · exact congrArg _ ((if_neg there).trans (if_pos off))
    · exact congrArg _ ((if_neg there).trans (if_neg (Bool.eq_false_iff.1 on)))

end Sys2Proof.Machine
end

section
/-!
PROOFS. Register accesses: how the size of an access, the split-write latch and the width of a register decide what a write does
and a read returns (R7, R9, R33–R37, R45).
-/
namespace Sys2Proof.Machine

variable {f : Fn} {off o : Nat} {s : State}

/-! Writes to BAR0 (R36). -/

/-- A write of a live function at an offset of its BAR0 comes to that offset of the map. -/
theorem registerWrite_bar0 (live : fnLive f s = true) (size : Nat) (v : W64) :
    exec (.registerWrite f false off size v) s = .next (writeBar0 f off size v.toNat s) := by
  refine congrArg Host.Outcome.next ?_
  simp only [registerWrite, live, Bool.not_true, Bool.false_eq_true, if_false]

/-- With the latch empty there is nothing to discard. -/
theorem flushLatch_empty (h : pendingLow f s = none) : flushLatch f s = s := by rw [flushLatch, h]

/-- A low half in the latch is discarded with BAD_ACCESS at its offset. -/
theorem flushLatch_full {at0 low : Nat} (h : pendingLow f s = some (at0, low)) :
    flushLatch f s = fileBadAccess f 0 at0 (setLatch f none s) := by rw [flushLatch, h]

/-- An aligned 32-bit write. -/
theorem writeBar0_four (h : busOffset f off s = some o) (aligned : off % 4 = 0) (v : Nat) :
    writeBar0 f off 4 v s = write32 f o (v % 2 ^ 32) s := by
  simp only [writeBar0, h, aligned, and_self, if_true]

/-- An aligned 64-bit write. -/
theorem writeBar0_eight (h : busOffset f off s = some o) (aligned : off % 8 = 0) (v : Nat) :
    writeBar0 f off 8 v s = write64 f o v s := by
  simp only [writeBar0, h, if_neg (show ¬((8 : Nat) = 4 ∧ off % 4 = 0) by omega), aligned, and_self, if_true]

/-- A write of another size or alignment is discarded with BAD_ACCESS, after any low half. -/
theorem writeBar0_bad {size : Nat} (h : busOffset f off s = some o) (four : ¬(size = 4 ∧ off % 4 = 0))
    (eight : ¬(size = 8 ∧ off % 8 = 0)) (v : Nat) : writeBar0 f off size v s = fileBadAccess f 0 off (flushLatch f s) := by
  simp only [writeBar0, h, if_neg four, if_neg eight]

/-- The low half of a 64-bit register that answers goes into the empty latch. -/
theorem write32_low (wide : wideAt (o / 8 * 8) = true) (low : o % 8 = 0) (reaches : Reaches f o s) (v : Nat) :
    write32 f o v s = setLatch f (some (fnOffset f (o / 8 * 8), v)) s := by
  obtain ⟨-, empty, opened, answers⟩ := reaches
  have base : o / 8 * 8 = o := by omega
  rw [base] at wide
  simp only [write32, writeHalf, base, wide, if_true, low, show ((0 : Nat) == 4) = false from rfl, opened, answers,
    flushLatch_empty empty, Bool.false_eq_true, if_false, Option.isSome_none, Bool.not_true, Bool.or_self, Bool.not_false]

/-- The high half of a 64-bit register that answers takes effect with its own low half, and empties the latch. -/
theorem write32_high {low : Nat} (wide : wideAt (o / 8 * 8) = true) (high : o % 8 = 4) (opened : closedPage f o s = none)
    (answers : blockAnswers o s = true) (latched : pendingLow f s = some (fnOffset f (o / 8 * 8), low)) (v : Nat) :
    write32 f o v s = put64 f (o / 8 * 8) (low + 2 ^ 32 * v) (setLatch f none s) := by
  have place : o / 8 * 8 + 4 = o := by omega
  simp only [write32, writeHalf, wide, if_true, high, beq_self_eq_true, place, opened, answers, Option.isSome_none, Bool.not_true,
    Bool.or_self, Bool.false_eq_true, if_false, latched]

/-- A high half that finds the latch empty is discarded with BAD_ACCESS. -/
theorem write32_high_alone (wide : wideAt (o / 8 * 8) = true) (high : o % 8 = 4) (opened : closedPage f o s = none)
    (answers : blockAnswers o s = true) (empty : pendingLow f s = none) (v : Nat) :
    write32 f o v s = fileBadAccess f 0 (fnOffset f o) s := by
  have place : o / 8 * 8 + 4 = o := by omega
  simp only [write32, writeHalf, wide, if_true, high, beq_self_eq_true, place, opened, answers, Option.isSome_none, Bool.not_true,
    Bool.or_self, Bool.false_eq_true, if_false, empty]

/-- A 32-bit register is written at its offset. -/
theorem write32_narrow (narrow : wideAt (o / 8 * 8) = false) (v : Nat) :
    write32 f o v s = writeAt f o (put32 f o v) s := by
  simp only [write32, narrow, Bool.false_eq_true, if_false]

/-- A write of a live function acts once what the latch held is discarded, where the register then answers. -/
theorem writeAt_flushed {act : State → State} (live : fnLive f s = true) (reaches : Reaches f o (flushLatch f s)) :
    writeAt f o act s = act (flushLatch f s) := by
  obtain ⟨-, -, opened, answers⟩ := reaches
  have hv := fnLive_vf live
  simp only [writeAt, live, Bool.not_true, Bool.false_eq_true, and_false, if_false, if_neg (show ¬64 < f.vf by omega), opened,
    answers, if_true]

/-! Writes to BAR2 (R34, R45). -/

/-- A 32-bit write to the SQ_TAIL doorbell of a queue's slot rings it, whatever the latch holds. -/
theorem registerWrite_bell {page : Nat} {q : QRef} (live : fnLive f s = true) (slot : bellSlot f page q s) (v : W64) :
    registerWrite f true (bellOffset f page q.q) 4 v.toNat s = doorbell f page q.q false (v.toNat % 2 ^ 32) s := by
  have hq := bellSlot_queue slot
  have limits : bellOffset f page q.q < (if f.vf = 0 then 0x80000 else 0x1000) ∧ bellOffset f page q.q % 0x1000 = 8 * q.q ∧
      (if f.vf = 0 then bellOffset f page q.q / 0x1000 else f.vf - 1) = page := by
    rcases slot with ⟨hf, -, -, hp⟩ | ⟨hf, rfl, -⟩ | ⟨hf, -, hp, -, -⟩
    · have := servedBy_lt hp
      simp only [bellOffset, hf, if_true]
      omega
    · simp only [bellOffset, hf, if_true]
      omega
    · have hv : ¬f.vf = 0 := by omega
      simp only [bellOffset, hv, if_false]
      omega
  obtain ⟨inside, inner, onPage⟩ := limits
  have aligned : bellOffset f page q.q % 4 = 0 := by omega
  have tail : (bellOffset f page q.q % 8 == 4) = false := by rw [beq_eq_false_iff_ne]; omega
  simp only [registerWrite, live, Bool.not_true, Bool.false_eq_true, if_false, if_true, writeBar2, if_neg (Nat.not_le.2 inside),
    aligned, and_self, bell, onPage, inner, tail, Nat.mul_div_cancel_left _ (show 0 < 8 by decide)]

/-! Reads (R33–R37, R45). -/

/-- A function that is not live reads zero (R33). -/
theorem registerRead_dead (dead : fnLive f s = false) (bar2 : Bool) (size : Nat) : registerRead f bar2 off size s = (0, s) := by
  simp only [registerRead, dead, Bool.not_false, if_true]

/-- A live function reads its BAR0. -/
theorem registerRead_bar0 (live : fnLive f s = true) (size : Nat) : registerRead f false off size s = readBar0 f off size s := by
  simp only [registerRead, live, Bool.not_true, Bool.false_eq_true, if_false]

/-- A doorbell page reads zero (R45). -/
theorem registerRead_bell {size : Nat} (live : fnLive f s = true) (sized : size = 4 ∨ size = 8) (aligned : off % size = 0) :
    registerRead f true off size s = (0, s) := by
  have zero : readBar2 f off size s = (0, s) := by
    rcases sized with rfl | rfl <;> exact if_pos (by simp [aligned])
  simp only [registerRead, live, Bool.not_true, Bool.false_eq_true, if_false, if_true, zero]

/-- The local counters are 64-bit registers (R464). -/
theorem counters_wide : wideAt 0xA00100 = true ∧ wideAt 0xA00108 = true := by decide

/-- A 32-bit register that answers reads its value: it is none of the counters, which a read would latch. -/
theorem read32_narrow (narrow : wideAt (o / 8 * 8) = false) :
    read32 f o s = (if blockAnswers o s then value32 o s else 0, s) := by
  have counter : ¬(o / 8 * 8 = 0xA00100 ∨ o / 8 * 8 = 0xA00108) := by
    rintro (h | h)
    · rw [h, counters_wide.1] at narrow
      exact absurd narrow (by decide)
    · rw [h, counters_wide.2] at narrow
      exact absurd narrow (by decide)
  simp only [read32, if_neg counter, narrow, Bool.false_eq_true, if_false]
  cases blockAnswers o s <;> rfl

/-- A 64-bit register that answers reads its value. -/
theorem read64_wide (wide : wideAt o = true) : read64 f o s = (if blockAnswers o s then value64 o s else 0, s) := if_pos wide

/-- An aligned 32-bit read. -/
theorem readBar0_four (h : busOffset f off s = some o) (aligned : off % 4 = 0) : readBar0 f off 4 s = read32 f o s := by
  simp only [readBar0, h, aligned, and_self, if_true]

/-- An aligned 64-bit read. -/
theorem readBar0_eight (h : busOffset f off s = some o) (aligned : off % 8 = 0) : readBar0 f off 8 s = read64 f o s := by
  simp only [readBar0, h, if_neg (show ¬((8 : Nat) = 4 ∧ off % 4 = 0) by omega), aligned, and_self, if_true]

/-- A read of another size or alignment returns zero with BAD_ACCESS. -/
theorem readBar0_bad {size : Nat} (h : busOffset f off s = some o) (four : ¬(size = 4 ∧ off % 4 = 0))
    (eight : ¬(size = 8 ∧ off % 8 = 0)) : readBar0 f off size s = (0, fileBadAccess f 0 off s) := by
  simp only [readBar0, h, if_neg four, if_neg eight]

/-- Unused space past the BAR reads zero. -/
theorem readBar0_unused (h : busOffset f off s = none) (size : Nat) : readBar0 f off size s = (0, s) := by
  simp only [readBar0, h]

/-! Staged fields and FREE partitions (R7, R9, R37). -/

/-- An array finds its group `n` at a used offset `k` of it. -/
theorem regArray_find {a : RegArray} {n k : Nat} (group : n < a.count) (used : k < a.used) (fits : a.used ≤ a.stride) :
    a.find (a.base + a.stride * n + k) = some (n, k) := by
  have below : k < a.stride := by omega
  have above : ¬a.base + a.stride * n + k < a.base := by omega
  have inner : a.base + a.stride * n + k - a.base = k + a.stride * n := by omega
  have index : (k + a.stride * n) / a.stride = n := by
    rw [Nat.add_mul_div_left _ _ (by omega), Nat.div_eq_of_lt below, Nat.zero_add]
  have place : (k + a.stride * n) % a.stride = k := by rw [Nat.add_mul_mod_self_left, Nat.mod_eq_of_lt below]
  simp only [RegArray.find, if_neg above, inner, index, place, if_pos (And.intro group used)]

/-- Past the pages of the partitions an offset lies in none of them. -/
theorem ptnOffset_past (h : 0x140000 ≤ o) : ptnOffset o = none := by
  have index : ¬((o - 0x100000) / 0x1000 < 64 ∧ (o - 0x100000) % 0x1000 < 0x1000) := by omega
  simp only [ptnOffset, RegArray.find, if_neg (show ¬o < 0x100000 by omega), if_neg index]

/-- A 32-bit register of the TM_ block is read there. -/
theorem value32_tm (first : 0x200000 ≤ o) (last : o < 0x300000) (s : State) : value32 o s = readTmReg o s := by
  simp only [value32, windowBase, if_neg (show ¬0x4000000 ≤ o by omega), if_neg (show ¬o < 0x4000 by omega),
    ptnOffset_past (show 0x140000 ≤ o by omega), if_neg (show ¬o < 0x200000 by omega), if_pos last]

/-- A register of a policer is read at its place of the map (R407). -/
theorem value32_policer {n k : Nat} (hn : n < 192) (hk : k < 0x1C) (s : State) :
    value32 (0x201000 + 0x20 * n + k) s = readPolicerReg n k s := by
  have found : RegArray.find ⟨0x201000, 0x20, 192, 0x1C⟩ (0x201000 + 0x20 * n + k) = some (n, k) :=
    regArray_find (a := ⟨0x201000, 0x20, 192, 0x1C⟩) hn hk (by decide)
  have transit : ¬0x201000 + 0x20 * n + k = 0x200008 := by omega
  have ring : ¬0x201000 + 0x20 * n + k = 0x200018 := by omega
  have dma : ¬0x201000 + 0x20 * n + k = 0x200020 := by omega
  rw [value32_tm (by omega) (by omega)]
  simp only [readTmReg, if_neg transit, if_neg ring, if_neg dma, found]

/-- Settles O11: the size and alignment of an access choose its case; a register's width and the latch decide what a write does. -/
theorem registerWritesFollowTheLatch : Obligations.RegisterWritesFollowTheLatch := by
  unfold Obligations.RegisterWritesFollowTheLatch
  refine ⟨?writes, ?reads, ?staged, ?free⟩
  case writes =>
    intro f off o v s live bus lo own
    have write {size : Nat} {t : State} (h : writeBar0 f off size v.toNat s = t) :
        exec (.registerWrite f false off size v) s = .next t := (registerWrite_bar0 live size v).trans (congrArg _ h)
    have write4 {t : State} (aligned : off % 4 = 0) (h : write32 f o lo s = t) :
        exec (.registerWrite f false off 4 v) s = .next t := write ((writeBar0_four bus aligned _).trans h)
    refine ⟨?badSize, ?low, ?high, ?narrow, ?flushed, ?bell⟩
    case badSize =>
      intro size four eight empty
      rw [write (writeBar0_bad bus four eight _), flushLatch_empty empty]
    case low =>
      intro aligned wide low reaches
      refine ⟨write4 (by omega) (write32_low wide low reaches _), write ((writeBar0_eight bus aligned _).trans ?_)⟩
      have base : o / 8 * 8 = o := by omega
      rw [base] at wide
      exact (if_pos wide).trans (writeAt_reaches reaches)
    case high =>
      intro aligned wide high opened answers
      exact ⟨fun low latched => write4 aligned (write32_high wide high opened answers latched _),
        fun empty => write4 aligned (write32_high_alone wide high opened answers empty _)⟩
    case narrow =>
      intro aligned narrow reaches
      exact write4 aligned ((write32_narrow narrow _).trans (writeAt_reaches reaches))
    case flushed =>
      intro at0 low aligned narrow latched reaches
      rw [← flushLatch_full latched] at reaches ⊢
      exact write4 aligned ((write32_narrow narrow _).trans (writeAt_flushed live reaches))
    case bell =>
      rintro page q slot rfl
      have number : (BitVec.ofNat 32 lo).toNat = v.toNat % 2 ^ 32 := by simp [lo]
      refine congrArg Host.Outcome.next ?_
      rw [number]
      exact registerWrite_bell live slot v
  case reads =>
    intro f off size s
    refine ⟨fun dead bar2 => registerRead_dead dead bar2 size, registerRead_bell, fun live unused => ?_, fun o live bus => ?_⟩
    · rw [registerRead_bar0 live, readBar0_unused unused]
    refine ⟨fun four eight => ?_, fun aligned narrow => ?_, fun aligned wide => ?_⟩
    · rw [registerRead_bar0 live, readBar0_bad bus four eight]
    · rw [registerRead_bar0 live, readBar0_four bus aligned, read32_narrow narrow]
    · rw [registerRead_bar0 live, readBar0_eight bus aligned, read64_wide wide]
  case staged =>
    intro n c s hn staged
    have fields : polStaged (getPolicer n s) = c := by rw [polStaged, staged, Option.getD_some]
    have reg (k : Nat) (hk : k < 0x1C) : value32 (0x201000 + k + 0x20 * n) s = readPolicerReg n k s := by
      rw [Nat.add_right_comm]
      exact value32_policer hn hk s
    exact ⟨(reg 4 (by decide)).trans (congrArg PolCfg.pir fields), (reg 8 (by decide)).trans (congrArg PolCfg.cbs fields),
      (reg 0xC (by decide)).trans (congrArg PolCfg.ebs fields)⟩
  case free =>
    intro p k s free
    have unserved : servedBy p s = none := if_neg fun h => h.2 free
    simp only [readPtnReg, unserved, Option.isNone_none, if_true]

end Sys2Proof.Machine
end

section
/-!
PROOFS. What a publication writes: the ring entries of its transitions, which no other part of it touches (R100, R161, R162).
-/
namespace Sys2Proof.Machine

/-! The delta ring is written by `writeRing` alone. -/

/-- A fold of changes that leave the ring alone leaves it alone. -/
theorem foldl_ring {α : Type} {f : Index → α → Index} (h : ∀ ix a, (f ix a).ring = ix.ring) (l : List α) (ix : Index) :
    (l.foldl f ix).ring = ix.ring := by
  induction l generalizing ix with
  | nil => rfl
  | cons a l ih => exact (ih _).trans (h ix a)

@[simp] theorem modRec_ring (f : CrateRec → CrateRec) (slot : Nat) (ix : Index) : (modRec f slot ix).ring = ix.ring := rfl

@[simp] theorem gainUpper_ring (book : List W16) (new : Nat) (ix : Index) (r : Nat) : (gainUpper book new ix r).ring = ix.ring := by
  unfold gainUpper
  split <;> rfl

@[simp] theorem addUpper_ring (book : List W16) (node : NewNode) (n lvl : Nat) (down : Option Nat) (ix : Index) :
    (addUpper book node n lvl down ix).ring = ix.ring := by
  induction n generalizing lvl down ix with
  | zero => rfl
  | succ n ih =>
    unfold addUpper
    split
    · rfl
    · rw [ih, foldl_ring (gainUpper_ring book _)]

@[simp] theorem addNode_ring (book : List W16) (csn : Nat) (node : NewNode) (ix : Index) : (addNode book csn node ix).ring = ix.ring := by
  simp only [addNode, apply_ite Index.ring, ite_self, addUpper_ring, foldl_ring fun _ _ => modRec_ring ..]

@[simp] theorem writeFilterBits_ring (sel : Filter → Bool) (ix : Index) (slot : Nat) : (writeFilterBits sel ix slot).ring = ix.ring :=
  foldl_ring (fun _ _ => by dsimp only; split <;> rfl) _ ix

@[simp] theorem applyItem_ring (book : List W16) (c : Nat) (ts : List (Nat × Nat)) (ix : Index) (n : NewNode) :
    (applyItem book c ts ix n).ring = ix.ring := by
  have added : (writeFilterBits (fun f => f.state == .ready) (addNode book (csnOf c ts (n.slot, 1)) n ix) n.slot).ring = ix.ring :=
    (writeFilterBits_ring ..).trans (addNode_ring ..)
  unfold applyItem
  split
  · split <;> exact added
  · exact added

@[simp] theorem rewriteCrate_ring (oldest last : Nat) (fresh : List Nat) (ix : Index) (c : Nat) :
    (rewriteCrate oldest last fresh ix c).ring = ix.ring := rfl

/-- A publication's ring is the old one with the entries of its transitions. -/
theorem publishIndex_ring (oldest : Nat) (g : Group) (ix : Index) :
    (publishIndex oldest g ix).ring = writeRing ix.csn (transitions ix g) ix.ring := by
  -- the crates are rewritten last, after the tombstones, after the items
  refine (foldl_ring (rewriteCrate_ring oldest _ _) _ _).trans ((foldl_ring ?_ _ _).trans ?_)
  · exact fun _ _ => rfl
  · exact foldl_ring (applyItem_ring (bookOf ix g.gen) _ _) _ _

/-! The places that `writeRing` writes. -/

/-- An entry at no transition's place stays. -/
theorem writeRing_other {c i : Nat} {ts : List (Nat × Nat)} (r : Table RingEntry)
    (h : ∀ j, j < ts.length → i ≠ (c + 1 + j) % 65536) : tget? (writeRing c ts r) i = tget? r i := by
  induction ts generalizing c r with
  | nil => rfl
  | cons t ts ih =>
    have later (j : Nat) (hj : j < ts.length) : i ≠ (c + 1 + 1 + j) % 65536 := by
      rw [Nat.add_right_comm _ 1 j]
      exact h (j + 1) (Nat.succ_lt_succ hj)
    rw [writeRing, ih _ later, tget?_tput_ne _ _ (h 0 (Nat.succ_pos _))]

/-- The transition at place `j` has its entry at its CSN modulo 65,536: the 65,536 CSNs from `c + 1` on have places of their own. -/
theorem writeRing_at {c j : Nat} {ts : List (Nat × Nat)} {t : Nat × Nat} (r : Table RingEntry) (room : ts.length ≤ 65536)
    (ht : ts[j]? = some t) :
    tget? (writeRing c ts r) ((c + 1 + j) % 65536) = some { csn := c + 1 + j, slot := t.1, kind := t.2 } := by
  induction ts generalizing c j r with
  | nil => cases ht
  | cons u ts ih =>
    rw [List.length_cons] at room
    cases j with
    | zero =>
      cases ht
      have apart (j : Nat) (hj : j < ts.length) : (c + 1) % 65536 ≠ (c + 1 + 1 + j) % 65536 := by omega
      exact (writeRing_other _ apart).trans (tget?_tput_same ..)
    | succ j =>
      have place : c + 1 + (j + 1) = c + 1 + 1 + j := Nat.add_right_comm _ j 1
      rw [place]
      exact ih _ (Nat.le_of_succ_le room) ht

/-- Settles O20: the ring after a publication is `writeRing`'s, whose entries stand at distinct places. -/
theorem publicationNumbersItsTransitions : Obligations.PublicationNumbersItsTransitions := by
  unfold Obligations.PublicationNumbersItsTransitions
  intro oldest g ix room ts new
  rw [show new.ring = writeRing ix.csn ts ix.ring from publishIndex_ring oldest g ix]
  exact ⟨rfl, fun j slot kind ht => writeRing_at ix.ring room ht, fun i apart => writeRing_other ix.ring apart⟩

end Sys2Proof.Machine
end

section
/-!
PROOFS. Steps of a walk: what the reads, the descent, the top of a step and the frame of a crate make of it (R90, R111, R115, R118,
R126, R133).
-/
namespace Sys2Proof.Machine

variable {c : CmdRef} {q : Query} {ix : Index} {s u : State} {mid : Bool} {crate : Nat}

/-! A step up to the walk. -/

section
variable {ecc : EccOutcome} {place : MemPlace}
variable (found : getQuery c s = some q) (index : getIndex q.handle s = some ix) (acts : walkerActs q s = true)
include found index acts

/-- An uncorrectable read ends the query (R133). -/
theorem walkStep_lost {seq : Nat} {dropped : Bool} (phase : q.phase = .descent ∨ q.phase = .walk)
    (lost : dramRead (findCmd c s) ecc place s = (u, some (seq, dropped))) :
    walkStep c mid ecc place s = failQuery c seq dropped u := by
  rcases phase with phase | phase <;> simp [walkStep, found, index, acts, phase, lost]

variable (read : dramRead (findCmd c s) ecc place s = (u, none))
include read

/-- The descent of an empty index ends the walk (R111, R126). -/
theorem walkStep_empty (phase : q.phase = .descent) (empty : ix.entry = none) : walkStep c mid ecc place s =
    onQuery c (fun q => { q with phase := .select, term := 0, walkEnd := timeUs u, rerankEnd := timeUs u }) u := by
  simp [walkStep, found, index, acts, phase, read, empty]

/-- Any other descent leaves the base queue seeded (R111). -/
theorem walkStep_descends (phase : q.phase = .descent) (entry : ix.entry ≠ none) : walkStep c mid ecc place s =
    countWalk q.part walkEmpty (descend (viewOf q ix u) q.params.policy q.params.seeds).1
      (onQuery c (fun x => { x with walk := (descend (viewOf q ix u) q.params.policy q.params.seeds).1, phase := .walk }) u) := by
  simp [walkStep, found, index, acts, phase, read, entry]

/-- A query in WALK takes a step of its walk (R115). -/
theorem walkStep_walks (phase : q.phase = .walk) : walkStep c mid ecc place s = walkOn c mid q ix u := by
  simp [walkStep, found, index, acts, phase, read]

end

/-! A step of the walk. -/

/-- A walk that holds a frame expands its entry from it. -/
theorem walkOn_held {held : Nat × Crate} (frame : q.frame = some held) : walkOn c mid q ix s = expandHeld c q ix s := by
  simp only [walkOn, frame]

/-- A walk with an entry chosen asks for its crate again (R118). -/
theorem walkOn_chosen {slot : Nat} (frame : q.frame = none) (next : q.next = some slot) :
    walkOn c mid q ix s = useFrame c mid (slot / 64) (requestCrate c true s (slot / 64)) := by
  simp only [walkOn, frame, next]

section
variable (frame : q.frame = none) (next : q.next = none)
include frame next

/-- A walk whose top says so ends (R126). -/
theorem walkOn_ends {term : Nat}
    (top : walkTop (viewOf q ix s) q.walk (q.params.budgetUs != 0 && q.admitted + q.params.budgetUs ≤ timeUs s) = .inl term) :
    walkOn c mid q ix s = endWalk c term s := by
  simp only [walkOn, frame, next, top]

/-- Any other chooses the candidate that its top answers (R115). -/
theorem walkOn_chooses {e : Cand}
    (top : walkTop (viewOf q ix s) q.walk (q.params.budgetUs != 0 && q.admitted + q.params.budgetUs ≤ timeUs s) = .inr e) :
    walkOn c mid q ix s =
      useFrame c mid (e.slot / 64) (requestCrates c (onQuery c (fun x => { x with next := some e.slot }) s)) := by
  simp only [walkOn, frame, next, top]

end

/-! The frame of a crate (R90). -/

/-- The reference to the frame of a crate taken. -/
def frameTaken (c : CmdRef) (crate : Nat) (ix : Index) (s : State) : State :=
  onQuery c (fun q => { q with frame := some (crate, crateOf ix crate), requests := q.requests.erase crate }) s

section
variable (found : getQuery c s = some q) (index : getIndex q.handle s = some ix)
include found index

/-- The reference is taken exactly when the frame is VALID. -/
theorem takeFrame_eq : takeFrame c crate s = if tget? ix.frames crate = some false then frameTaken c crate ix s else s := by
  simp only [takeFrame, found, Option.bind_some, index, frameTaken]

/-- A walk waits while its crate is in no VALID frame. -/
theorem useFrame_waits (free : q.frame = none) (absent : tget? ix.frames crate ≠ some false) : useFrame c mid crate s = s := by
  rw [useFrame, takeFrame_eq found index, if_neg absent]
  cases mid <;> simp [found, free]

/-- An event that ends with the reference held expands nothing. -/
theorem useFrame_holds (valid : tget? ix.frames crate = some false) : useFrame c true crate s = frameTaken c crate ix s := by
  rw [useFrame, takeFrame_eq found index, if_pos valid]
  rfl

/-- Else the entry is expanded from the frame taken. -/
theorem useFrame_expands {q' : Query} (valid : tget? ix.frames crate = some false)
    (found' : getQuery c (frameTaken c crate ix s) = some q') (same : q'.handle = q.handle) (frame : q'.frame ≠ none) :
    useFrame c false crate s = expandHeld c q' ix (frameTaken c crate ix s) := by
  obtain ⟨held, frame⟩ := Option.ne_none_iff_exists'.1 frame
  have index' : getIndex q'.handle (frameTaken c crate ix s) = some ix := by rw [same]; exact index
  rw [useFrame, takeFrame_eq found index, if_pos valid]
  simp only [Bool.false_eq_true, if_false, found', frame, index']

end

/-- Settles O15: the read decides first, then the phase, then what the query holds; the frame by the `useFrame` lemmas. -/
theorem walksFollowTheGraph : Obligations.WalksFollowTheGraph := by
  unfold Obligations.WalksFollowTheGraph
  refine ⟨?steps, ?frames, fun c q ix s => rfl⟩
  case steps =>
    intro c now mid ecc place q ix s t read u answers spent found index acts phase
    have step {v : State} (h : walkStep c mid ecc place t = v) : answers v := congrArg (fun v => Host.Outcome.next (pump v)) h
    have whole (h : read.2 = none) : dramRead (findCmd c t) ecc place t = (u, none) := Prod.ext rfl h
    refine ⟨fun seq dropped lost => step (walkStep_lost found index acts phase (Prod.ext rfl lost)),
      fun h descent empty => step (walkStep_empty found index acts (whole h) descent empty),
      fun h descent entry => step (walkStep_descends found index acts (whole h) descent entry), ?_, ?_, ?_⟩
    · intro h walk frame next
      have walks := walkStep_walks (mid := mid) found index acts (whole h) walk
      exact ⟨fun term top => step (walks.trans (walkOn_ends frame next top)),
        fun e top => step (walks.trans (walkOn_chooses frame next top))⟩
    · intro slot h walk frame next
      exact step ((walkStep_walks found index acts (whole h) walk).trans (walkOn_chosen frame next))
    · intro held h walk frame
      exact step ((walkStep_walks found index acts (whole h) walk).trans (walkOn_held frame))
  case frames =>
    intro c mid crate q ix u found index free v
    exact ⟨useFrame_waits found index free, useFrame_holds found index,
      fun q' valid found' same frame => useFrame_expands found index valid found' same frame⟩

end Sys2Proof.Machine
end

section
/-!
PROOFS. Crate batches: the one read of a batch, and what its end makes of the frame and of the queries that wait (R87, R90, R91, R119).
-/
namespace Sys2Proof.Machine

variable {h crate : Nat} {ix : Index} {s t : State}

/-- Whether a batch is of this crate of this index. -/
def batchOf (h crate : Nat) (b : Batch) : Bool := b.handle == h && b.crate == crate

/-- A read counted to the query that opened its batch, if one did. -/
def countRead (opener : Option CmdRef) (s : State) : State :=
  match opener with
  | some o => onQuery o (fun q => { q with reads := q.reads + 1 }) s
  | none => s

/-- Counting a read leaves the indexes alone. -/
@[simp] theorem getIndex_countRead (opener : Option CmdRef) : getIndex h (countRead opener s) = getIndex h s := by
  cases opener <;> rfl

/-- A change of the batches leaves the indexes alone. -/
@[simp] theorem getIndex_onBatches (f : List Batch → List Batch) :
    getIndex h (onSrch (fun x => { x with batches := f x.batches }) s) = getIndex h s := rfl

/-- A change of a query leaves the indexes alone. -/
@[simp] theorem getIndex_onQuery (c : CmdRef) (f : Query → Query) : getIndex h (onQuery c f s) = getIndex h s := rfl

/-- A batch whose window is over issues one read of its crate page (R119). -/
theorem issueBatch_due {b : Batch} (found : s.srch.batches.find? (fun b => b.handle == h && b.crate == crate && !b.issued) = some b)
    (index : getIndex h s = some ix) (due : b.reqs.any (fun r => r.joined + r.windowUs ≤ timeUs s) = true) :
    issueBatch h crate s = submitRead ix.desc.part (.crate h crate) (ix.crateBase + crate)
      (onWlk ix.desc.part (fun c => { c with crateReads := wrap64 (c.crateReads + 1) })
        (countRead b.opener (onSrch (fun x => { x with
          batches := updWhere (batchOf h crate) (fun b => { b with issued := true }) x.batches }) s))) := by
  simp only [issueBatch, found, if_pos due]
  cases b.opener <;> simp only [getIndex_onQuery, getIndex_onBatches, index, countRead] <;> rfl

section
variable {a : Arrived}
variable (arrived : takeArrived (fun w => w == .crate h crate) s = some (a, t)) (index : getIndex h t = some ix)
include arrived index

/-- A fill that a rewrite overtook only gives its frame back (R90). -/
theorem crateArrives_overtaken (ok : Bool)
    (gone : t.srch.batches.find? (fun b => b.handle == h && b.crate == crate && b.issued) = none) :
    crateArrives h crate ok s = onIndex h (fun ix => { ix with orphans := ix.orphans.erase crate }) t := by
  simp only [crateArrives, arrived, index, gone]

variable (waits : t.srch.batches.find? (fun b => b.handle == h && b.crate == crate && b.issued) ≠ none)
include waits

/-- An uncorrectable read fails the crate with its record (R87). -/
theorem crateArrives_lost (ok : Bool) (lost : a.bad ≠ none) : crateArrives h crate ok s = crateFails h crate a.bad t := by
  obtain ⟨b, issued⟩ := Option.ne_none_iff_exists'.1 waits
  simp only [crateArrives, arrived, index, issued, Option.isSome_iff_ne_none.2 lost, if_true]

/-- A read that ends well fills the frame of a crate not failed before, where the image passes its checks; else the crate fails (R87,
R90). -/
theorem crateArrives_whole (ok : Bool) (whole : a.bad = none) (sound : ix.failed.contains crate = false) :
    crateArrives h crate ok s = if ok then onIndex h (fun ix => { ix with frames := tput ix.frames crate false })
      (onSrch (fun x => { x with batches := x.batches.filter fun b => !batchOf h crate b }) t) else crateFails h crate none t := by
  obtain ⟨b, issued⟩ := Option.ne_none_iff_exists'.1 waits
  simp only [crateArrives, arrived, index, issued, whole, sound, Option.isSome_none, Bool.or_false, Bool.false_eq_true, if_false]
  cases ok <;> rfl

end

/-- Settles O16: the issue by `issueBatch_due`; the end by what the read brought and whether its batch still waits. -/
theorem cratesAreReadInBatches : Obligations.CratesAreReadInBatches := by
  unfold Obligations.CratesAreReadInBatches
  intro h crate ix s here
  refine ⟨?issue, ?completes⟩
  case issue =>
    intro now b t found index due noted
    refine congrArg Host.Outcome.next ((issueBatch_due found index due).trans ?_)
    have counted (u : State) : countRead b.opener u = noted u := by
      simp only [noted, countRead]
      cases b.opener <;> rfl
    rw [counted]
    rfl
  case completes =>
    intro a t arrived index issued
    have ends {ok : Bool} {u : State} (e : crateArrives h crate ok s = u) :
        exec (.crateReadComplete h crate ok) s = .next (pump u) := congrArg (fun v => Host.Outcome.next (pump v)) e
    exact ⟨fun gone ok => ends (crateArrives_overtaken arrived index ok gone),
      fun waits whole sound => ⟨ends (crateArrives_whole arrived index waits true whole sound),
        ends (crateArrives_whole arrived index waits false whole sound)⟩,
      fun waits lost ok => ends (crateArrives_lost arrived index waits ok lost)⟩

end Sys2Proof.Machine
end

section
/-!
PROOFS. Publication in turn: when a group publishes, waits, fails or is throttled (R87, R162, R163, R167, R187).
-/
namespace Sys2Proof.Machine

variable {id crate : Nat} {read : ReadOutcome} {g : Group} {ix : Index} {s t : State}

section
variable (found : s.grp.groups.find? (·.id == id) = some g) (index : getIndex g.handle s = some ix)
include found index

section
variable (first : (s.grp.groups.find? (·.handle == g.handle)).any (·.id != id) = false)
include first

/-- A failed vector write fails the group (R187). -/
theorem groupPublish_unwritten (ok : Bool) (items : g.items ≠ []) : groupPublish id crate read false ok s = vectorFails g ix s := by
  simp [groupPublish, found, index, first, items]

/-- A lost crate fails it (R87, R187). -/
theorem groupPublish_lost (ok : Bool) {c : Nat} (lost : (groupCrates ix g).find? (crateLost ix crate read) = some c) :
    groupPublish id crate read true ok s = groupCrateFails g ix (lostAs ix crate read c) c s := by
  simp [groupPublish, found, index, first, lost]

variable (sound : (groupCrates ix g).find? (crateLost ix crate read) = none)
include sound

/-- While the ring has no room the group waits (R167). -/
theorem groupPublish_waits (ok : Bool) (full : ringRoom ix (oldestSnap g.handle ix s) (transitions ix g).length = false) :
    groupPublish id crate read true ok s = s := by
  simp [groupPublish, found, index, first, sound, full]

/-- With room in the ring it publishes once its vectors are written (R162). -/
theorem groupPublish_publishes (ok : Bool) (room : ringRoom ix (oldestSnap g.handle ix s) (transitions ix g).length = true)
    (written : writeVectors g.handle (ix.csn + (transitions ix g).length) (vectorPages ix g) s = some t) :
    groupPublish id crate read true ok s = publishGroup g ix (oldestSnap g.handle ix s) ok t := by
  simp [groupPublish, found, index, first, sound, room, written]

end

/-- A group whose wait for the ring is over ends THROTTLED, counted (R167). -/
theorem ringExpire_due (full : ringRoom ix (oldestSnap g.handle ix s) (transitions ix g).length = false)
    (due : g.buildEnd + 1000 * s.grp.ringWaitMs ≤ timeUs s) : ringExpire id s =
      onWlk g.part (fun x => { x with ringThrottle := wrap64 (x.ringThrottle + 1) }) (failGroup g stThrottled s) := by
  simp only [ringExpire, found, index, full, due, Bool.not_false, decide_true, Bool.and_self, if_true]

end

/-- A failed vector write releases the group with the record of its page and retires the page's block (R187, R443). -/
theorem vectorFails_placed {ppn : Nat} {page : Tag} (powered : s.med.held = false)
    (placed : placeProgram (indexTag g.handle (((vectorPages ix g).head?).getD 0) ix.csn) .index s = some (ppn, page, t)) :
    vectorFails g ix s = retireBlock (ppnBlock ppn t) (failGroupRec g
      { mkRec 0x1A 2 4 (locFlash (((vectorPages ix g).head?).getD 0) ppn (ppnLun ppn t) 0xFF) with part := g.part } t) := by
  simp only [vectorFails, powered, Bool.false_eq_true, if_false, placed]

/-- Settles O19: the vectors' writes decide first, then the crates, then the ring; each outcome by its lemma above. -/
theorem groupsPublishInTurn : Obligations.GroupsPublishInTurn := by
  unfold Obligations.GroupsPublishInTurn
  intro id crate read g ix s found index first oldest n lost
  have publish {vectors ok : Bool} {t : State} (h : groupPublish id crate read vectors ok s = t) :
      exec (.groupPublish id crate read vectors ok) s = .next t := congrArg _ h
  refine ⟨?_, ?_, ?_, ?_, ?_⟩
  · exact fun ok t sound room written => publish (groupPublish_publishes found index first sound ok room written)
  · exact fun ok sound full => publish (groupPublish_waits found index first sound ok full)
  · exact fun ok ppn t page items powered placed =>
      publish ((groupPublish_unwritten found index first ok items).trans (vectorFails_placed powered placed))
  · exact fun ok c lost => publish (groupPublish_lost found index first ok lost)
  · exact fun now full due => congrArg _ (ringExpire_due (s := atTime now s) found index full due)

end Sys2Proof.Machine
end

section
/-!
PROOFS. PART_CONFIG: what each operation whose checks pass makes of its partition, regions, indexes and tables (R73, R297, R324–R329).
-/
namespace Sys2Proof.Machine

variable {c : CmdRef} {d : CmdIn} {k : Cmd} {ps inp : List Byte} {s : State}

/-! A command that starts to run changes nothing that another block holds. -/

@[simp] theorem getIndex_running (h : Nat) : getIndex h (running c s) = getIndex h s := rfl
@[simp] theorem getTab_running (h : Nat) : getTab h (running c s) = getTab h s := rfl

/-- A free handle is given to the region asked for (R327). -/
theorem regionAlloc_due {g : Nat} (due : Due 0x30 (pcIs 5) c d k ps inp s) (go : pcCheck regionUsed regionCheck k ps inp s = .go)
    (free : newRegionHandle (running c s) = some g) : exec (.partConfigRegionAlloc c d) s =
      .next (complete k.ref stOk 0 g [] (putRegion g (parseRegion ps (running c s)) (running c s))) :=
  next_begin due go (by simp only [free])

/-- A region of the partition that no window names is freed (R327). -/
theorem regionFree_due {r : Region} (due : Due 0x30 (pcIs 6) c d k ps inp s) (region : getRegion (pcHandle ps) s = some r)
    (own : r.part = pcPart ps) (unused : regionWindowed (pcHandle ps) s = false) (block : pcBlockBad k ps [] = false)
    (owner : pcOwner k ps s = .go) : exec (.partConfigRegionFree c d) s =
      .next (completeSt k.ref stOk (onPtn (fun x => { x with regions := tdel x.regions (pcHandle ps) }) (running c s))) :=
  next_begin due (by simp only [pcCheck, block, Bool.false_eq_true, if_false, owner, Verdict.andThen, region, firstFail, own, unused,
    bne_self_eq_false]) rfl

/-- A new index takes its two runs of pages (R75, R76, R328). -/
theorem indexCreate_due {cb vb : Nat} (due : Due 0x30 (fun ps => pcIsSub 8 0 ps || (pcIs 8 ps && 3 < pcSub ps)) c d k ps inp s)
    (go : pcCheck idxUsed idxCreateCheck k ps inp s = .go) (runs : placeRuns (parseIdx ps) (running c s) = some (cb, vb)) :
    let t := running c s
    let ix := newIndex (parseIdx ps) cb vb (bitmapPins (parseIdx ps) t)
    exec (.partConfigIndexCreate c d) s = .next (completeSt k.ref stOk (writeMeta (metaBytes ix.desc)
      (onMut (fun m => { m with kept := tput m.kept (pcHandle ps) ix }) (putIndex (pcHandle ps) ix t)))) :=
  next_begin due go (by simp only [runs])

section
variable {ix : Index} (index : getIndex (pcHandle ps) s = some ix)
include index

/-- A RESIZE drops the frames that exceed the new number and takes the new descriptor, on flash too (R328). -/
theorem indexResize_due (due : Due 0x30 (pcIsSub 8 1) c d k ps inp s)
    (go : pcCheck idxUsed (fun p ps s => (idxVerdict p ps s).andThen (idxResizeCheck p ps s)) k ps inp s = .go) :
    let t := dropFrames (pcHandle ps) (parseIdx ps).cacheFrames ix.frames.length (running c s)
    let set : Index → Index := fun ix => resized (parseIdx ps) ix t
    exec (.partConfigIndexResize c d) s = .next (completeSt k.ref stOk (onMeta (pcHandle ps) set (onIndex (pcHandle ps) set t))) :=
  next_begin due go (by simp only [getIndex_running, index, Option.map_some, Option.getD_some])

/-- A DESTROY drops everything of the index (R328). -/
theorem indexDestroy_due (due : Due 0x30 (pcIsSub 8 2) c d k ps inp s)
    (go : pcCheck [] (fun p ps s => (idxVerdict p ps s).andThen (firstFail [(idxUsedBy (pcHandle ps) s, stBusy)])) k ps inp s = .go) :
    exec (.partConfigIndexDestroy c d) s = .next (completeSt k.ref stOk (dropIndex (pcHandle ps) ix (running c s))) :=
  next_begin due go (by simp only [getIndex_running, index])

/-- A READ gives the descriptor (R73). -/
theorem indexRead_due (due : Due 0x30 (pcIsSub 8 3) c d k ps inp s)
    (go : (pcCheck [] idxVerdict k ps inp s).andThen (firstFail [(k.resultLen < 128, stBadParam)]) = .go) :
    exec (.partConfigIndexRead c d) s =
      .next (finish k.ref d.resultOk stOk 0 0 (idxBytes (pcHandle ps) ix) (running c s)) :=
  next_begin due go (by simp only [getIndex_running, index])

end

/-- A READ gives the descriptor of a table (R297, R328). -/
theorem tableRead_due {tab : Tab} (table : getTab (pcHandle ps) s = some tab) (due : Due 0x30 (pcIsSub 9 3) c d k ps inp s)
    (go : (pcCheck [] tabVerdict k ps inp s).andThen (firstFail [(k.resultLen < 128, stBadParam)]) = .go) :
    exec (.partConfigTableRead c d) s =
      .next (finish k.ref d.resultOk stOk 0 0 (tabBytes (pcHandle ps) tab) (running c s)) :=
  next_begin due go (by simp only [getTab_running, table])

/-- Settles O45: a due command whose checks pass begins; an operation that looks up a handle, an index or a table finds it, by the
lemmas above, and what any other begins is its effect as stated. -/
theorem partConfigHasItsEffect : Obligations.PartConfigHasItsEffect := by
  unfold Obligations.PartConfigHasItsEffect
  intro c d k ps inp s t p h is ok
  refine ⟨?create, ?destroy, ?grant, ?withdraw, ?shares, ?alloc, ?free, ?port, ?indexCreate, ?index, ?tableCreate, ?table⟩
  case create => exact fun ⟨due, go⟩ => next_begin due go rfl
  case destroy => exact fun ⟨due, go⟩ => next_begin due go rfl
  case grant => exact fun ⟨due, go⟩ => next_begin due go rfl
  case withdraw => exact fun ⟨due, go⟩ => next_begin due go rfl
  case shares => exact fun ⟨due, go⟩ => next_begin due go rfl
  case alloc => exact fun g free ⟨due, go⟩ => regionAlloc_due due go free
  case free => exact fun r region own unused block owner due => regionFree_due due region own unused block owner
  case port => exact fun ⟨due, go⟩ => next_begin due go rfl
  case indexCreate => exact fun cb vb runs ⟨due, go⟩ => indexCreate_due due go runs
  case index =>
    exact fun ix index => ⟨fun ⟨due, go⟩ => indexResize_due index due go, fun ⟨due, go⟩ => indexDestroy_due index due go,
      fun ⟨due, go⟩ => indexRead_due index due go⟩
  case tableCreate => exact fun ⟨due, go⟩ => next_begin due go rfl
  case table =>
    exact fun tab table => ⟨fun ⟨due, go⟩ => next_begin due go rfl, fun ⟨due, go⟩ => next_begin due go rfl,
      fun ⟨due, go⟩ => tableRead_due table due go⟩

end Sys2Proof.Machine
end

section
/-!
PROOFS. The start of a search: its entry into the admission list, and its refusal out of the ranges of R131 (R104, R106, R131, R132).
-/
namespace Sys2Proof.Machine

variable {op : Nat} {c : CmdRef} {d : CmdIn} {k : Cmd} {ps inp : List Byte} {s : State}

/-- A search that passes the checks of its admission has passed those that need no input. -/
theorem searchEarly_go (go : searchGate op k ps inp s = .go) : searchEarly op k ps s = .go := by
  unfold searchGate searchCheck at go
  cases early : searchEarly op k ps s with
  | go => rfl
  | fail st detail => simp [early, Verdict.andThen] at go
  | hold => simp [early, Verdict.andThen] at go

/-- A search that names no composition begins on this node alone. -/
theorem beginSearch_alone (alone : k.epoch = 0) (resultOk : Bool) :
    beginSearch op resultOk k ps inp s = enterAdmission op k ps inp s := by
  simp only [beginSearch, cmdGate, if_pos alone]

/-- BAD_PARAM is none of the statuses that the fabric counts (R390). -/
theorem countTurned_badParam : countTurned k stBadParam s = s := by
  unfold countTurned
  cases k.queue.scope <;> rfl

/-- The ranges of R131 are among the checks that need no input. -/
theorem searchEarly_outOfRange (bad : searchPacketBad k ps = true ∨ searchRangeBad op ps = true) :
    searchEarly op k ps s = .fail stBadParam 0 := by
  rw [searchEarly, if_pos (Bool.or_eq_true_iff.2 bad)]

/-- A search out of its ranges completes BAD_PARAM, whatever its input. -/
theorem beginWith_outOfRange {check : Cmd → List Byte → List Byte → State → Verdict}
    {act : Cmd → List Byte → List Byte → State → State} (found : findCmd c s = some k) (opcode : k.opcode = op)
    (waits : k.phase = .waiting) (turn : mayStart k s = true) (params : paramBytes k d = some ps)
    (bad : searchPacketBad k ps = true ∨ searchRangeBad op ps = true) :
    beginWith op anyForm (searchEarly op) c d check act s = complete c stBadParam 0 0 [] s := by
  simp only [beginWith, found, opcode, waits, turn, params, anyForm]
  cases paramsBad k ps with
  | true => simp
  | false => simp [searchEarly_outOfRange bad, settleVerdict, countTurned_badParam, findCmd_ref found]

/-- Settles O13: the three rows are one start, which admits a search whose checks pass and refuses one out of its ranges. -/
theorem searchesEnterTheAdmissionList : Obligations.SearchesEnterTheAdmissionList := by
  unfold Obligations.SearchesEnterTheAdmissionList
  intro c d k ps inp s row op low high
  have starts : exec (row op) s =
      .next (beginWith op anyForm (searchEarly op) c d (searchGate op) (beginSearch op d.resultOk) s) := by
    obtain rfl | rfl | rfl : op = 1 ∨ op = 2 ∨ op = 3 := by omega
    all_goals rfl
  rw [starts]
  refine ⟨?enters, ?refused⟩
  case enters =>
    intro ix due go alone index p q t
    refine next_beginWith due (searchEarly_go go) go ((beginSearch_alone alone _).trans ?_)
    simp only [enterAdmission, getIndex_running, index, p, q, t]
  case refused =>
    intro found opcode waits turn params bad
    rw [beginWith_outOfRange found opcode waits turn params bad]

end Sys2Proof.Machine
end

section
/-!
PROOFS. Admission: the head of a list goes to its walker with its snapshot, and a distance table starts the descent (R104, R105, R108,
R186).
-/
namespace Sys2Proof.Machine

variable {p n : Nat} {q : Query} {ix : Index} {s : State}

/-- Nothing is handed on where no search has answered (R372). -/
theorem pump_idle (idle : s.host.fabricAns = []) : pump s = s := by
  have same : onHost (fun h => { h with fabricAns := [] }) s = s := by
    rw [onHost, ← idle]
  simp only [pump, idle, List.foldl_nil, same]

/-- The head of the list goes to the powered walker that has room, its filter being READY (R104, R105). -/
theorem admitQuery_head (head : admissionHead p s = some q) (index : getIndex q.handle s = some ix)
    (walker : pickWalker p (footprint ix.desc q.params) s = some n) (awake : unitAwake .walker n s = true)
    (filter : q.params.useFilter = true → (getFilter ix q.params.filter).state = .ready) :
    admitQuery p s = admitTo n q ix s := by
  have ready : (q.params.useFilter && (getFilter ix q.params.filter).state != .ready) = false := by
    cases used : q.params.useFilter with
    | false => rfl
    | true => simp [filter used]
  simp only [admitQuery, head, index, walker, ready, awake, Bool.false_eq_true, if_false, if_true]

/-- A complete distance table of the snapshot's codebook starts the descent (R108). -/
theorem completeTable_due {c : CmdRef} (found : getQuery c s = some q) (index : getIndex q.handle s = some ix)
    (phase : q.phase = .table) (acts : walkerActs q s = true) :
    completeTable c s = onQuery c (fun x => { x with
      table := distTable ix.desc (bookOf ix q.gen) (queryElems ix.desc q.vec), phase := .descent }) s := by
  simp [completeTable, found, index, phase, acts]

/-- Settles O14: what an admission changes is the model's `admitTo`, which the head reaches by `admitQuery_head`. -/
theorem admissionTakesASnapshot : Obligations.AdmissionTakesASnapshot := by
  unfold Obligations.AdmissionTakesASnapshot
  refine ⟨fun s => pump_idle, ?admits, fun c q ix s found index phase acts => ?table⟩
  case admits =>
    intro p now n q ix s t head index walker awake filter window width admitted bound held
    exact congrArg (fun v => Host.Outcome.next (pump v)) (admitQuery_head head index walker awake filter)
  case table => exact congrArg Host.Outcome.next (completeTable_due found index phase acts)

end Sys2Proof.Machine
end

section
/-!
PROOFS. Rerank and selection: the reads of a pool's vectors, their exact distances, and the selection that ends a search (R122–R125,
R127–R129, R139).
-/
namespace Sys2Proof.Machine

variable {c : CmdRef} {q : Query} {ix : Index} {s t : State} {i st : Nat}

/-- The staging that one more entry of a query takes at a stall: its vector, and the query's own copy with the first (R123). -/
def stagingNeed (q : Query) (ix : Index) (st : Nat) (s : State) : Nat :=
  vecBytes ix.desc + if stagedBytes q st s = 0 then 2 * ix.desc.dim else 0

/-- The queries that wait for staging at a stall, the first come first. -/
def stagingQueue (st : Nat) (s : State) : List CmdRef := sget (fun _ => []) s.srch.stageq st

/-- A pool entry whose turn it is at its stall is read once staging has room (R123). -/
theorem issueRerank_due (found : getQuery c s = some q) (runs : queryRuns q = true) (index : getIndex q.handle s = some ix)
    (stall : rerankStall q i = some st) (phase : q.phase = .rerank) (turn : rerankNext q i = true)
    (first : stagingQueue st s = [] ∨ (stagingQueue st s).head? = some c)
    (share : stagedBytes q st s + stagingNeed q ix st s ≤ 262144) (room : stallStaged st s + stagingNeed q ix st s ≤ 1048576) :
    issueRerank c i s = submitRerank q.part c i (ix.vecBase + (q.walk.pool.getD i (0#32, 0)).2 / vecsPerPage ix.desc)
      (onWlk q.part (fun c => { c with rerankReads := wrap64 (c.rerankReads + 1) })
        (onQuery c (fun q => { q with issued := q.issued ++ [i] })
          (onSrch (fun x => { x with
            stageq := sset (fun _ => []) x.stageq st ((stagingQueue st s).filter (· != c)) }) s))) := by
  unfold stagingQueue at first ⊢
  unfold stagingNeed at share room
  simp only [issueRerank, found, index, stall, runs, phase, turn, share, room]
  generalize sget (fun _ => []) s.srch.stageq st = waiting at first ⊢
  cases waiting with
  | nil => simp
  | cons w ws =>
    obtain rfl : w = c := by simpa using first
    simp

/-! The end of a read (R107, R123, R133). -/

section
variable {a : Arrived}
variable (found : getQuery c s = some q) (arrived : takeEntry c i s = some (a, t)) (phase : q.phase = .rerank)
  (unchosen : q.chosen = false) (issued : i ∈ q.issued)
include found arrived phase unchosen issued

/-- A read that a parking overtook only gives its staging back (R107). -/
theorem rerankArrives_stale (stale : i ∈ q.stale) : rerankArrives c i s =
    onQuery c (fun q => { q with issued := q.issued.erase i, stale := q.stale.erase i }) t := by
  simp [rerankArrives, found, arrived, phase, unchosen, issued, stale]

variable (wanted : i ∉ q.stale) (index : getIndex q.handle t = some ix)
include wanted index

/-- A vector that arrives well is staged, where the stall's job finds it (R122, R123). -/
theorem rerankArrives_staged (whole : a.bad = none) (stall : rerankStall q i = some st) : rerankArrives c i s =
    startRerank q ix st (onQuery c (fun q => { q with staged := q.staged ++ [i] }) t) := by
  simp [rerankArrives, found, arrived, phase, unchosen, issued, wanted, index, whole, stall]

/-- An uncorrectable read ends the query (R133). -/
theorem rerankArrives_lost {seq : Nat} {dropped : Bool} (lost : a.bad = some (seq, dropped)) :
    rerankArrives c i s = failQuery c seq dropped t := by
  simp [rerankArrives, found, arrived, phase, unchosen, issued, wanted, index, lost]

end

/-! The selection (R125–R128, R137, R139). -/

/-- A command that leads no composed search has no answers to settle. -/
theorem settleSearch_alone (alone : getCompSearch c s = none) : settleSearch c s = s := by rw [settleSearch, alone]

section
variable {n : Nat} (found : getQuery c s = some q) (runs : queryRuns q = true) (phase : q.phase = .select)
  (unchosen : q.chosen = false) (unserved : selectorOf c s = none) (selector : searchSelector q.walker s = some n)
  (awake : unitAwake .selector n s = true) (free : tget? s.sel.busy n = none)
include found runs phase unchosen unserved selector awake free

/-- A selection begins on a powered selector that is free; an event that ends with it in progress keeps the selector (R139). -/
theorem selectSearch_begins (mid resultOk : Bool) : selectSearch c mid resultOk s =
    if mid then onSel (fun x => { x with busy := tput x.busy n (.search c q.part) }) s else chooseResults c q resultOk s := by
  simp [selectSearch, found, runs, phase, unchosen, unserved, selector, awake, free]

end

/-- Settles O17: each row by its lemma above; the exact distance is the model's definition on the query's index. -/
theorem rerankAndSelectionEndASearch : Obligations.RerankAndSelectionEndASearch := by
  unfold Obligations.RerankAndSelectionEndASearch
  intro c q ix s found
  refine ⟨?issue, ?arrives, ?computes, ?selects⟩
  case issue =>
    intro i st runs index stall phase turn waiting need first share room
    exact congrArg Host.Outcome.next (issueRerank_due found runs index stall phase turn first share room)
  case arrives =>
    intro i a t arrived phase unchosen issued
    have issued : i ∈ q.issued := List.contains_iff_mem.1 issued
    have wanted (h : q.stale.contains i = false) : i ∉ q.stale := by simpa using h
    have ends {u : State} (e : rerankArrives c i s = u) : exec (.rerankReadComplete c i) s = .next (pump u) :=
      congrArg (fun v => Host.Outcome.next (pump v)) e
    exact ⟨fun h => ends (rerankArrives_stale found arrived phase unchosen issued (List.contains_iff_mem.1 h)),
      fun st h index whole stall => ends (rerankArrives_staged found arrived phase unchosen issued (wanted h) index whole stall),
      fun seq dropped h index lost => ends (rerankArrives_lost found arrived phase unchosen issued (wanted h) index lost)⟩
  case computes =>
    intro i index slot d
    simp only [computeEntry, found, index, slot, d]
  case selects =>
    intro n alone runs phase unchosen unserved selector awake free
    have selects (mid : Bool) : exec (.searchSelection c mid true) s = .next (pump (if mid then
        onSel (fun x => { x with busy := tput x.busy n (.search c q.part) }) s else chooseResults c q true s)) := by
      have row : exec (.searchSelection c mid true) s = .next (pump (selectSearch c mid true (settleSearch c s))) := rfl
      rw [row, settleSearch_alone alone, selectSearch_begins found runs phase unchosen unserved selector awake free]
    exact ⟨selects false, selects true⟩

end Sys2Proof.Machine
end

section
/-!
PROOFS. The order of keys: the number that a value stands for, and the ranks by which entries are better or kept over one another
(R144, R155).
-/
namespace Sys2Proof.Machine

/-! The order of values. -/

/-- The number that a value stands for, between −∞ and +∞; a NaN stands for none, and reads as −∞. -/
def Fv.num : Fv → WithBot (WithTop ℚ)
  | .nan | .inf true => ⊥
  | .inf false => ⊤
  | .fin neg m e => ((((if neg then -1 else 1) * m * 2 ^ e : ℚ) : WithTop ℚ) : WithBot (WithTop ℚ))

/-- A magnitude brought to a lower exponent is the same number. -/
theorem alignTo_num {g e : ℤ} (m : ℕ) (h : g ≤ e) : (alignTo g m e : ℚ) * 2 ^ g = m * 2 ^ e := by
  have shift : (2 : ℚ) ^ e = 2 ^ (e - g).toNat * 2 ^ g := by
    rw [← zpow_natCast, ← zpow_add₀ two_ne_zero, Int.toNat_of_nonneg (by omega), sub_add_cancel]
  rw [alignTo, Nat.cast_mul, Nat.cast_pow, Nat.cast_ofNat, shift, mul_assoc]

/-- Finite values compare as their numbers. -/
theorem fltV_fin (a b : Bool) (m n : ℕ) (e f : ℤ) : fltV (.fin a m e) (.fin b n f) = true ↔
    ((if a then -1 else 1) * m * 2 ^ e : ℚ) < (if b then -1 else 1) * n * 2 ^ f := by
  have unit : (0 : ℚ) < 2 ^ min e f := by positivity
  rw [mul_assoc, mul_assoc, ← alignTo_num m (min_le_left e f), ← alignTo_num n (min_le_right e f), ← mul_assoc, ← mul_assoc,
    mul_lt_mul_iff_left₀ unit]
  generalize hx : alignTo (min e f) m e = x
  generalize hy : alignTo (min e f) n f = y
  simp only [fltV, hx, hy]
  cases a <;> cases b
  case false.false => simp
  case true.true => simp
  case false.true =>
    simpa using (neg_nonpos.2 y.cast_nonneg).trans x.cast_nonneg
  case true.false =>
    have sum : -(x : ℚ) < y ↔ 0 < y + x := by rw [neg_lt_iff_pos_add]; exact_mod_cast Iff.rfl
    simp only [Bool.or_eq_true, bne_iff_ne, if_true, Bool.false_eq_true, if_false, neg_mul, one_mul, sum]
    omega

/-- Values that are no NaN compare as their numbers. -/
theorem fltV_iff {a b : Fv} (ha : a.isNan = false) (hb : b.isNan = false) : fltV a b = true ↔ a.num < b.num := by
  match a, b with
  | .inf a, .inf b => cases a <;> cases b <;> simp [fltV, Fv.num]
  | .inf a, .fin .. => cases a <;> simp [fltV, Fv.num]
  | .fin .., .inf true => simp [fltV, Fv.num]
  | .fin .., .inf false => exact iff_of_true rfl (WithBot.coe_lt_coe.2 (WithTop.coe_lt_top _))
  | .fin a m e, .fin b n f => simp only [Fv.num, WithBot.coe_lt_coe, WithTop.coe_lt_coe, fltV_fin]

/-- Negation turns the order round. -/
theorem fltV_fneg (a b : Fv) : fltV (fneg a) (fneg b) = fltV b a := by
  match a, b with
  | .nan, .nan | .nan, .inf _ | .nan, .fin .. | .inf _, .nan | .fin .., .nan => rfl
  | .inf a, .inf b => cases a <;> cases b <;> rfl
  | .inf a, .fin .. => cases a <;> rfl
  | .fin .., .inf b => cases b <;> rfl
  | .fin a m e, .fin b n f => cases a <;> cases b <;> simp [fneg, fltV, min_comm f e, Bool.or_comm]

/-- A value is a number exactly when its negation is one. -/
theorem isNan_fneg (a : Fv) : (fneg a).isNan = a.isNan := by cases a <;> rfl

/-! The ranks (R144, R155): better is lower. -/

/-- The rank of a key: its number, or with the largest best that of its negation, then its position (R144). -/
def keyRank (largest : Bool) (e : Fv × ℕ) : WithBot (WithTop ℚ) ×ₗ ℕ :=
  toLex ((if largest then fneg e.1 else e.1).num, e.2)

/-- The key of an entry of a merge: its distance and position (R154). -/
def distKey (e : MergeEnt) : Fv × ℕ := (f32v e.dist, e.pos)

/-- The rank of a copy in a merge: exact before approximate, then the rank of its key (R155). -/
def keepRank (e : MergeEnt) : Bool ×ₗ WithBot (WithTop ℚ) ×ₗ ℕ := toLex (!e.exact, keyRank false (distKey e))

/-- With the largest best, keys compare as their negations with the smallest best. -/
theorem keyBetter_largest (a b : Fv × ℕ) : keyBetter true a b = keyBetter false (fneg a.1, a.2) (fneg b.1, b.2) := by
  simp only [keyBetter, fltV_fneg, if_true, Bool.false_eq_true, if_false]

/-- With the smallest best, a key is better exactly when its rank is lower. -/
theorem keyBetter_smallest_iff {a b : Fv × ℕ} (ha : a.1.isNan = false) (hb : b.1.isNan = false) :
    keyBetter false a b = true ↔ keyRank false a < keyRank false b := by
  have split : keyBetter false a b = true ↔ a.1.num < b.1.num ∨ ¬b.1.num < a.1.num ∧ a.2 < b.2 := by
    simp [keyBetter, ← fltV_iff ha hb, ← fltV_iff hb ha]
  rw [split, keyRank, keyRank, Prod.Lex.toLex_lt_toLex]
  grind

/-- A key is better exactly when its rank is lower. -/
theorem keyBetter_iff {largest : Bool} {a b : Fv × ℕ} (ha : a.1.isNan = false) (hb : b.1.isNan = false) :
    keyBetter largest a b = true ↔ keyRank largest a < keyRank largest b := by
  cases largest with
  | false => exact keyBetter_smallest_iff ha hb
  | true =>
    rw [keyBetter_largest]
    exact keyBetter_smallest_iff ((isNan_fneg _).trans ha) ((isNan_fneg _).trans hb)

/-- Copies both exact or both approximate compare by their keys. -/
theorem keepOver_eq (a b : MergeEnt) : keepOver a b =
    if a.exact != b.exact then a.exact else keyBetter false (distKey a) (distKey b) := by
  unfold keepOver keyBetter distKey
  cases fltV (f32v a.dist) (f32v b.dist) <;> cases fltV (f32v b.dist) (f32v a.dist) <;> simp

/-- A copy is kept over another exactly when its rank is lower. -/
theorem keepOver_iff {a b : MergeEnt} (ha : (f32v a.dist).isNan = false) (hb : (f32v b.dist).isNan = false) :
    keepOver a b = true ↔ keepRank a < keepRank b := by
  rw [keepOver_eq, keepRank, keepRank, Prod.Lex.toLex_lt_toLex, ← keyBetter_smallest_iff (a := distKey a) (b := distKey b) ha hb]
  cases a.exact <;> cases b.exact <;> simp

end Sys2Proof.Machine
end

section
/-!
PROOFS. The first of a list in the order of a rank: what `sortBy` and a cut at k entries make of it (R144, R148).
-/
namespace Sys2Proof.Machine

variable {α β : Type} [LinearOrder β] {lt : α → α → Bool} {rank : α → β} {xs : List α}

/-- A test that says, of the entries of a list, whether the rank of the first is lower. -/
def RankedBy (lt : α → α → Bool) (rank : α → β) (xs : List α) : Prop :=
  ∀ a ∈ xs, ∀ b ∈ xs, (lt a b = true ↔ rank a < rank b)

/-- Of two ranked entries the first is not before the second exactly when its rank is not lower. -/
theorem RankedBy.eq_false_iff (ranked : RankedBy lt rank xs) {a b : α} (ha : a ∈ xs) (hb : b ∈ xs) :
    lt a b = false ↔ rank b ≤ rank a := by
  rw [← not_lt, ← ranked a ha b hb, Bool.not_eq_true]

/-! Sorting. -/

/-- An entry is inserted as Mathlib inserts it. -/
theorem ordInsert_eq_orderedInsert (lt : α → α → Bool) (x : α) (ys : List α) :
    ordInsert lt x ys = ys.orderedInsert (fun a b => lt a b = true) x := by
  induction ys with
  | nil => rfl
  | cons y ys ih => rw [ordInsert, ih, List.orderedInsert]

/-- An insertion adds the entry and no other. -/
theorem ordInsert_perm (lt : α → α → Bool) (x : α) (ys : List α) : (ordInsert lt x ys).Perm (x :: ys) := by
  rw [ordInsert_eq_orderedInsert]
  exact List.perm_orderedInsert _ x ys

/-- The last entry is sorted in last. -/
theorem sortBy_concat (lt : α → α → Bool) (xs : List α) (x : α) : sortBy lt (xs ++ [x]) = ordInsert lt x (sortBy lt xs) := by
  rw [sortBy, List.foldl_append]
  rfl

/-- Sorting neither adds nor drops an entry. -/
theorem sortBy_perm (lt : α → α → Bool) (xs : List α) : (sortBy lt xs).Perm xs := by
  induction xs using List.reverseRecOn with
  | nil => rfl
  | append_singleton xs x ih =>
    rw [sortBy_concat]
    exact (ordInsert_perm ..).trans ((ih.cons x).trans (List.perm_append_singleton x xs).symm)

/-- A sorted list has the entries of the list. -/
theorem mem_sortBy {x : α} : x ∈ sortBy lt xs ↔ x ∈ xs := (sortBy_perm lt xs).mem_iff

/-- An insertion keeps the ranks in order. -/
theorem ordInsert_ranks {x : α} {ys : List α} (before : ∀ y ∈ ys, (lt x y = true ↔ rank x < rank y))
    (sorted : ys.Pairwise (rank · ≤ rank ·)) : (ordInsert lt x ys).Pairwise (rank · ≤ rank ·) := by
  induction ys with
  | nil => exact List.pairwise_singleton ..
  | cons y ys ih =>
    obtain ⟨least, rest⟩ := List.pairwise_cons.1 sorted
    obtain ⟨first, later⟩ := List.forall_mem_cons.1 before
    rw [ordInsert]
    split_ifs with h
    · have low : rank x ≤ rank y := (first.1 h).le
      exact List.pairwise_cons.2 ⟨List.forall_mem_cons.2 ⟨low, fun z hz => low.trans (least z hz)⟩, sorted⟩
    · have low : rank y ≤ rank x := not_lt.1 (mt first.2 h)
      refine List.pairwise_cons.2 ⟨fun z hz => ?_, ih later rest⟩
      obtain rfl | hz := List.mem_cons.1 ((ordInsert_perm ..).mem_iff.1 hz)
      · exact low
      · exact least z hz

/-- A sorted list has its ranks in order. -/
theorem sortBy_ranks (ranked : RankedBy lt rank xs) : (sortBy lt xs).Pairwise (rank · ≤ rank ·) := by
  induction xs using List.reverseRecOn with
  | nil => exact List.Pairwise.nil
  | append_singleton xs x ih =>
    rw [sortBy_concat]
    have rest : RankedBy lt rank xs := fun a ha b hb => ranked a (List.mem_append_left _ ha) b (List.mem_append_left _ hb)
    exact ordInsert_ranks (fun y hy => ranked x (by simp) y (List.mem_append_left _ (mem_sortBy.1 hy))) (ih rest)

/-! The first `k` of a sorted list. -/

/-- The first `k` entries of a list in the order of `lt`. -/
def firstBy (lt : α → α → Bool) (k : ℕ) (xs : List α) : List α := (sortBy lt xs).take k

variable {k : ℕ}

/-- They are `k`, or all there are. -/
theorem length_firstBy : (firstBy lt k xs).length = min k xs.length := by
  rw [firstBy, List.length_take, (sortBy_perm lt xs).length_eq]

/-- They are fewer than `k` exactly when the list has fewer. -/
theorem length_firstBy_lt : (firstBy lt k xs).length < k ↔ xs.length < k := by
  rw [length_firstBy]
  omega

/-- They are entries of the list. -/
theorem mem_of_mem_firstBy {x : α} (h : x ∈ firstBy lt k xs) : x ∈ xs := mem_sortBy.1 (List.mem_of_mem_take h)

/-- None of them is before an earlier one. -/
theorem firstBy_inOrder (ranked : RankedBy lt rank xs) : (firstBy lt k xs).Pairwise fun a b => lt b a = false :=
  ((sortBy_ranks ranked).sublist (List.take_sublist k _)).imp_of_mem fun ha hb low =>
    (ranked.eq_false_iff (mem_of_mem_firstBy hb) (mem_of_mem_firstBy ha)).2 low

/-- None left out is before one of them. -/
theorem firstBy_leavesNoBetter (ranked : RankedBy lt rank xs) {a b : α} (ha : a ∈ xs) (out : a ∉ firstBy lt k xs)
    (hb : b ∈ firstBy lt k xs) : lt a b = false := by
  have sorted := sortBy_ranks ranked
  rw [← List.take_append_drop k (sortBy lt xs)] at sorted
  have late : a ∈ (sortBy lt xs).drop k := by
    have whole : a ∈ firstBy lt k xs ++ (sortBy lt xs).drop k := by
      rw [firstBy, List.take_append_drop]
      exact mem_sortBy.2 ha
    exact (List.mem_append.1 whole).resolve_left out
  obtain ⟨-, -, across⟩ := List.pairwise_append.1 sorted
  exact (ranked.eq_false_iff ha (mem_of_mem_firstBy hb)).2 (across b hb a late)

section
variable {pos : α → ℕ} (distinct : (xs.map pos).Nodup)
include distinct

/-- At positions of their own, no position is given twice. -/
theorem firstBy_positions_nodup : ((firstBy lt k xs).map pos).Nodup :=
  ((((sortBy_perm lt xs).map pos).nodup_iff).2 distinct).sublist ((List.take_sublist k _).map pos)

/-- An entry is among the first exactly when its position is given. -/
theorem mem_firstBy_iff {x : α} (hx : x ∈ xs) : x ∈ firstBy lt k xs ↔ pos x ∈ (firstBy lt k xs).map pos := by
  refine ⟨List.mem_map_of_mem, fun given => ?_⟩
  obtain ⟨y, hy, same⟩ := List.mem_map.1 given
  exact List.inj_on_of_nodup_map distinct (mem_of_mem_firstBy hy) hx same ▸ hy

/-- No entry whose position is left out is before one whose position is given. -/
theorem firstBy_positions_leaveNoBetter (ranked : RankedBy lt rank xs) {a b : α} (ha : a ∈ xs) (hb : b ∈ xs)
    (out : pos a ∉ (firstBy lt k xs).map pos) (given : pos b ∈ (firstBy lt k xs).map pos) : lt a b = false :=
  firstBy_leavesNoBetter ranked ha (mt (mem_firstBy_iff distinct ha).1 out) ((mem_firstBy_iff distinct hb).2 given)

end

end Sys2Proof.Machine
end

section
/-!
PROOFS. The copies that a merge keeps: one for each ID, over which no other valid copy is kept (R155).
-/
namespace Sys2Proof.Machine

variable {l best : List MergeEnt} {e : MergeEnt}

/-- The copies `best` are what a merge keeps of the entries `l`. -/
structure Kept (l best : List MergeEnt) : Prop where
  distinct : (best.map (·.id)).Nodup
  covers : ∀ e ∈ l, e.id ∈ best.map (·.id)
  given : ∀ b ∈ best, b ∈ l
  first : ∀ b ∈ best, ∀ e ∈ l, e.id = b.id → keepRank b ≤ keepRank e

/-- What is kept in place of a copy `b` when `e` comes: `e` where it is of the same ID and kept over `b`. -/
def keptOf (e b : MergeEnt) : MergeEnt := if b.id == e.id && keepOver e b then e else b

/-- It is one of the two, and of the ID of `b`. -/
theorem keptOf_cases (e b : MergeEnt) :
    (keptOf e b = e ∧ b.id = e.id ∧ keepOver e b = true) ∨ (keptOf e b = b ∧ (b.id = e.id → keepOver e b = false)) := by
  unfold keptOf
  split_ifs with h
  · exact .inl ⟨rfl, by simpa using h⟩
  · exact .inr ⟨rfl, by simpa using h⟩

@[simp] theorem keptOf_id (e b : MergeEnt) : (keptOf e b).id = b.id := by
  obtain ⟨taken, same, _⟩ | ⟨stays, _⟩ := keptOf_cases e b
  · rw [taken, same]
  · rw [stays]

/-- A copy of an ID already kept takes the place of the one it is kept over. -/
theorem mergeAdd_known (known : e.id ∈ best.map (·.id)) : mergeAdd best e = best.map (keptOf e) :=
  if_pos (by simpa using known)

/-- The first copy of an ID is kept. -/
theorem mergeAdd_new (new : e.id ∉ best.map (·.id)) : mergeAdd best e = best ++ [e] :=
  if_neg (by simpa using new)

/-- With a copy of an ID already kept, the lower rank stays. -/
theorem Kept.addKnown (kept : Kept l best) (ranked : RankedBy keepOver keepRank (l ++ [e]))
    (known : e.id ∈ best.map (·.id)) : Kept (l ++ [e]) (best.map (keptOf e)) := by
  have ids : (best.map (keptOf e)).map (·.id) = best.map (·.id) := by
    rw [List.map_map]
    exact List.map_congr_left fun b _ => keptOf_id e b
  refine ⟨by rw [ids]; exact kept.distinct, ?covers, ?given, ?first⟩
  case covers =>
    rw [ids]
    exact List.forall_mem_append.2 ⟨kept.covers, List.forall_mem_singleton.2 known⟩
  case given =>
    refine List.forall_mem_map.2 fun b hb => ?_
    obtain ⟨taken, -⟩ | ⟨stays, -⟩ := keptOf_cases e b
    · simp [taken]
    · simp [stays, kept.given b hb]
  case first =>
    refine List.forall_mem_map.2 fun b hb => ?_
    have hb' : b ∈ l ++ [e] := List.mem_append_left _ (kept.given b hb)
    have he : e ∈ l ++ [e] := by simp
    rw [keptOf_id]
    obtain ⟨taken, -, wins⟩ | ⟨stays, loses⟩ := keptOf_cases e b
    · have low : keepRank e ≤ keepRank b := ((ranked e he b hb').1 wins).le
      rw [taken]
      exact List.forall_mem_append.2 ⟨fun x hx same => low.trans (kept.first b hb x hx same),
        List.forall_mem_singleton.2 fun _ => le_rfl⟩
    · rw [stays]
      exact List.forall_mem_append.2 ⟨kept.first b hb,
        List.forall_mem_singleton.2 fun same => (ranked.eq_false_iff he hb').1 (loses same.symm)⟩

/-- The first copy of an ID is kept beside the others. -/
theorem Kept.addNew (kept : Kept l best) (new : e.id ∉ best.map (·.id)) : Kept (l ++ [e]) (best ++ [e]) := by
  have ids : (best ++ [e]).map (·.id) = best.map (·.id) ++ [e.id] := List.map_append
  have apart : ∀ b ∈ best, b.id ≠ e.id := fun b hb same => new (same ▸ List.mem_map_of_mem hb)
  refine ⟨?distinct, ?covers, ?given, ?first⟩
  case distinct =>
    rw [ids]
    exact kept.distinct.append (List.nodup_singleton _) (List.disjoint_singleton.2 new)
  case covers =>
    rw [ids]
    exact List.forall_mem_append.2 ⟨fun x hx => List.mem_append_left _ (kept.covers x hx), by simp⟩
  case given =>
    exact List.forall_mem_append.2 ⟨fun b hb => List.mem_append_left _ (kept.given b hb), by simp⟩
  case first =>
    refine List.forall_mem_append.2 ⟨fun b hb => ?_, List.forall_mem_singleton.2 ?_⟩
    · exact List.forall_mem_append.2 ⟨kept.first b hb, List.forall_mem_singleton.2 fun same => (apart b hb same.symm).elim⟩
    · exact List.forall_mem_append.2 ⟨fun x hx same => (new (same ▸ kept.covers x hx)).elim,
        List.forall_mem_singleton.2 fun _ => le_rfl⟩

/-- A merge keeps what it should of entries whose distances are no NaN. -/
theorem kept_foldl (ranked : RankedBy keepOver keepRank l) : Kept l (l.foldl mergeAdd []) := by
  induction l using List.reverseRecOn with
  | nil => exact ⟨List.nodup_nil, by simp, by simp, by simp⟩
  | append_singleton l e ih =>
    have kept := ih fun a ha b hb => ranked a (List.mem_append_left _ ha) b (List.mem_append_left _ hb)
    have last : (l ++ [e]).foldl mergeAdd [] = mergeAdd (l.foldl mergeAdd []) e := List.foldl_concat ..
    by_cases known : e.id ∈ (l.foldl mergeAdd []).map (·.id)
    · rw [last, mergeAdd_known known]
      exact kept.addKnown ranked known
    · rw [last, mergeAdd_new known]
      exact kept.addNew known

end Sys2Proof.Machine
end

section
/-!
PROOFS. The record of a row: its fields, the slots of its positions, and its padding (R147).
-/
namespace Sys2Proof.Machine

/-! Little-endian fields (R5). -/

@[simp] theorem length_leBytes (n v : ℕ) : (leBytes n v).length = n := by
  induction n generalizing v with
  | zero => rfl
  | succ n ih => rw [leBytes, List.length_cons, ih]

/-- A number that fits its bytes is read back from them. -/
theorem leNat_leBytes {n v : ℕ} (fits : v < 256 ^ n) : leNat (leBytes n v) = v := by
  induction n generalizing v with
  | zero => simpa [leBytes, leNat, eq_comm] using fits
  | succ n ih =>
    rw [leBytes, leNat, ih (Nat.div_lt_of_lt_mul (by rwa [← pow_succ']))]
    exact Nat.mod_add_div v 256

/-- A field within the first part of a structure is a field of that part. -/
theorem field_append_left {as : List Byte} (bs : List Byte) {off len : ℕ} (within : off + len ≤ as.length) :
    field (as ++ bs) off len = field as off len := by
  rw [field, field, List.drop_append_of_le_length (by omega), List.take_append_of_le_length (by rw [List.length_drop]; omega)]

/-- A field past the first part of a structure is a field of the rest. -/
theorem field_append_right {as : List Byte} {n : ℕ} (part : as.length = n) (bs : List Byte) (off len : ℕ) :
    field (as ++ bs) (n + off) len = field bs off len := by
  subst part
  rw [field, field, List.drop_length_add_append]

/-- A structure that begins with a number reads as it there. -/
theorem field_leBytes_append {n v : ℕ} (fits : v < 256 ^ n) (bs : List Byte) : field (leBytes n v ++ bs) 0 n = v := by
  rw [field_append_left _ (by simp), field, List.drop_zero, List.take_of_length_le (length_leBytes n v).le, leNat_leBytes fits]

/-- The bytes of numbers in a row, four each. -/
def wordBytes (ws : List ℕ) : List Byte := ws.flatMap (leBytes 4)

@[simp] theorem length_wordBytes (ws : List ℕ) : (wordBytes ws).length = 4 * ws.length := by
  induction ws with
  | nil => rfl
  | cons w ws ih => rw [wordBytes, List.flatMap_cons, List.length_append, ← wordBytes, ih, length_leBytes, List.length_cons]; omega

/-- Each number is read back from its own four bytes. -/
theorem field_wordBytes {ws : List ℕ} (fits : ∀ w ∈ ws, w < 2 ^ 32) {i : ℕ} (hi : i < ws.length) :
    field (wordBytes ws) (4 * i) 4 = ws[i] := by
  induction ws generalizing i with
  | nil => cases hi
  | cons w ws ih =>
    obtain ⟨first, rest⟩ := List.forall_mem_cons.1 fits
    rw [wordBytes, List.flatMap_cons, ← wordBytes]
    cases i with
    | zero => exact field_leBytes_append first _
    | succ i =>
      have place : 4 * (i + 1) = 4 + 4 * i := by omega
      rw [place, field_append_right (length_leBytes 4 w)]
      exact ih rest (Nat.lt_of_succ_lt_succ hi)

/-! The record (R147). -/

variable {k count status : ℕ} {poss : List ℕ}

/-- The slots of a record: its positions, and 0xFFFFFFFF in those that no position fills. -/
def recordSlots (k : ℕ) (poss : List ℕ) : List ℕ := poss ++ List.replicate (k - poss.length) 0xFFFFFFFF

/-- A record up to its padding. -/
def recordBody (k count status : ℕ) (poss : List ℕ) : List Byte :=
  leBytes 4 count ++ (leBytes 2 status ++ (zeros 2 ++ wordBytes (recordSlots k poss)))

/-- A record is its body and its padding. -/
theorem selRecord_eq : selRecord k count status poss =
    recordBody k count status poss ++ zeros (selOutStride k - (recordBody k count status poss).length) := by
  simp only [selRecord, recordBody, wordBytes, recordSlots, List.append_assoc]

@[simp] theorem length_zeros (n : ℕ) : (zeros n).length = n := List.length_replicate

/-- A record has `k` slots. -/
theorem length_recordSlots (room : poss.length ≤ k) : (recordSlots k poss).length = k := by
  rw [recordSlots, List.length_append, List.length_replicate]
  omega

/-- The body of a record is its eight bytes of header and four for each slot. -/
theorem length_recordBody (room : poss.length ≤ k) : (recordBody k count status poss).length = 8 + 4 * k := by
  simp only [recordBody, List.length_append, length_leBytes, length_zeros, length_wordBytes, length_recordSlots room]
  omega

/-- A record fills its stride. -/
theorem length_selRecord (room : poss.length ≤ k) : (selRecord k count status poss).length = selOutStride k := by
  rw [selRecord_eq, List.length_append, length_zeros, length_recordBody room, selOutStride]
  omega

/-- A field of a record before its padding is one of its body. -/
theorem field_selRecord (room : poss.length ≤ k) {off len : ℕ} (within : off + len ≤ 8 + 4 * k) :
    field (selRecord k count status poss) off len = field (recordBody k count status poss) off len := by
  rw [selRecord_eq, field_append_left _ ((length_recordBody room).symm ▸ within)]

/-- A record's padding is zero. -/
theorem selRecord_padding (room : poss.length ≤ k) {i : ℕ} (past : 8 + 4 * k ≤ i)
    (inside : i < (selRecord k count status poss).length) : (selRecord k count status poss)[i]? = some 0 := by
  rw [selRecord_eq] at inside ⊢
  rw [List.length_append, length_zeros, length_recordBody room] at inside
  rw [List.getElem?_append_right (by rwa [length_recordBody room]), zeros, List.getElem?_replicate, length_recordBody room,
    if_pos (by omega)]

/-- A slot holds the position of its rank, or 0xFFFFFFFF past the last. -/
theorem getElem_recordSlots {i : ℕ} (hi : i < (recordSlots k poss).length) :
    (recordSlots k poss)[i] = poss.getD i 0xFFFFFFFF := by
  unfold recordSlots at hi ⊢
  obtain h | h := lt_or_ge i poss.length
  · rw [List.getElem_append_left h, List.getD_eq_getElem _ _ h]
  · rw [List.getElem_append_right h, List.getElem_replicate, List.getD_eq_default _ _ h]

/-- A record begins with its COUNT. -/
theorem selRecord_count (room : poss.length ≤ k) (fits : count < 2 ^ 32) : field (selRecord k count status poss) 0 4 = count := by
  rw [field_selRecord room (by omega), recordBody]
  exact field_leBytes_append fits _

/-- ROW_STATUS follows. -/
theorem selRecord_status (room : poss.length ≤ k) (fits : status < 2 ^ 16) :
    field (selRecord k count status poss) 4 2 = status := by
  rw [field_selRecord room (by omega), recordBody]
  exact (field_append_right (length_leBytes 4 count) _ 0 2).trans (field_leBytes_append fits _)

/-- The two bytes after it are reserved. -/
theorem selRecord_reserved (room : poss.length ≤ k) : field (selRecord k count status poss) 6 2 = 0 := by
  rw [field_selRecord room (by omega), recordBody]
  refine (field_append_right (length_leBytes 4 count) _ 2 2).trans ((field_append_right (length_leBytes 2 status) _ 0 2).trans ?_)
  rw [field_append_left _ (length_zeros 2).ge]
  rfl

/-- Each slot holds its position, or 0xFFFFFFFF past the last. -/
theorem selRecord_slot (room : poss.length ≤ k) (fit : ∀ p ∈ poss, p < 2 ^ 32) {i : ℕ} (hi : i < k) :
    field (selRecord k count status poss) (8 + 4 * i) 4 = poss.getD i 0xFFFFFFFF := by
  have place : 8 + 4 * i = 4 + (2 + (2 + 4 * i)) := by omega
  have fits : ∀ w ∈ recordSlots k poss, w < 2 ^ 32 :=
    List.forall_mem_append.2 ⟨fit, fun w hw => by rw [List.eq_of_mem_replicate hw]; decide⟩
  have slot : i < (recordSlots k poss).length := (length_recordSlots room).symm ▸ hi
  rw [field_selRecord room (by omega), recordBody, place, field_append_right (length_leBytes ..),
    field_append_right (length_leBytes ..), field_append_right (length_zeros ..), field_wordBytes fits slot, getElem_recordSlots]

end Sys2Proof.Machine
end

section
/-!
PROOFS. What a row gives: the first of its ranked entries, or the lowest positions that pass (R143, R144, R147–R149, R152–R155).
-/
namespace Sys2Proof.Machine

variable {x : SelCmd} {row : List Byte}

/-- Entries made in the order of their positions stay in it when some are left out. -/
theorem filter_numbered_rise {α : Type} {f : ℕ → α} {pos : α → ℕ} (numbered : ∀ i, pos (f i) = i) (p : α → Bool) (n : ℕ) :
    ((((List.range n).map f).filter p).map pos).Pairwise (· < ·) := by
  have all : ((List.range n).map f).Pairwise fun a b => pos a < pos b :=
    List.pairwise_map.2 (by simpa only [numbered] using List.pairwise_lt_range)
  exact List.pairwise_map.2 (all.filter p)

/-! The valid keys (R143, R144). -/

/-- A valid key is no NaN. -/
theorem not_isNan_of_mem_validKeys {e : Fv × ℕ} (h : e ∈ validKeys x row) : e.1.isNan = false := by
  obtain ⟨-, valid⟩ := List.mem_filter.1 h
  simp only [Bool.and_eq_true, Bool.not_eq_true'] at valid
  obtain ⟨number, -⟩ := valid
  exact number

/-- They stand in the order of their positions. -/
theorem validKeys_rise : ((validKeys x row).map (·.2)).Pairwise (· < ·) :=
  filter_numbered_rise (fun _ => rfl) _ _

/-- Their positions are distinct. -/
theorem validKeys_nodup : ((validKeys x row).map (·.2)).Nodup := validKeys_rise.nodup

/-- `keyBetter` ranks them. -/
theorem validKeys_ranked : RankedBy (keyBetter x.largest) (keyRank x.largest) (validKeys x row) :=
  fun _ ha _ hb => keyBetter_iff (not_isNan_of_mem_validKeys ha) (not_isNan_of_mem_validKeys hb)

/-! The valid entries of a merge (R154, R155). -/

/-- The valid entries of a merge row. -/
def mergeEnts (x : SelCmd) (row : List Byte) : List MergeEnt :=
  ((List.range x.n).map (mergeEnt row)).filter fun e => mergeValid e && (!x.validMap || validBit row x.n 16 e.pos)

/-- The copies that its merge keeps. -/
def keptEnts (x : SelCmd) (row : List Byte) : List MergeEnt := (mergeEnts x row).foldl mergeAdd []

/-- The distance of a valid entry is no NaN. -/
theorem not_isNan_of_mem_mergeEnts {e : MergeEnt} (h : e ∈ mergeEnts x row) : (f32v e.dist).isNan = false := by
  obtain ⟨-, valid⟩ := List.mem_filter.1 h
  simp only [mergeValid, Bool.and_eq_true, Bool.not_eq_true'] at valid
  obtain ⟨⟨-, number⟩, -⟩ := valid
  exact number

/-- The valid entries have positions of their own. -/
theorem mergeEnts_nodup : ((mergeEnts x row).map (·.pos)).Nodup :=
  (filter_numbered_rise (fun _ => rfl) _ _).nodup

/-- `keepOver` ranks them. -/
theorem mergeEnts_ranked : RankedBy keepOver keepRank (mergeEnts x row) :=
  fun _ ha _ hb => keepOver_iff (not_isNan_of_mem_mergeEnts ha) (not_isNan_of_mem_mergeEnts hb)

/-- A merge keeps what R155 says of them. -/
theorem keptEnts_kept : Kept (mergeEnts x row) (keptEnts x row) := kept_foldl mergeEnts_ranked

/-- The kept copies have positions of their own. -/
theorem keptEnts_nodup : ((keptEnts x row).map (·.pos)).Nodup :=
  keptEnts_kept.distinct.of_map.map_on fun _ ha _ hb same =>
    List.inj_on_of_nodup_map mergeEnts_nodup (keptEnts_kept.given _ ha) (keptEnts_kept.given _ hb) same

/-- `keyBetter` ranks the kept copies. -/
theorem keptEnts_ranked :
    RankedBy (fun a b => keyBetter false (distKey a) (distKey b)) (keyRank false ∘ distKey) (keptEnts x row) :=
  fun _ ha _ hb => keyBetter_iff (not_isNan_of_mem_mergeEnts (keptEnts_kept.given _ ha))
    (not_isNan_of_mem_mergeEnts (keptEnts_kept.given _ hb))

/-! Rows. -/

/-- What a row of SELECT_TOPK gives of its entries, ranked by `lt`, each at its position (R147–R149). -/
def rankedOut {α : Type} (lt : α → α → Bool) (pos : α → ℕ) (k dups : ℕ) (xs : List α) : RowOut where
  count := min k xs.length
  status := if xs.length < k then stPartial else stOk
  poss := (firstBy lt k xs).map pos
  dups := dups

/-- COUNT and ROW_STATUS follow from the positions. -/
theorem rankedOut_eq {α : Type} (lt : α → α → Bool) (pos : α → ℕ) (k dups : ℕ) (xs : List α) :
    let best := (firstBy lt k xs).map pos
    rankedOut lt pos k dups xs =
      { count := best.length, status := if best.length < k then stPartial else stOk, poss := best, dups := dups } := by
  simp only [rankedOut, List.length_map, length_firstBy_lt, ← length_firstBy (lt := lt)]

/-- A row that is no merge gives the first of its valid keys (R148). -/
theorem runRow_topk (top : x.threshold = false) (single : x.merge = false) :
    runRow x row = rankedOut (keyBetter x.largest) (·.2) x.k 0 (validKeys x row) := by
  simp only [rankedOut_eq, runRow, top, single, Bool.false_eq_true, if_false]
  rfl

/-- A merge gives the first of the kept copies (R155). -/
theorem runRow_merge (top : x.threshold = false) (merge : x.merge = true) :
    runRow x row = rankedOut (fun a b => keyBetter false (distKey a) (distKey b)) (·.pos) x.k
      ((mergeEnts x row).length - (keptEnts x row).length) (keptEnts x row) := by
  rw [rankedOut_eq, ← (sortBy_perm (fun a b => keyBetter false (distKey a) (distKey b)) (keptEnts x row)).length_eq]
  simp only [runRow, top, merge, Bool.false_eq_true, if_false, if_true]
  rfl

/-- Settles O25: a row gives the first of its ranked entries by `firstBy` and its lemmas; of a merge those that `Kept` says; a
threshold row the start of the valid keys that pass; and a record by the `selRecord` lemmas. -/
theorem selectionRowsGiveTheirPositions : Obligations.SelectionRowsGiveTheirPositions := by
  unfold Obligations.SelectionRowsGiveTheirPositions
  refine ⟨?topk, ?merge, ?threshold, ?record⟩
  case topk =>
    intro x row top single valid o
    have out : o = rankedOut (keyBetter x.largest) (·.2) x.k 0 valid := runRow_topk top single
    rw [out]
    refine ⟨rfl, (List.length_map _).trans length_firstBy, rfl, firstBy_positions_nodup validKeys_nodup, ?ranked, ?best⟩
    case ranked => exact ⟨firstBy _ x.k valid, rfl, fun e => mem_of_mem_firstBy, firstBy_inOrder validKeys_ranked⟩
    case best => exact fun e he e' he' => firstBy_positions_leaveNoBetter validKeys_nodup validKeys_ranked he he'
  case merge =>
    intro x row top merge valid kept key o
    have keeps : Kept valid kept := keptEnts_kept
    have out : o = rankedOut (fun a b => keyBetter false (key a) (key b)) (·.pos) x.k (valid.length - kept.length) kept :=
      runRow_merge top merge
    rw [out]
    refine ⟨rfl, (List.length_map _).trans length_firstBy, rfl, firstBy_positions_nodup keptEnts_nodup, keeps.distinct,
      keeps.covers, ?first, ?ranked, ?best⟩
    case first =>
      exact fun e he => ⟨keeps.given e he, fun e' he' same =>
        (mergeEnts_ranked.eq_false_iff he' (keeps.given e he)).2 (keeps.first e he e' he' same)⟩
    case ranked => exact ⟨firstBy _ x.k kept, rfl, fun e => mem_of_mem_firstBy, firstBy_inOrder keptEnts_ranked⟩
    case best => exact fun e he e' he' => firstBy_positions_leaveNoBetter keptEnts_nodup keptEnts_ranked he he'
  case threshold =>
    intro x row threshold pass o
    have out : o = { count := (pass.map (·.2)).length, status := if x.k < (pass.map (·.2)).length then stOverflow else stOk,
                     poss := (pass.map (·.2)).take x.k, dups := 0 } := if_pos threshold
    rw [out, List.length_map]
    exact ⟨rfl, rfl, rfl, validKeys_rise.sublist (List.filter_sublist.map _)⟩
  case record =>
    intro k count status poss room countFits statusFits posFit r
    exact ⟨length_selRecord room, selRecord_count room countFits, selRecord_status room statusFits, selRecord_reserved room,
      fun i => selRecord_slot room posFit, fun i => selRecord_padding room⟩

end Sys2Proof.Machine
end

section
/-!
PROOFS. Selection commands: their start, the rows they queue, and the refusals that need no input (R137, R138, R145–R147, R151,
R157).
-/
namespace Sys2Proof.Machine

variable {op : ℕ} {c : CmdRef} {d : CmdIn} {k : Cmd} {ps inp : List Byte} {s : State}

/-- A due command that the checks before its input refuse, with a status that the fabric does not count, completes with it. -/
theorem next_beginWith_early {form : List Byte → Bool} {early : Cmd → List Byte → State → Verdict}
    {check : Cmd → List Byte → List Byte → State → Verdict} {act : Cmd → List Byte → List Byte → State → State} {st : ℕ}
    (due : Due op form c d k ps inp s) (refused : early k ps s = .fail st 0) (uncounted : countTurned k st s = s) :
    (.next (beginWith op form early c d check act s) : Host.Outcome State Fault Refusal) = .next (complete c st 0 0 [] s) := by
  rw [beginWith_due due, refused, settleVerdict, uncounted, findCmd_ref due.found]

/-- NO_RESOURCE is none of the statuses that the fabric counts (R390). -/
theorem countTurned_noResource : countTurned k stNoResource s = s := by
  unfold countTurned
  cases k.queue.scope <;> rfl

/-- Two checks in turn refuse with the status of the second where it fails and the first does not. -/
theorem firstFail_second {bad bad' : Bool} {st st' : ℕ} (first : firstFail [(bad, st), (bad', st')] ≠ .fail st 0)
    (second : bad' = true) : firstFail [(bad, st), (bad', st')] = .fail st' 0 := by
  cases bad with
  | true => exact absurd rfl first
  | false => rw [second]; rfl

/-- No command selector serves where none of the sixteen does. -/
theorem unserved_of_none (none : ∀ n, n < 16 → servesRows n s = false) : (!(List.range 16).any fun n => servesRows n s) = true := by
  simpa using none

/-- SELECT_TOPK out of its ranges is refused (R145). -/
theorem topkCheck_outOfRange (bad : field ps 0 4 < 1 ∨ 1048576 < field ps 0 4 ∨ field ps 4 2 < 1 ∨ 4096 < field ps 4 2 ∨
    field ps 6 2 < 1 ∨ 4096 < field ps 6 2 ∨ 4 < field ps 8 1) : topkCheck k ps inp s = .fail stBadParam 0 := by
  refine if_pos ?_
  simp only [Bool.or_eq_true, decide_eq_true_eq]
  tauto

/-- SELECT_THRESHOLD out of its ranges is refused (R151). -/
theorem thresholdCheck_outOfRange (bad : field ps 0 4 < 1 ∨ 1048576 < field ps 0 4 ∨ field ps 4 2 < 1 ∨ 4096 < field ps 4 2 ∨
    field ps 12 4 < 1 ∨ 1048576 < field ps 12 4 ∨ 4 < field ps 6 1 ∨ 3 < field ps 7 1) :
    thresholdCheck k ps inp s = .fail stBadParam 0 := by
  refine if_pos ?_
  simp only [Bool.or_eq_true, decide_eq_true_eq]
  tauto

/-- Settles O23: both commands start as one; their checks do not use the input, so what refuses them does so before it is read. -/
theorem selectionsQueueTheirRows : Obligations.SelectionsQueueTheirRows := by
  unfold Obligations.SelectionsQueueTheirRows
  intro c d k ps inp s t queued
  refine ⟨fun due => ⟨?topk, ?topkRange, ?topkNone⟩, fun due => ⟨?threshold, ?thresholdRange, ?thresholdNone⟩⟩
  case topk => exact fun go => next_beginWith due go go rfl
  case topkRange => exact fun bad => next_beginWith_early due (topkCheck_outOfRange bad) countTurned_badParam
  case topkNone =>
    exact fun fits none => next_beginWith_early due (firstFail_second fits (unserved_of_none none)) countTurned_noResource
  case threshold => exact fun go => next_beginWith due go go rfl
  case thresholdRange => exact fun bad => next_beginWith_early due (thresholdCheck_outOfRange bad) countTurned_badParam
  case thresholdNone =>
    exact fun fits none => next_beginWith_early due (firstFail_second fits (unserved_of_none none)) countTurned_noResource

end Sys2Proof.Machine
end

section
/-!
PROOFS. Rows on selectors: the row that a selector takes, and what a row that has run makes of its command (R137, R138, R147, R153,
R157, R278).
-/
namespace Sys2Proof.Machine

variable {sel started : ℕ} {r : SelRow} {x : SelCmd} {k : Cmd} {s t : State}

/-- A free selector that serves command rows, and for which no search selection waits, takes the next row (R137, R138). -/
theorem takeRow_next (free : tget? s.sel.busy sel = none) (serves : servesRows sel s = true) (unclaimed : searchWaits sel s = false)
    (next : nextRow s = some r) : takeRow sel s = some (r, timeUs s,
      onSel (fun y => { y with queue := y.queue.erase r, turn := (r.part + 1) % 64 }) s) := by
  simp only [takeRow, free, serves, unclaimed, next, Bool.not_true, Bool.or_self, Bool.false_eq_true, if_false, Option.map_some]

section
variable (serving : outOfService .selector sel s = false) (awake : unitAwake .selector sel s = true)
  (takes : takeRow sel s = some (r, started, t)) (ok : Bool)
include serving awake takes

/-- A powered selector in service is busy with the row that it takes (R138). -/
theorem selectorRow_begins (sram : EccOutcome) : selectorRow sel true sram ok s =
    onSel (fun x => { x with busy := tput x.busy sel (.row r started) }) t := by
  simp [selectorRow, serving, awake, takes]

/-- It runs the row from its staged input. -/
theorem selectorRow_runs : selectorRow sel false .clean ok s = runOut r started ok t := by
  simp [selectorRow, serving, awake, takes]

/-- A row whose staged input is lost is not run (R157). -/
theorem selectorRow_loses : selectorRow sel false .uncorrectable ok s = stagingLost sel r t := by
  simp [selectorRow, serving, awake, takes]

end

/-! A row of a selection command (R147, R150, R153, R160). -/

/-- What a row of a selection command gives, from its part of the staged input (R146). -/
def rowOut (r : SelRow) (x : SelCmd) : RowOut :=
  let is := selInStride x.n (rowWidth x.merge x.keyType) x.validMap
  runRow x ((x.input.drop (r.row * is)).take is)

/-- The record of the row (R147). -/
def rowRecord (r : SelRow) (x : SelCmd) : List Byte := selRecord x.k (rowOut r x).count (rowOut r x).status (rowOut r x).poss

/-- The command with the row's record. -/
def withRecord (r : SelRow) (x : SelCmd) : SelCmd := { x with
  recs := tput x.recs r.row (rowRecord r x), total := x.total + (rowOut r x).count,
  flagged := x.flagged || (rowOut r x).status != stOk }

/-- The state in which the row is counted and its record sent to the result buffer. -/
def rowSent (r : SelRow) (x : SelCmd) (k : Cmd) (started : ℕ) (s : State) : State :=
  let counted := countSelRow r x started (rowOut r x) s
  sendToHost k (resultItems k (k.resultPtr + r.row * selOutStride x.k) (rowRecord r x) counted) false counted

/-- Counting a row changes no command. -/
@[simp] theorem findCmd_countSelRow (c : CmdRef) (o : RowOut) : findCmd c (countSelRow r x started o s) = findCmd c s := rfl

section
variable (found : findCmd x.ref s = some k)
include found

/-- A row before the last leaves its record with its command (R147). -/
theorem finishRow_more (more : (withRecord r x).recs.length ≠ x.rows) : finishRow r x started true s =
    onSel (fun y => { y with cmds := y.cmds.map fun z => if z.ref == x.ref then withRecord r x else z })
      (rowSent r x k started s) := by
  simp only [finishRow, findCmd_countSelRow, found]
  exact if_neg more

/-- The last row also completes its command (R150, R153). -/
theorem finishRow_last (last : (withRecord r x).recs.length = x.rows) : finishRow r x started true s =
    completeWith x.ref (if (withRecord r x).flagged then if x.threshold then stOverflow else stPartial else stOk)
      (withRecord r x).total 0 (x.rows * selOutStride x.k) [] (dropSelect x.ref (rowSent r x k started s)) := by
  simp only [finishRow, findCmd_countSelRow, found]
  exact if_pos last

end

/-- A row of a selection command is finished as one. -/
theorem runOut_command (select : r.layer = none) (found : s.sel.cmds.find? (·.ref == r.ref) = some x) (ok : Bool) :
    runOut r started ok s = finishRow r x started ok s := by
  simp only [runOut, select, found]

/-- A row of a SELECT layer keeps its picks for the end of the step (R278). -/
theorem runOut_layer {i : ℕ} {y : Run} {m : Model} {a : Act} (layer : r.layer = some i) (run : getModelRun r.ref s = some y)
    (model : getModel y.handle s = some m) (input : layerInput y m (layerAt m i) = some a) (ok : Bool) : runOut r started ok s =
      onStep r.ref i (fun st => { st with picks := tput st.picks r.row (pickRow a (layerAt m i).selK r.row) }) s := by
  simp only [runOut, layer, finishPick, run, model, input]

/-- Settles O24: a selector takes the next row by `takeRow_next`, goes on with it by the `selectorRow` lemmas, and a row that has
run is finished with its command, or kept for its layer. -/
theorem selectorsRunRowsInTurn : Obligations.SelectorsRunRowsInTurn := by
  unfold Obligations.SelectorsRunRowsInTurn
  refine ⟨?takes, ?goesOn, ?command, ?layer⟩
  case takes => exact fun sel r s _ _ free serves unclaimed next => takeRow_next free serves unclaimed next
  case goesOn =>
    intro sel started r s t serving awake takes
    have row {mid : Bool} {sram : EccOutcome} {ok : Bool} {u : State} (h : selectorRow sel mid sram ok s = u) :
        exec (.selectorRow sel mid sram ok) s = .next u := congrArg Host.Outcome.next h
    exact ⟨fun sram ok => row (selectorRow_begins serving awake takes ok sram),
      fun ok => row (selectorRow_runs serving awake takes ok), fun ok => row (selectorRow_loses serving awake takes ok)⟩
  case command =>
    intro started r x k s select command found is o rs record counted sent x'
    exact ⟨fun more => (runOut_command select command true).trans (finishRow_more found more),
      fun last => (runOut_command select command true).trans (finishRow_last found last)⟩
  case layer => exact fun started i ok r y m a s layer run model input => runOut_layer layer run model input ok

end Sys2Proof.Machine
end

section
/-!
PROOFS. Mutations: how the items of an INSERT or UPSERT are built into a group, and what ends the command without one (R87, R163,
R168–R174, R176).
-/
namespace Sys2Proof.Machine

variable {ups : Bool} {k : Cmd} {d : CmdIn} {ps inp : List Byte} {ix : Index} {s u : State}

/-- The items of an INSERT or UPSERT encoded, placed and linked in order (R171–R173), or why one could not be. -/
def builtItems (ups : Bool) (k : Cmd) (d : CmdIn) (ps inp : List Byte) (ix : Index) (s : State) :
    Except BuildFail (Index × List NewNode) :=
  (itemsOf ix.desc (field ps 0 2) inp).foldl (buildItem k.handle ix.curBook (if field ps 2 2 = 0 then 64 else field ps 2 2) ups
    (bit (field ps 4 1) 1) (bit (field ps 4 1) 2) (reservedSlots k.handle s) (crateLost ix d.linkCrate d.linkRead)) (.ok (ix, []))

/-- The group that a mutation hands over: it is bound to the current generation (R171). -/
def mutationGroup (ups : Bool) (k : Cmd) (ps : List Byte) (ix : Index) (nodes : List NewNode) (ids : List Nat) (s : State) : Group where
  id := 0
  ref := k.ref
  part := cmdPart k
  handle := k.handle
  upsert := ups
  durable := bit (field ps 4 1) 0
  items := nodes
  deletes := ids
  gen := ix.curGen
  buildEnd := timeUs s

/-- Items that were all placed and linked make a group for publication, in their order (R162, R163). -/
theorem buildGroup_placed {work : Index} {nodes : List NewNode} (built : builtItems ups k d ps inp ix s = .ok (work, nodes)) :
    buildGroup ups k d ps inp ix s = addGroup (mutationGroup ups k ps ix nodes [] s) s := by
  unfold builtItems at built
  simp only [buildGroup, built, mutationGroup]

/-- An item without a slot ends the command with its status (R172). -/
theorem buildGroup_unplaced {st : Nat} (built : builtItems ups k d ps inp ix s = .error (.status st)) :
    buildGroup ups k d ps inp ix s = completeSt k.ref st s := by
  unfold builtItems at built
  simp only [buildGroup, built]

/-- The state in which a lost crate is noted: a failed check stays with the crate (R87). -/
def crateLossNoted (h crate : Nat) (how : ReadOutcome) (s : State) : State :=
  if how = .checkFail then markFailed h crate s else s

/-- A lost crate that a linking search needs ends the command with the crate's record (R87, R173). -/
theorem buildGroup_crateLost {crate : Nat} (built : builtItems ups k d ps inp ix s = .error (.crate crate)) :
    let how := lostAs ix d.linkCrate d.linkRead crate
    let v := crateLossNoted k.handle crate how s
    buildGroup ups k d ps inp ix s = failCmd k.ref (crateRec how (cmdPart k) (ix.crateBase + crate) v) v := by
  unfold builtItems at built
  simp only [buildGroup, built, crateLossNoted]

section
variable (index : getIndex k.handle s = some ix)
include index

/-- A DRAM codeword that the linking searches need and that is lost ends the command (R475). -/
theorem beginInsert_lost {seq : Nat} {dropped : Bool} (lost : dramRead (some k) d.ecc d.place s = (u, some (seq, dropped))) :
    beginInsert ups d k ps inp s = completeRec k.ref stUncorrectable 0 seq dropped u := by
  simp only [beginInsert, index, lost]

/-- With none lost the group is built (R173). -/
theorem beginInsert_builds (whole : dramRead (some k) d.ecc d.place s = (u, none)) :
    beginInsert ups d k ps inp s = buildGroup ups k d ps inp ix u := by
  simp only [beginInsert, index, whole]

/-- A DELETE hands over a group of the IDs in input order (R176). -/
theorem beginDelete_group : beginDelete k ps inp s =
    addGroup (mutationGroup false k ps ix [] ((List.range (field ps 0 2)).map fun i => field inp (8 * i) 8) s) s := by
  simp only [beginDelete, index, mutationGroup]

end

/-- Settles O18: the DRAM read decides first, then what the build of the items makes; a DELETE has nothing to build. -/
theorem mutationsHandOverGroups : Obligations.MutationsHandOverGroups := by
  unfold Obligations.MutationsHandOverGroups
  intro c d k ps inp ix s t add mk index
  have index' : getIndex k.handle t = some ix := (getIndex_running _).trans index
  refine ⟨?inserts, fun due go => next_begin due go (beginDelete_group index')⟩
  case inserts =>
    intro ups due go row l read u lost built
    have begins {v : State} (h : beginInsert ups d k ps inp t = v) : exec row s = .next v := by
      cases ups <;> exact next_begin due go h
    have builds {v : State} (whole : read.2 = none) (h : buildGroup ups k d ps inp ix u = v) : exec row s = .next v :=
      begins ((beginInsert_builds index' (Prod.ext rfl whole)).trans h)
    exact ⟨fun seq dropped gone => begins (beginInsert_lost index' (Prod.ext rfl gone)),
      fun work nodes whole made => builds whole (buildGroup_placed made),
      fun st whole failed => builds whole (buildGroup_unplaced failed),
      fun crate whole failed => builds whole (buildGroup_crateLost failed)⟩

end Sys2Proof.Machine
end

section
/-!
PROOFS. Generations and mounts: what a swap makes of an index and its metadata record, and what a mount starts (R101, R181, R184–R186).
-/
namespace Sys2Proof.Machine

variable {k : Cmd} {ps inp : List Byte} {h : Nat} {ix : Index} {s : State}

/-- A swap of an index: the generations exchanged, and what is kept and published of the index changed with them (R185). -/
theorem beginSwap_swaps (index : getIndex k.handle s = some ix) : beginSwap k ps inp s =
    complete k.ref stOk 0 (field ps 0 4 + ix.curGen * 2 ^ 32) [] (onCmd k.ref (fun k => { k with committed := true })
      (onMut (fun m => { m with published := m.published.map fun p =>
          if p.handle == k.handle then { p with index := { p.index with curGen := field ps 0 4, curBook := bookBytes inp } } else p })
        (writeMeta (metaBytes ix.desc)
          (onKept k.handle (fun x => { x with curGen := field ps 0 4, curBook := bookBytes inp })
            (onIndex k.handle (swapIndex (field ps 0 4) (bookBytes inp)) s))))) := by
  simp only [beginSwap, index]

section
variable (gen : Nat) (book : List W16)

/-- A former generation that nothing refers to is gone at once (R186). -/
theorem swapIndex_unreferenced (unused : ix.curRefs = 0) : swapIndex gen book ix =
    { ix with oldGen := 0, oldBook := [], oldRefs := ix.curRefs, curGen := gen, curBook := book, curRefs := 0 } := by
  simp only [swapIndex, dropOldGen, unused, if_true]

/-- One that something refers to stays as OLD_GEN, with its codebook and its references (R185, R186). -/
theorem swapIndex_referenced (used : ix.curRefs ≠ 0) : swapIndex gen book ix =
    { ix with oldGen := ix.curGen, oldBook := ix.curBook, oldRefs := ix.curRefs, curGen := gen, curBook := book, curRefs := 0 } := by
  simp only [swapIndex, dropOldGen, used, if_false]

end

/-- The mount of an index that waits for it looks at the repair trigger (R101, R181). -/
theorem indexMount_mounts (index : getIndex h s = some ix) (waits : ix.mounting = true) :
    indexMount h s = triggerPass (onIndex h mountIndex s) h := by
  simp only [indexMount, index, waits, if_true]

/-- Settles O21: the swap by `beginSwap_swaps`; its generations by whether anything refers to the former one; the mount by
`indexMount_mounts`. -/
theorem generationsSwapAndIndexesMount : Obligations.GenerationsSwapAndIndexesMount := by
  unfold Obligations.GenerationsSwapAndIndexesMount
  refine ⟨?swap, ?generations, fun h ix s index waits => ⟨congrArg Host.Outcome.next (indexMount_mounts index waits), rfl⟩⟩
  case swap =>
    intro c d k ps inp ix s due go index gen book t
    exact next_begin due go (beginSwap_swaps ((getIndex_running _).trans index))
  case generations =>
    intro ix gen book
    by_cases used : ix.curRefs = 0
    · rw [swapIndex_unreferenced gen book used]
      exact ⟨rfl, rfl, rfl, fun _ => rfl, fun referenced => absurd used referenced⟩
    · rw [swapIndex_referenced gen book used]
      exact ⟨rfl, rfl, rfl, fun unused => absurd unused used, fun _ => ⟨rfl, rfl, rfl⟩⟩

end Sys2Proof.Machine
end

section
/-!
PROOFS. Write-back and repair: the lazy crates, the start of a pass, and what a sweep makes of its crate (R87, R178, R180–R183, R189,
R190).
-/
namespace Sys2Proof.Machine

variable {f : Fn} {v h crate : Nat} {read : ReadOutcome} {rest : List Nat} {ix : Index} {s : State}

/-- A crate on the lazy list leaves it and is written (R178). -/
theorem crateWriteback_lazy (index : getIndex h s = some ix) (waits : s.grp.lazy.contains (h, crate) = true) :
    crateWriteback h crate s = writeCrate h (crateOf ix crate).csn ix
      (onMut (fun m => { m with lazy := m.lazy.filter (· != (h, crate)) }) s) crate := by
  simp only [crateWriteback, index, waits, if_true]

/-! The start of a pass (R181, R189). -/

/-- WLK_REPAIR's HANDLE as a write leaves it. -/
def repairNamed (v : Nat) (s : State) : State := onMut (fun m => { m with repairHandle := bits v 15 0 }) s

@[simp] theorem getIndex_repairNamed : getIndex h (repairNamed v s) = getIndex h s := rfl

/-- A write of WLK_REPAIR by a PF with START set comes to the register. -/
theorem repairStart_reaches {w : W32} (pf : f.vf = 0) (reaches : Reaches f 0x70000C s) (start : bit w.toNat 31 = true) :
    exec (.repairStart f w) s = .next (writeRepair f w.toNat s) := by
  refine congrArg Host.Outcome.next ?_
  rw [if_pos ⟨pf, start⟩, writeAt_reaches reaches]

section
variable (start : bit v 31 = true)
include start

/-- START starts a pass of an index that exists. -/
theorem writeRepair_starts (index : (getIndex (bits v 15 0) s).isSome = true) :
    writeRepair f v s = startPass (bits v 15 0) (repairNamed v s) := by
  have index' : (getIndex (bits v 15 0) (repairNamed v s)).isSome = true := by rwa [getIndex_repairNamed]
  unfold repairNamed at index' ⊢
  simp only [writeRepair, start, index', if_true]

/-- For any other HANDLE it is discarded with BAD_VALUE. -/
theorem writeRepair_refused (none : getIndex (bits v 15 0) s = none) :
    writeRepair f v s = fileBadValue f 0 0x70000C 0xFF 0xFF (repairNamed v s) := by
  have none' : getIndex (bits v 15 0) (repairNamed v s) = .none := by rwa [getIndex_repairNamed]
  unfold repairNamed at none' ⊢
  simp only [writeRepair, start, none', if_true, Option.isSome_none, Bool.false_eq_true, if_false]

end

/-- A mounted index whose DEAD slots exceed the trigger starts a pass by itself. -/
theorem triggerPass_due (index : getIndex h s = some ix) (mounted : ix.mounting = false) (on : s.grp.repairTrigger ≠ 0)
    (due : s.grp.repairTrigger * liveCount ix < 1000 * deadCount ix) : triggerPass s h = startPass h s := by
  simp [triggerPass, index, mounted, on, due]

/-! The sweep of a crate (R182). -/

/-- The settled DEAD slots of the crate that the pass comes to. -/
def sweptDead (h : Nat) (ix : Index) (s : State) : List Nat := settledDead ix (oldestSnap h ix s) s.grp.sweepAt

/-- The crates that a repair group of the swept crate rewrites. -/
def sweptCrates (h : Nat) (ix : Index) (s : State) : List Nat :=
  repairCrates ix s.grp.sweepAt (sweptDead h ix s) ((s.grp.sweepRewrite.filter (·.1 == h)).map (·.2))

/-- The swept crate noted for a later repair group of the pass, where it has stale edges. -/
def staleNoted (h : Nat) (ix : Index) (s : State) : State :=
  if 0 < droppedEdges ix (oldestSnap h ix s) (crateOf ix s.grp.sweepAt)
  then onMut (fun m => { m with sweepRewrite := m.sweepRewrite ++ [(h, s.grp.sweepAt)] }) s else s

section
variable (pass : s.grp.passes = h :: rest) (index : getIndex h s = some ix) (mounted : ix.mounting = false)
include pass index mounted

/-- A swept crate that is lost fails its sweep (R87). -/
theorem sweepCrate_lost (lost : crateLost ix crate read s.grp.sweepAt = true) :
    sweepCrate crate read s = sweepFails h ix s.grp.sweepAt (lostAs ix crate read s.grp.sweepAt) s := by
  simp [sweepCrate, pass, index, mounted, lost]

variable (sound : crateLost ix crate read s.grp.sweepAt = false)
include sound

/-- A crate without settled DEAD slots is stepped over, noted where it has stale edges. -/
theorem sweepCrate_stepsOver (none : sweptDead h ix s = []) : sweepCrate crate read s = sweepNext h ix (staleNoted h ix s) := by
  unfold sweptDead at none
  simp [sweepCrate, pass, index, mounted, sound, none, staleNoted]

variable (dead : sweptDead h ix s ≠ [])
include dead

/-- A lost crate that the repair group must rewrite fails the sweep (R87). -/
theorem sweepCrate_rewriteLost {b : Nat} (lost : (sweptCrates h ix s).find? (crateLost ix crate read) = some b) :
    sweepCrate crate read s = sweepFails h ix b (lostAs ix crate read b) s := by
  unfold sweptCrates at lost
  unfold sweptDead at lost dead
  simp [sweepCrate, pass, index, mounted, sound, dead, lost]

/-- A group that waits for no other and has room in the ring publishes (R163, R167). -/
theorem sweepCrate_publishes (whole : (sweptCrates h ix s).find? (crateLost ix crate read) = none)
    (turn : s.grp.groups.any (·.handle == h) = false) (room : ringRoom ix (oldestSnap h ix s) (sweptDead h ix s).length = true) :
    sweepCrate crate read s =
      sweepNext h ix (publishRepair h ix (oldestSnap h ix s) (sweptDead h ix s) (sweptCrates h ix s) s) := by
  unfold sweptCrates at whole ⊢
  unfold sweptDead at whole room dead ⊢
  simp only [sweepCrate, pass, index, mounted, sound, List.isEmpty_iff, dead, whole, turn, room, Bool.not_true, Bool.or_self,
    Bool.false_eq_true, if_false]

end

/-- Settles O22: the write-back and the start of a pass by their lemmas; in a sweep the swept crate's image decides first, then its
settled DEAD slots, then the crates to rewrite. -/
theorem repairSweepsTheCrates : Obligations.RepairSweepsTheCrates := by
  unfold Obligations.RepairSweepsTheCrates
  refine ⟨?writeback, ?start, ?sweep, fun h ix s index mounted on due => triggerPass_due index mounted on due⟩
  case writeback => exact fun h crate ix s index waits => congrArg Host.Outcome.next (crateWriteback_lazy index waits)
  case start =>
    intro f v s pf reaches start h t
    have start' : bit v.toNat 31 = true := (bit_toNat v 31).trans start
    rw [repairStart_reaches pf reaches start']
    exact ⟨fun index => congrArg Host.Outcome.next (writeRepair_starts start' index),
      fun none => congrArg Host.Outcome.next (writeRepair_refused start' none)⟩
  case sweep =>
    intro h crate read rest ix s pass index mounted c oldest xs crates lost
    have sweep {t : State} (e : sweepCrate crate read s = t) : exec (.repairCrateSweep crate read) s = .next t :=
      congrArg Host.Outcome.next e
    refine ⟨fun sound dead whole turn room => sweep (sweepCrate_publishes pass index mounted sound dead whole turn room),
      fun sound none => sweep (sweepCrate_stepsOver pass index mounted sound none), ?_⟩
    rintro b (⟨swept, rfl⟩ | ⟨sound, dead, rewrite⟩)
    · exact sweep (sweepCrate_lost pass index mounted swept)
    · exact sweep (sweepCrate_rewriteLost pass index mounted sound dead rewrite)

end Sys2Proof.Machine
end

section
/-!
PROOFS. The stall instruction set up to its accumulators: the registers of a job, and what control, scalar, lane and accumulator
instructions make of them (R198, R202–R206, R213, R251, R263).
-/
namespace Sys2Proof.Machine

variable {n opc sd sa sb imm d r i : ℕ} {fields : List (ℕ × ℕ × ℕ)} {reads : List (RegClass × ℕ)}
  {words : List ℕ} {j : Job} {s : State}

/-! The registers of a job (R198). -/

section
variable {x : W32} {v : List W16} {a : List W32}

@[simp] theorem readS_zero : readS j 0 = 0 := rfl
@[simp] theorem writeS_zero : writeS 0 x j = j := rfl

/-- A write of any other S register sets its word and overtakes the loads into it. -/
theorem writeS_pos (pos : 0 < r) : writeS r x j = { j with s := j.s.set r x, loads := overtake .s r j.loads } :=
  if_neg pos.ne'

theorem readS_writeS_same (pos : 0 < r) (has : r < j.s.length) : readS (writeS r x j) r = x := by
  rw [writeS_pos pos, readS, if_neg pos.ne']
  simp [has]

theorem readV_writeV_same (has : r < j.v.length) : readV (writeV r v j) r = v := by
  simp [readV, writeV, has]

theorem readA_writeA_same (has : r < j.a.length) : readA (writeA r a j) r = a.map (·.toNat) := by
  simp [readA, writeA, has]

theorem readS_writeS_ne (ne : i ≠ r) : readS (writeS r x j) i = readS j i := by
  rcases Nat.eq_zero_or_pos r with rfl | pos
  · rw [writeS_zero]
  · simp [writeS_pos pos, readS, List.getElem?_set_ne ne.symm]

theorem readV_writeV_ne (ne : i ≠ r) : readV (writeV r v j) i = readV j i := by
  simp [readV, writeV, List.getElem?_set_ne ne.symm]

theorem readA_writeA_ne (ne : i ≠ r) : readA (writeA r a j) i = readA j i := by
  simp [readA, writeA, List.getElem?_set_ne ne.symm]

@[simp] theorem readV_writeS : readV (writeS r x j) i = readV j i := by
  unfold writeS; split <;> rfl
@[simp] theorem readA_writeS : readA (writeS r x j) i = readA j i := by
  unfold writeS; split <;> rfl
@[simp] theorem readS_writeV : readS (writeV r v j) i = readS j i := rfl
@[simp] theorem readA_writeV : readA (writeV r v j) i = readA j i := rfl
@[simp] theorem readS_writeA : readS (writeA r a j) i = readS j i := rfl
@[simp] theorem readV_writeA : readV (writeA r a j) i = readV j i := rfl

/-- Settles O28: the reads of a written file by whether the register is the one written, of another file by the file. -/
theorem stallRegistersAreSeparate : Obligations.StallRegistersAreSeparate := by
  unfold Obligations.StallRegistersAreSeparate
  intro j r x v a
  refine ⟨readS_zero, writeS_zero, readS_writeS_same, readV_writeV_same, readA_writeA_same,
    fun i ne => ⟨readS_writeS_ne ne, readV_writeV_ne ne, readA_writeA_ne ne⟩,
    fun i => ⟨readV_writeS, readA_writeS, readS_writeV, readA_writeV, readS_writeA, readV_writeA⟩, ?_⟩
  rintro k (rfl | rfl | rfl)
  · rcases Nat.eq_zero_or_pos r with rfl | pos
    · simp only [writeS_zero, and_self]
    · simp only [writeS_pos pos, and_self]
  · exact ⟨rfl, rfl, rfl, rfl, rfl, rfl, rfl⟩
  · exact ⟨rfl, rfl, rfl, rfl, rfl, rfl, rfl⟩

end

/-! Control and scalar instructions. -/

/-- An instruction that changes its job alone (R202). -/
theorem next_onRegs (h : Issuing n opc fields reads words j s) (f : Job → Job) :
    (.next (issue n opc fields reads (onRegs f) s) : Host.Outcome State Fault Refusal) =
      .next (withJob n (f (advanced words j)) s) := next_issue h rfl

/-- Settles O26: each instruction changes its job alone, but SEG, which also asks its stall for the end of the segment. -/
theorem stallProgramsAreDirected : Obligations.StallProgramsAreDirected := by
  unfold Obligations.StallProgramsAreDirected
  intro st words j s j'
  refine ⟨?nop, ?ends, ?seg, ?br, ?dbnz, ?bz, ?setmode⟩
  case nop => exact fun h => next_onRegs h id
  case ends => exact fun h => next_onRegs h fun j => { j with ended := some (0, 0) }
  case seg => exact fun h => next_issue h rfl
  case br => exact fun target h => next_onRegs h fun j => { j with pc := target }
  case dbnz => exact fun sd target h => next_onRegs h _
  case bz => exact fun sd target h => next_onRegs h _
  case setmode => exact fun lt bf rnd h => next_onRegs h fun j => { j with mode := 4 * lt + 2 * b2n bf + b2n rnd }

/-- A scalar instruction of two registers. -/
theorem next_scalar2 (h : Issuing n opc (fieldsS sd sa ++ [(17, 14, sb)]) [(.s, sa), (.s, sb)] words j s) (f : W32 → W32 → W32) :
    (.next (scalar2 n opc sd sa sb f s) : Host.Outcome State Fault Refusal) =
      .next (withJob n (writeS sd (f (readS j sa) (readS j sb)) (advanced words j)) s) := next_onRegs h _

/-- A scalar instruction of a register and IMM14. -/
theorem next_scalarImm (h : Issuing n opc (fieldsS sd sa ++ [(13, 0, imm)]) [(.s, sa)] words j s) (f : W32 → ℕ → W32) :
    (.next (scalarImm n opc sd sa imm f s) : Host.Outcome State Fault Refusal) =
      .next (withJob n (writeS sd (f (readS j sa) imm) (advanced words j)) s) := next_onRegs h _

/-- Settles O27: by the two shapes of a scalar instruction; SLUI reads no register. -/
theorem stallScalarsCompute : Obligations.StallScalarsCompute := by
  unfold Obligations.StallScalarsCompute
  intro st words j s put
  refine ⟨?pair, ?imm, fun sd imm h => next_onRegs h (writeS sd (BitVec.ofNat 32 (imm * 1024)))⟩
  case pair =>
    intro sd sa sb can
    exact ⟨(next_scalar2 · (· + ·)), (next_scalar2 · (· - ·)), (next_scalar2 · (· * ·))⟩
  case imm =>
    intro sd sa imm can
    exact ⟨(next_scalarImm · fun a i => a + (BitVec.ofNat 14 i).signExtend 32), (next_scalarImm · fun a i => a * BitVec.ofNat 32 i),
      (next_scalarImm · fun a i => a <<< (i % 32)), (next_scalarImm · fun a i => a >>> (i % 32)),
      (next_scalarImm · fun a i => a &&& BitVec.ofNat 32 i), (next_scalarImm · fun a i => a ||| BitVec.ofNat 32 i)⟩

/-! Lane and accumulator instructions. -/

section
variable {act : Effect} (h : Issuing n opc fields reads words j s)
include h

/-- An instruction whose effect on its job is to put lanes into V[d] (R204, R206). -/
theorem next_putLanes {xs : List (Option ℕ)} (acts : act (advanced words j) s = putLanes d xs (advanced words j) s) :
    (.next (issue n opc fields reads act s) : Host.Outcome State Fault Refusal) =
      .next (withJob n (writeV d ((fillLanes s.free xs).map (BitVec.ofNat 16 ·)) (advanced words j))
        (if anyUnstated xs then takeFree 1 s else s)) := next_issue h acts

/-- An instruction whose effect is to put accumulator lanes into A[d], SAT set where one of them saturates (R204, R206). -/
theorem next_putAcc {xs : List AccOut} (acts : act (advanced words j) s = putAcc d xs (advanced words j) s) :
    (.next (issue n opc fields reads act s) : Host.Outcome State Fault Refusal) =
      .next (withJob n (writeA d ((fillLanes s.free (xs.map (·.1))).map (BitVec.ofNat 32 ·))
        { advanced words j with sat := j.sat || xs.any (·.2) }) (if anyUnstated (xs.map (·.1)) then takeFree 1 s else s)) :=
  next_issue h acts

end

/-- Settles O29: `putLanes` for the lanes of MODE, `convertLanes` for converted values, and the two copies. -/
theorem stallLanesCompute : Obligations.StallLanesCompute := by
  unfold Obligations.StallLanesCompute
  intro st words j s lt tr put convert
  refine ⟨?pairs, ?bcast, ?lanes, ?unpk4, ?unpk8, ?cvt⟩
  case pairs =>
    intro vd va vb can pair
    exact ⟨(next_putLanes · rfl), (next_putLanes · rfl), (next_putLanes · rfl), (next_putLanes · rfl), (next_putLanes · rfl)⟩
  case bcast => exact fun vd ss h => next_onRegs h fun j => writeV vd (bcastS j ss) j
  case lanes =>
    intro vd va can
    exact ⟨(next_onRegs · fun j => writeV vd (readV j va) j), (next_putLanes · rfl), (next_putLanes · rfl)⟩
  case unpk4 => exact fun vd va ss quarter fp4 fp8 h => next_issue h rfl
  case unpk8 => exact fun vd va upper ef h => next_issue h rfl
  case cvt => exact fun vd aa h => next_issue h rfl

/-- Settles O30: `putAcc` for all that may saturate; ACLR and ARED change their job alone. -/
theorem stallAccumulatorsCompute : Obligations.StallAccumulatorsCompute := by
  unfold Obligations.StallAccumulatorsCompute
  intro st words j s lt int put into
  refine ⟨?products, ?macs, ?clr, ?sums, ?muls, ?wid, ?rsq, ?red⟩
  case products => exact fun ad va vb => ⟨(next_putAcc · rfl), (next_putAcc · rfl)⟩
  case macs => exact fun ad va ss h => next_putAcc h rfl
  case clr => exact fun ad h => next_onRegs h (writeA ad (List.replicate 32 0))
  case sums => exact fun ad aa => ⟨(next_putAcc · rfl), (next_putAcc · rfl)⟩
  case muls => exact fun ad ss h => next_putAcc h rfl
  case wid => exact fun ad va h => next_putAcc h rfl
  case rsq => exact fun ad aa ss h => next_putAcc h rfl
  case red => exact fun ss aa h => next_onRegs h _

end Sys2Proof.Machine
end

section
/-!
PROOFS. Memory and row instructions of a stall: windows, open rows and outstanding loads, and what ROP makes of its rows (R200–R202,
R204, R215, R224–R226).
-/
namespace Sys2Proof.Machine

variable {n opc reg w sa imm r b : ℕ} {inc : Bool} {words : List ℕ} {j : Job} {s : State}

/-! The six instructions through a window (R200, R202). -/

/-- The memory instruction of an opcode of format M. -/
def memInstr (n reg w sa : ℕ) (inc : Bool) (imm opc : ℕ) : Instr :=
  if opc = 0x08 then .stallLd n reg w sa inc imm else if opc = 0x09 then .stallSt n reg w sa inc imm
  else if opc = 0x0A then .stallLda n reg w sa inc imm else if opc = 0x0B then .stallSta n reg w sa inc imm
  else if opc = 0x0C then .stallLds n reg w sa inc imm else .stallSts n reg w sa inc imm

/-- The register a memory instruction reads beside its scalar address: the data of a store. -/
def storeReads (reg opc : ℕ) : List (RegClass × ℕ) :=
  if opc = 0x09 then [(.v, reg)] else if opc = 0x0B then [(.a, reg)] else if opc = 0x0D then [(.s, reg)] else []

/-- A memory instruction is the issue of one access of its size. -/
theorem exec_memInstr (low : 8 ≤ opc) (high : opc ≤ 13) : ∃ (inc' : Bool) (f : ℕ → ℕ → Effect),
    exec (memInstr n reg w sa inc imm opc) s = .next (issue n opc (fieldsM reg w sa inc imm) ((.s, sa) :: storeReads reg opc)
      (memAccess n w sa imm (accessSize opc) inc' f) s) := by
  obtain rfl | rfl | rfl | rfl | rfl | rfl : opc = 8 ∨ opc = 9 ∨ opc = 10 ∨ opc = 11 ∨ opc = 12 ∨ opc = 13 := by omega
  all_goals exact ⟨_, _, rfl⟩

/-- An LDS that loads its own scalar address adds the size to what arrives instead (R202). -/
theorem exec_stallLds : exec (.stallLds n reg w sa inc imm) s = .next (issue n 0x0C (fieldsM reg w sa inc imm) [(.s, sa)]
    (memAccess n w sa imm 4 (inc && !selfInc reg sa inc) (loadInto .s reg 4 (4 * b2n (selfInc reg sa inc)))) s) := rfl

/-- The job `k` with what INC adds to the scalar address of an access by `j` (R202). -/
def bumped (inc : Bool) (sa size : ℕ) (j k : Job) : Job :=
  if inc then writeS sa (readS j sa + BitVec.ofNat 32 size) k else k

/-- A load of `size` bytes at byte `b` of region `r`, as it is issued (R202). -/
def loadOf (cls : RegClass) (reg plus r b size : ℕ) (s : State) : Load where
  cls := cls
  reg := reg
  data := readBytes (((getRegion r s).map (·.mem)).getD []) b size
  plus := plus
  live := !(cls == .s && reg == 0)

section
variable {reads : List (RegClass × ℕ)} (h : Issuing n opc (fieldsM reg w sa inc imm) reads words j s)
include h

section
variable {size : ℕ} {inc' : Bool} {f : ℕ → ℕ → Effect}

/-- An access that its window refuses ends the job with the FAULT (R201). -/
theorem next_memAccess_error {e : ℕ} (refused : accessAt j w sa imm size = .error e) :
    (.next (issue n opc (fieldsM reg w sa inc imm) reads (memAccess n w sa imm size inc' f) s) : Host.Outcome State Fault Refusal) =
      .next (withJob n (faultJob e (advanced words j)) s) :=
  next_issue h (memAccess_error (j := advanced words j) refused)

variable (inWindow : accessAt j w sa imm size = .ok (r, b))
include inWindow

/-- An access waits while a row it touches is not open (R202, R215). -/
theorem next_memAccess_waits (closed : ¬ (accessRows r b size s).all (rowOpen (getStall n s)) = true) :
    (.next (issue n opc (fieldsM reg w sa inc imm) reads (memAccess n w sa imm size inc' f) s) : Host.Outcome State Fault Refusal) =
      .next s :=
  congrArg Host.Outcome.next
    (issue_waits h (memAccess_waits (j := advanced words j) inWindow (Bool.eq_false_of_not_eq_true closed)))

variable (opened : (accessRows r b size s).all (rowOpen (getStall n s)) = true)
include opened

/-- A store writes its bytes at the region byte of the window (R202, R204). -/
theorem next_store (bytes : Job → List Byte) :
    (.next (issue n opc (fieldsM reg w sa inc imm) reads (memAccess n w sa imm size inc' (storeFrom bytes)) s) :
        Host.Outcome State Fault Refusal) =
      .next (withJob n (bumped inc' sa size j (advanced words j))
        (onRegion r (fun x => { x with mem := writeBytes x.mem b (bytes (advanced words j)) }) s)) :=
  next_issue h (memAccess_acts (j := advanced words j) inWindow opened rfl)

/-- A load joins the outstanding ones with the data read (R202). -/
theorem next_load {cls : RegClass} {plus : ℕ} (room : j.loads.length < 8) :
    (.next (issue n opc (fieldsM reg w sa inc imm) reads (memAccess n w sa imm size inc' (loadInto cls reg size plus)) s) :
        Host.Outcome State Fault Refusal) =
      .next (withJob n (bumped inc' sa size j { advanced words j with
        loads := overtake cls reg j.loads ++ [loadOf cls reg plus r b size s] }) s) :=
  next_issue h (memAccess_acts (j := advanced words j) inWindow opened (loadInto_acts (j := advanced words j) room))

end
end

/-- An LDS without INC, or into a register other than its scalar address. -/
theorem selfInc_eq_false (apart : ¬(inc = true ∧ reg = sa ∧ sa ≠ 0)) : selfInc reg sa inc = false := by
  simpa [selfInc, and_assoc] using apart

/-- An LDS with INC into its own scalar address. -/
theorem selfInc_eq_true (own : reg = sa) (pos : sa ≠ 0) (inc_on : inc = true) : selfInc reg sa inc = true := by
  simp [selfInc, own, pos, inc_on]

/-- The first load of the first job arrives (R202). -/
theorem arriveIn_zero {l : Load} {ls : List Load} {js : List Job} (loads : j.loads = l :: ls) :
    arriveIn 0 (j :: js) = arrive l { j with loads := ls } :: js := by
  simp [arriveIn, loads]

/-- Settles O31: the window decides first, then the rows, then what the instruction does at its region byte. -/
theorem stallMemoryGoesThroughWindows : Obligations.StallMemoryGoesThroughWindows := by
  unfold Obligations.StallMemoryGoesThroughWindows
  intro st reg w sa inc imm words j s at' bump can opened row reads
  refine ⟨?stops, ?stores, ?loads, ?own, fun n => rfl, fun l ls k js => arriveIn_zero⟩
  case stops =>
    intro opc low high h
    obtain ⟨inc', f, memory⟩ := exec_memInstr (n := st) (reg := reg) (w := w) (sa := sa) (inc := inc) (imm := imm) (s := s) low high
    exact ⟨fun e refused => memory.trans (next_memAccess_error h refused),
      fun r b inWindow closed => memory.trans (next_memAccess_waits h inWindow closed)⟩
  case stores =>
    rintro opc bytes (⟨rfl, rfl⟩ | ⟨rfl, rfl⟩ | ⟨rfl, rfl⟩) h r b inWindow rowsOpen
    · have store := next_store (inc' := inc) h inWindow rowsOpen fun j => (readV j reg).flatMap fun x => leBytes 2 x.toNat
      exact store
    · exact next_store h inWindow rowsOpen fun j => (readA j reg).flatMap (leBytes 4)
    · exact next_store h inWindow rowsOpen fun j => leBytes 4 (readS j reg).toNat
  case loads =>
    rintro opc cls (⟨rfl, rfl⟩ | ⟨rfl, rfl⟩ | ⟨rfl, rfl, apart⟩) h room r b inWindow rowsOpen
    · exact next_load h inWindow rowsOpen room
    · exact next_load h inWindow rowsOpen room
    · have lds := exec_stallLds (n := st) (reg := reg) (w := w) (sa := sa) (inc := inc) (imm := imm) (s := s)
      rw [selfInc_eq_false apart, Bool.not_false, Bool.and_true] at lds
      exact lds.trans (next_load h inWindow rowsOpen room)
  case own =>
    intro own pos inc_on h room r b inWindow rowsOpen data
    have live : (!(RegClass.s == RegClass.s && reg == 0)) = true := by simp [own, pos]
    have load := next_load (inc' := false) (cls := .s) (plus := 4) h inWindow rowsOpen room
    rw [exec_stallLds, selfInc_eq_true own pos inc_on, Bool.not_true, Bool.and_false]
    unfold loadOf at load
    rw [live] at load
    exact load

/-! ROP (R224–R226). -/

section
variable {d a o : ℕ × ℕ}

/-- The word of the instruction in hand: LAST_PC is where it stood (R202). -/
theorem currentWord_advanced (work : j.work = .program words) (inside : j.pc < words.length) :
    currentWord { advanced words j with pc := (advanced words j).lastPc } = some (wordAt words j.pc) := by
  simp [currentWord, advanced, work, inside]

variable (work : j.work = .program words) (inside : j.pc < words.length)
include work inside

/-- A ROP with an operand that its window refuses faults (R201, R225). -/
theorem ropEffect_error {e : ℕ} (refused : ropOperands j (wordAt words j.pc) = .error e) :
    ropEffect n (advanced words j) s = some (faultJob e (advanced words j), s) := by
  have refused' : ropOperands (advanced words j) (wordAt words j.pc) = .error e := refused
  simp only [ropEffect, currentWord_advanced work inside, refused']

variable {op : ℕ} (named : bits (wordAt words j.pc) 25 23 = op) (operands : ropOperands j (wordAt words j.pc) = .ok (d, a, o))
include named operands

/-- What a ROP does once its operands are known: rows of different banks fault, and a row operation waits for its activation (R215,
R225, R226). -/
theorem ropEffect_ok : ropEffect n (advanced words j) s =
    if ropBanks (op < 2) d a o s = false then some (faultJob 3 (advanced words j), s)
    else if (getStall n s).ropReady = false then none
    else some (advanced words j, onStall n (fun x => { x with ropReady := false }) (rowOperate op d a o s)) := by
  have operands' : ropOperands (advanced words j) (wordAt words j.pc) = .ok (d, a, o) := operands
  simp only [ropEffect, currentWord_advanced work inside, operands', named, Bool.not_eq_true']

end

/-- Settles O32: the operands decide first, then their banks, then the activation. -/
theorem stallRowOperationsCompute : Obligations.StallRowOperationsCompute := by
  unfold Obligations.StallRowOperationsCompute
  intro st op wd sd wa sa wb sb words j s inside h rop j'
  have named : bits (wordAt words j.pc) 25 23 = op := h.fields (25, 23, op) (List.mem_cons_self ..)
  refine ⟨fun f refused => next_issue h (ropEffect_error h.work inside refused), fun d a b operands => ?_⟩
  have effect := ropEffect_ok (n := st) (s := s) h.work inside named operands
  refine ⟨fun apart => ?fault, fun same waits => ?waits, fun same ready => ?acts⟩
  case fault => exact next_issue h (effect.trans (if_pos apart))
  case waits =>
    exact congrArg Host.Outcome.next
      (issue_waits h ((effect.trans (if_neg (by rwa [Bool.not_eq_false]))).trans (if_pos waits)))
  case acts =>
    exact next_issue h ((effect.trans (if_neg (by rwa [Bool.not_eq_false]))).trans (if_neg (by rwa [Bool.not_eq_false])))

end Sys2Proof.Machine
end

section
/-!
PROOFS. Activation boundaries of a stall: hub accesses, segments, and the activations that the windows allow (R213–R215, R217,
R220, R221, R226, R231, R232).
-/
namespace Sys2Proof.Machine

variable {n ns row unit : ℕ} {hub : List (ℕ × ℕ)} {ecc : EccOutcome} {j : Job} {s : State}

/-! A boundary, once its hub accesses are served (R213–R215). -/

section
variable {u : State} (served : serveHub n ns hub s = u) (there : n < 256) (powered : (getStall n u).gated = false)
  (serves : stallHeld n u = false)
include served there powered serves

/-- With no segment running, the next one opens. -/
theorem boundary_idle (idle : runningJob (getStall n u) = none) :
    boundary n ns hub ecc row unit s = nextSegment n ns ecc row unit u := by
  simp only [boundary, Nat.not_le_of_lt there, served, powered, serves, idle, Bool.or_self, Bool.false_eq_true, if_false]

/-- A running segment ends, or makes way for a refresh, or may activate. -/
theorem boundary_running (runs : runningJob (getStall n u) = some j) : boundary n ns hub ecc row unit s =
    if segmentEnds n (getStall n u) j ns u = true then nextSegment n ns ecc row unit (closeSegment n ns u)
    else if getDebt n u = 8 then
      activate n ns ecc row unit (onStall n (fun x => { x with paused := true })
        (onStack (n / 32) (fun t => { t with
          refPauses := wrap64 (t.refPauses + 1), refreshes := wrap64 (t.refreshes + 1) }) (setDebt n 7 u)))
    else activate n ns ecc row unit u := by
  simp only [boundary, Nat.not_le_of_lt there, served, powered, serves, runs, Bool.or_self, Bool.false_eq_true, if_false]

end

/-- A hub access to the write set of the running segment waits for its end, any other is served (R214). -/
theorem serveHub_one (t : ℕ) : serveHub n ns [(row, t)] s =
    if inWriteSet n row s = true then holdAccess n { row := row, since := t, write := none } s
    else serveAccess n ns s { row := row, since := t, write := none } := rfl

/-- A lost word of the state or image that a segment loads ends its job (R231). -/
theorem nextSegment_fails (runs : runningJob (getStall n (openSegment n ns s)) = some j) :
    nextSegment n ns .uncorrectable row unit s = activationFails n j row unit ns (openSegment n ns s) := by
  simp only [nextSegment, runs]

/-- Else the segment that opens, if one does, may activate (R195, R215). -/
theorem nextSegment_activates (sound : runningJob (getStall n (openSegment n ns s)) = none ∨ ecc ≠ .uncorrectable) :
    nextSegment n ns ecc row unit s = activate n ns ecc row unit (openSegment n ns s) := by
  simp only [nextSegment]
  split
  next runs => simp [runs] at sound
  next => rfl

/-- Settles O33: the running segment decides first, then whether it ends, then the refresh debt. -/
theorem boundariesEndAndOpenSegments : Obligations.BoundariesEndAndOpenSegments := by
  unfold Obligations.BoundariesEndAndOpenSegments
  refine ⟨?boundary, ?hub, ?segment⟩
  case boundary =>
    intro n ns hub ecc row unit s u there powered serves answers
    have step {v : State} (h : boundary n ns hub ecc row unit s = v) : answers v :=
      congrArg (fun v => Host.Outcome.next (pump (settleJobs v))) h
    refine ⟨fun idle => step (boundary_idle rfl there powered serves idle), fun j runs => ?_⟩
    have running := boundary_running (ecc := ecc) (row := row) (unit := unit) (hub := hub) (s := s) rfl there powered serves runs
    refine ⟨fun ends => step (running.trans (if_pos ends)), fun goesOn => ?_⟩
    have unended := running.trans (if_neg (Bool.eq_false_iff.1 goesOn))
    exact ⟨fun due => step (unended.trans (if_pos due)), fun paid => step (unended.trans (if_neg paid))⟩
  case hub =>
    intro n ns row t s access
    exact ⟨fun written => (serveHub_one t).trans (if_pos written),
      fun free => (serveHub_one t).trans (if_neg (Bool.eq_false_iff.1 free))⟩
  case segment =>
    intro n ns ecc row unit s t
    exact ⟨fun j runs lost => lost ▸ nextSegment_fails runs, nextSegment_activates⟩

/-! Activations (R215, R220, R221, R226, R232). -/

/-- An activation of weight `w` at `ns` counted: in the window of its stall and of the stack, in the segment and in the job. -/
def activationCounted (n ns w : ℕ) (j : Job) (s : State) : State :=
  onJob n j.jid (fun j => { j with acts := j.acts + w })
    (onStall n (fun x => { x with
      recent := (ns, w) :: within 40 ns x.recent, segW := x.segW + w, paused := false, budgetWait := false })
      (onStack (n / 32) (fun t => { t with
        window := (ns, w) :: within 1000 ns t.window, turn := (n % 32 + 1) % 32,
        acts := wrap64 (t.acts + w), rowOps := wrap64 (t.rowOps + b2n (w == 3)), nowActs := t.nowActs + w }) s))

section
variable {w : ℕ} (runs : runningJob (getStall n s) = some j) (weight : needWeight (jobNeed n (getStall n s) j s) = w)
include runs weight

/-- A job that needs no activation has none. -/
theorem activate_nothing (none : w = 0) : activate n ns ecc row unit s = s := by
  simp only [activate, runs, weight, none, if_true]

variable (needs : w ≠ 0)
include needs

/-- An activation beyond weight 4 in 40 ns pauses its stall (R220). -/
theorem activate_pauses (full : 4 < weightOf (within 40 ns (getStall n s).recent) + w) :
    activate n ns ecc row unit s = onStall n (fun x => { x with paused := true }) s := by
  simp only [activate, runs, weight, needs, full, if_false, if_true]

variable (fits : weightOf (within 40 ns (getStall n s).recent) + w ≤ 4)
include fits

/-- One beyond the stack's budget, or out of its turn, waits for budget (R221). -/
theorem activate_waits
    (excess : budgetAt ns (getStack (n / 32) s) < weightOf (within 1000 ns (getStack (n / 32) s).window) + w ∨
      behindOthers n s = true) :
    activate n ns ecc row unit s = onStall n (fun x => { x with paused := true, budgetWait := true })
      (onStack (n / 32) (fun t => { t with budgetWaits := wrap64 (t.budgetWaits + b2n (!(getStall n s).budgetWait)) }) s) := by
  simp only [activate, runs, weight, needs, Nat.not_lt.2 fits, Bool.or_eq_true, decide_eq_true_eq, excess, if_false, if_true]

variable (room : weightOf (within 1000 ns (getStack (n / 32) s).window) + w ≤ budgetAt ns (getStack (n / 32) s))
  (turn : behindOthers n s = false)
include room turn

/-- One that both windows allow is counted and has its effect (R215). -/
theorem activate_clean : activate n ns .clean row unit s =
    activationEffect n j (jobNeed n (getStall n s) j s) (activationCounted n ns w j s) := by
  simp only [activate, runs, weight, needs, Nat.not_lt.2 fits, Nat.not_lt.2 room, turn, decide_false, Bool.or_self,
    Bool.false_eq_true, if_false, activationCounted]

/-- A lost codeword ends the job of one that was admitted and counted (R226). -/
theorem activate_lost : activate n ns .uncorrectable row unit s =
    activationFails n j row unit ns (activationCounted n ns w j s) := by
  simp only [activate, runs, weight, needs, Nat.not_lt.2 fits, Nat.not_lt.2 room, turn, decide_false, Bool.or_self,
    Bool.false_eq_true, if_false, activationCounted]

end

/-- Settles O34: the need decides first, then the window of the stall, then the stack's budget and turn. -/
theorem activationsFollowTheWindows : Obligations.ActivationsFollowTheWindows := by
  unfold Obligations.ActivationsFollowTheWindows
  refine ⟨?_, fun ns t => rfl⟩
  intro n ns row unit ecc j s runs x t need w counted
  refine ⟨activate_nothing runs rfl, activate_pauses runs rfl, fun needs fits => ⟨activate_waits runs rfl needs fits, ?_⟩⟩
  intro room turn
  exact ⟨fun clean => clean ▸ activate_clean runs rfl needs fits room turn,
    fun lost => lost ▸ activate_lost runs rfl needs fits room turn⟩

end Sys2Proof.Machine
end

section
/-!
PROOFS. Refresh: the debt of a pseudo-channel, and the classes and the multiplier of a stack (R217–R219).
-/
namespace Sys2Proof.Machine

variable {stack pc temp : ℕ} {t : Stack} {s : State}

/-- The debt of pseudo-channel `n` after one more refresh has come due (R217). -/
def risenDebt (n : ℕ) (s : State) : ℕ := min 8 (getDebt n s + 1)

/-- The highest debt of a stack, with the risen one of its pseudo-channel `n` (R217). -/
def debtMaxKept (stack n : ℕ) (s : State) : State :=
  onStack stack (fun t => { t with debtMax := max t.debtMax (risenDebt n s) }) s

@[simp] theorem getStall_debtMaxKept (m n : ℕ) : getStall m (debtMaxKept stack n s) = getStall m s := rfl

/-- What a rise of the debt does, by whether a segment runs (R217). -/
theorem debtRises_eq {n : ℕ} (place : 32 * stack + pc = n) : debtRises stack pc s =
    if (getStall n (debtMaxKept stack n s)).run.isNone then
      onStack stack (fun t => { t with refreshes := wrap64 (t.refreshes + risenDebt n s) }) (setDebt n 0 (debtMaxKept stack n s))
    else setDebt n (risenDebt n s) (debtMaxKept stack n s) := by subst place; rfl

/-- While a segment runs, the debt stands (R217). -/
theorem debtRises_running {n : ℕ} (place : 32 * stack + pc = n) (runs : (getStall n s).run ≠ none) :
    debtRises stack pc s = setDebt n (risenDebt n s) (debtMaxKept stack n s) := by
  rw [debtRises_eq place, getStall_debtMaxKept, Option.isNone_eq_false_iff.2 (Option.isSome_iff_ne_none.2 runs)]
  rfl

/-- With no segment running, it is paid at once (R217). -/
theorem debtRises_idle {n : ℕ} (place : 32 * stack + pc = n) (idle : (getStall n s).run = none) : debtRises stack pc s =
    onStack stack (fun t => { t with refreshes := wrap64 (t.refreshes + risenDebt n s) })
      (setDebt n 0 (debtMaxKept stack n s)) := by
  rw [debtRises_eq place, getStall_debtMaxKept, idle]
  rfl

/-! The evaluation of the classes (R218, R219). -/

/-- The temperature class. -/
def heatClass (temp : ℕ) : ℕ := if temp ≤ 85 then 0 else if temp ≤ 95 then 1 else 2

/-- The class of the activations of the last ten 100 µs. -/
def useClass (t : Stack) : ℕ :=
  if 1000 * t.act4 ≤ t.nowActs + t.recentActs.foldl (· + ·) 0 then 2
  else if 1000 * t.act2 ≤ t.nowActs + t.recentActs.foldl (· + ·) 0 then 1 else 0

/-- The multiplier that the classes ask for. -/
def askedMult (temp : ℕ) (t : Stack) : ℕ := max (heatClass temp) (max (useClass t) t.multMin)

/-- A stack with its classes and its activations noted, its multiplier as it was. -/
def classesNoted (temp : ℕ) (t : Stack) : Stack :=
  { t with temp := temp, tempClass := heatClass temp, actClass := useClass t,
           recentActs := (t.nowActs :: t.recentActs).take 9, nowActs := 0 }

/-- An evaluation, by what it asks for and how many before it asked for less (R219). -/
theorem evalRefresh_eq : evalRefresh temp t =
    if t.mult ≤ askedMult temp t then { classesNoted temp t with mult := askedMult temp t, fallRun := 0, fallTo := 0 }
    else if t.fallRun + 1 < 100 then
      { classesNoted temp t with fallRun := t.fallRun + 1, fallTo := max t.fallTo (askedMult temp t) }
    else { classesNoted temp t with mult := max t.fallTo (askedMult temp t), fallRun := 0, fallTo := 0 } := rfl

theorem evalRefresh_tempClass : (evalRefresh temp t).tempClass = heatClass temp := by
  rw [evalRefresh_eq]; split_ifs <;> rfl

theorem evalRefresh_actClass : (evalRefresh temp t).actClass = useClass t := by
  rw [evalRefresh_eq]; split_ifs <;> rfl

/-- The multiplier rises at once to what the classes ask for (R219). -/
theorem evalRefresh_mult_rises (rises : t.mult ≤ askedMult temp t) : (evalRefresh temp t).mult = askedMult temp t := by
  rw [evalRefresh_eq, if_pos rises]

section
variable (falls : askedMult temp t < t.mult)
include falls

/-- It stays for 99 evaluations that ask for less (R219). -/
theorem evalRefresh_mult_stays (early : t.fallRun + 1 < 100) : (evalRefresh temp t).mult = t.mult := by
  rw [evalRefresh_eq, if_neg (Nat.not_le_of_lt falls), if_pos early]
  rfl

/-- With the hundredth in a row it falls to the highest that they asked for (R219). -/
theorem evalRefresh_mult_falls (late : 100 ≤ t.fallRun + 1) : (evalRefresh temp t).mult = max t.fallTo (askedMult temp t) := by
  rw [evalRefresh_eq, if_neg (Nat.not_le_of_lt falls), if_neg (Nat.not_lt_of_le late)]

end

/-- Settles O35: the debt by whether a segment runs; the multiplier by whether the classes ask for less, and for how long. -/
theorem refreshFollowsHeatAndUse : Obligations.RefreshFollowsHeatAndUse := by
  unfold Obligations.RefreshFollowsHeatAndUse
  refine ⟨?debt, fun stack temp s => rfl, ?classes⟩
  case debt =>
    intro stack pc s n d t
    exact ⟨fun runs => congrArg Host.Outcome.next (debtRises_running rfl runs),
      fun idle => congrArg Host.Outcome.next (debtRises_idle rfl idle)⟩
  case classes =>
    intro temp t act heat use
    exact ⟨evalRefresh_tempClass, evalRefresh_actClass, evalRefresh_mult_rises, evalRefresh_mult_stays, evalRefresh_mult_falls⟩

end Sys2Proof.Machine
end

section
/-!
PROOFS. The start of STALL_RUN and of the forms of ROW_OP (R194, R198, R209–R212, R227–R230, R98).
-/
namespace Sys2Proof.Machine

variable {k : Cmd} {ps inp : List Byte} {ix : Index} {s : State}

/-- A derivation of a filter of an index: its slot BUILDING with its recipe and the index's CSN, and a job on each of its stalls (R98,
R229). -/
theorem beginRowDerive_queues (index : getIndex k.handle s = some ix) : beginRowDerive k ps inp s =
    deriveJobs (newRowCmd k 1 (field ps 1 1) (min 256 (bitmapRows ix)) (recipeTerms ps)) k.queue.q (bitmapRows ix)
      (addRowCmd (newRowCmd k 1 (field ps 1 1) (min 256 (bitmapRows ix)) (recipeTerms ps))
        (onIndex k.handle (onFilter (field ps 1 1) fun _ =>
          { state := .building, terms := recipeTerms ps, refs := 0, csn := ix.csn }) s)) := by
  simp only [beginRowDerive, index]

/-- Settles O36: each command begins where its checks pass; FORM decides first for ROW_OP. -/
theorem stallCommandsQueueJobs : Obligations.StallCommandsQueueJobs := by
  unfold Obligations.StallCommandsQueueJobs
  intro c d k ps inp s t p
  refine ⟨fun due go => next_begin due go rfl, fun due => ⟨?plain, ?unknown⟩, ?derive, fun due go => next_begin due go rfl⟩
  case plain =>
    intro form go
    have known : ¬ 2 < field ps 0 1 := by omega
    exact next_begin due ((if_neg known).trans go) rfl
  case unknown =>
    intro unknown
    have refused := begin_fail (act := beginRowPlain)
      (check := fun k ps inp s => if 2 < field ps 0 1 then .fail stBadParam 0 else rowPlainCheck k ps inp s) due (if_pos unknown)
    rw [countTurned_badParam] at refused
    exact congrArg Host.Outcome.next refused
  case derive =>
    intro ix due go index cmd built
    exact next_begin due go (beginRowDerive_queues ((getIndex_running _).trans index))

end Sys2Proof.Machine
end

section
/-!
PROOFS. The start and the end of a layer step, and the late stop of a tile (R255–R259, R269, R275, R278, R286, R287).
-/
namespace Sys2Proof.Machine

variable {c : CmdRef} {i : ℕ} {r : Run} {m : Model} {a : Act} {st : Step} {s : State}

/-! The start (R255, R269, R283). -/

/-- The state in which how the step reads its image is counted, and its start is noted as the latest use of its model (R290, R296). -/
def useNoted (h i : ℕ) (m : Model) (s : State) : State :=
  let t := (startUse h i m s).2
  onModel h (fun m => { m with lastUse := t.til.uses + 1 }) (onTil (fun x => { x with uses := t.til.uses + 1 }) t)

/-- The step that layer `i` starts with on some tiles, FREEZE being as it stands once the use is noted. -/
def startedStep (r : Run) (m : Model) (a : Act) (i : ℕ) (tiles : List ℕ) (s : State) : Step :=
  firstStep r m i tiles (runsAlt m (layerAt m i) a) (useNoted r.handle i m s).til.freeze (startUse r.handle i m s).1

/-- Only the step of a STALL layer starts with stalls (R287). -/
theorem firstStep_of_not_stall {tiles : List ℕ} {alt frozen : Bool} {use : ShelfUse} (kind : (layerAt m i).kind ≠ 1) :
    firstStep r m i tiles alt frozen use = newStep i tiles alt frozen (((getRec m r.ctx i).map (·.scales)).getD [])
      (outGroups (qdescAt m i)) r.rows use := if_neg kind

/-- The step of a STALL layer starts with the stalls of its rows and its share of their staging (R122, R287). -/
theorem firstStep_of_stall {tiles : List ℕ} {alt frozen : Bool} {use : ShelfUse} (kind : (layerAt m i).kind = 1) :
    firstStep r m i tiles alt frozen use =
      { newStep i tiles alt frozen (((getRec m r.ctx i).map (·.scales)).getD []) (outGroups (qdescAt m i)) r.rows use with
        stalls := layerStalls m i, stage := layerStage m i r.rows } := if_pos kind

theorem launchStep_of_tile {rows : ℕ} (kind : (layerAt m i).kind = 0) : launchStep r m i rows s = s := by
  simp only [launchStep, kind]

theorem launchStep_of_stall {rows : ℕ} (kind : (layerAt m i).kind = 1) : launchStep r m i rows s = startLayerJobs r m i s := by
  simp only [launchStep, kind]

theorem launchStep_of_select {rows : ℕ} (kind : (layerAt m i).kind = 2) : launchStep r m i rows s = queuePicks r i rows s := by
  simp only [launchStep, kind]

section
variable (run : getModelRun c s = some r) (model : getModel r.handle s = some m) (input : layerInput r m (layerAt m i) = some a)
include run model input

/-- A ready step that nothing holds up joins its run and is handed to what runs it (R255, R283). -/
theorem startStep_starts {tiles : List ℕ} (ready : stepReady r m i s = true) (untaken : recordTaken r m i s = false)
    (runs : ctxRuns r.part r.ctx s = true) (unstopped : (getPtn r.part s).stop = none)
    (unreset : s.til.resets.any (fun x => x.2.1 == r.handle && x.2.2 == r.ctx) = false) (room : stageRoom m i r.rows s = true)
    (onTiles : stepTiles r.part (layerAt m i) s = some tiles) : startStep c i s =
      launchStep r m i a.rows (addStep c (startedStep r m a i tiles s) (useNoted r.handle i m s)) := by
  simp only [startStep, run, model, ready, untaken, runs, unstopped, unreset, room, onTiles, input]
  rfl

end

/-! The end (R256–R259, R278, R287). -/

/-- A step as its end finds it: of a STALL layer put together from what its jobs have computed (R287). -/
def assembledStep (m : Model) (a : Act) (i : ℕ) (st : Step) : Step :=
  if (layerAt m i).kind = 1 then stallStep m (layerAt m i) (layerCtx m i a st.alt st.scales) st else st

/-- What the end of a step decides (R256–R259). -/
def decidedEnd (r : Run) (m : Model) (a : Act) (i : ℕ) (st : Step) (old : ScaleRec) : StepEnd :=
  endStats (layerCtx m i a st.alt st.scales) r.rows (assembledStep m a i st) old

/-- The state in which what the end of a step decides is recorded and counted, and the step closed. -/
def endRecorded (c : CmdRef) (r : Run) (m : Model) (a : Act) (i : ℕ) (st : Step) (old : ScaleRec) (s : State) : State :=
  recordStep c i r (layerCtx m i a st.alt st.scales) (assembledStep m a i st) (decidedEnd r m a i st old) s

/-- A step that ends may be the last that its run waits for (R284). -/
theorem execLayerStepEnd_of_ended {ecc : EccOutcome} {place : MemPlace} {t : State} (ends : endStep c i ecc place s = (t, true)) :
    exec (.layerStepEnd c i ecc place) s = .next (deliverRun c t) := by
  change execLayerStepEnd c i ecc place s = _
  simp only [execLayerStepEnd, ends, if_true]

theorem execLayerStepEnd_of_not_ended {ecc : EccOutcome} {place : MemPlace} {t : State}
    (stays : endStep c i ecc place s = (t, false)) : exec (.layerStepEnd c i ecc place) s = .next t := by
  change execLayerStepEnd c i ecc place s = _
  simp only [execLayerStepEnd, stays, Bool.false_eq_true, if_false]

section
variable (run : getModelRun c s = some r) (model : getModel r.handle s = some m) (input : layerInput r m (layerAt m i) = some a)
  (step : getStep c i s = some st) (runs : ctxRuns r.part r.ctx s = true) (done : stepDone m a.rows st = true)
  (ecc : EccOutcome) (place : MemPlace)
include run model input step runs done

/-- A SELECT layer gives its picks, and its input as its output (R278). -/
theorem endStep_select (kind : (layerAt m i).kind = 2) : endStep c i ecc place s =
    (settleResets (closeStep c i (fun r => { r with picked := st.picks.flatMap (·.2), outs := tput r.outs i a }) s), true) := by
  simp only [endStep, run, step, model, input, runs, done, Bool.not_true, Bool.or_false, Bool.false_eq_true, if_false, kind,
    if_true]

/-- Any other layer is recorded, a re-run only once its reads let it (R256–R259). -/
theorem endStep_of_not_select {old : ScaleRec} (kind : (layerAt m i).kind ≠ 2) (record : getRec m r.ctx i = some old) :
    endStep c i ecc place s =
      if (decidedEnd r m a i st old).rerun then
        if (rerunRead c r (assembledStep m a i st) ecc place s).2 then
          (endRecorded c r m a i st old (rerunRead c r (assembledStep m a i st) ecc place s).1, true)
        else ((rerunRead c r (assembledStep m a i st) ecc place s).1, false)
      else (endRecorded c r m a i st old s, true) := by
  simp only [endStep, run, step, model, input, runs, done, Bool.not_true, Bool.or_false, Bool.false_eq_true, if_false, kind, record]
  rfl

end

/-! The late stop (R275). -/

/-- A tile that runs on 199 µs after a posted stop puts its step back to its start, counted (R275). -/
theorem lateStop_restarts {n at0 : ℕ} {x : TileCtx} (tile : tileCtx n s = some x) (posted : (getPtn x.run.part s).stop = some at0)
    (late : at0 + 199 ≤ timeUs s) (running : x.work.ended = false) (stale : x.work.fresh = false)
    (unstopped : x.work.late = false) : lateStop n s = onShf x.run.part (fun c => { c with restarts := wrap64 (c.restarts + 1) })
      (onPart x.run.part (fun p => { p with counts := { p.counts with tileLate := wrap64 (p.counts.tileLate + 1) } })
        (onStep x.ref x.step.layer (restartStep x.run.rows) s)) := by
  simp only [lateStop, tile, posted, running, stale, unstopped, Nat.not_lt.2 late, decide_false, Bool.or_false,
    Bool.false_eq_true, if_false]

/-- Settles O39: a start by `startStep_starts` and the layer's kind, an end by the `endStep` lemmas, a late stop by
`lateStop_restarts`. -/
theorem stepsStartAndEnd : Obligations.StepsStartAndEnd := by
  unfold Obligations.StepsStartAndEnd
  refine ⟨fun c i r m a s run model input => ⟨?starts, ?ends⟩, ?late⟩
  case starts =>
    intro tiles ready untaken runs unstopped unreset room onTiles use t first
    have starts : exec (.layerStepStart c i) s = .next (launchStep r m i a.rows (addStep c (startedStep r m a i tiles s) t)) :=
      congrArg Host.Outcome.next (startStep_starts run model input ready untaken runs unstopped unreset room onTiles)
    refine ⟨fun kind => ?_, fun kind => ?_, fun kind => ?_⟩
    · rw [starts, launchStep_of_tile kind, startedStep, firstStep_of_not_stall (by omega)]; rfl
    · rw [starts, launchStep_of_stall kind, startedStep, firstStep_of_stall kind]; rfl
    · rw [starts, launchStep_of_select kind, startedStep, firstStep_of_not_stall (by omega)]; rfl
  case ends =>
    intro st ecc place step runs done
    refine ⟨fun kind => execLayerStepEnd_of_ended (endStep_select run model input step runs done ecc place kind), ?_⟩
    intro old kind record x st' e recorded read
    have ends := endStep_of_not_select run model input step runs done ecc place kind record
    refine ⟨fun once => ?_, fun again goes => ?_, fun again lost => ?_⟩
    · exact execLayerStepEnd_of_ended (ends.trans (if_neg (Bool.eq_false_iff.1 once)))
    · exact execLayerStepEnd_of_ended (ends.trans ((if_pos again).trans (if_pos goes)))
    · exact execLayerStepEnd_of_not_ended (ends.trans ((if_pos again).trans (if_neg (Bool.eq_false_iff.1 lost))))
  case late =>
    intro n now at0 x s t tile posted late running stale unstopped
    exact congrArg Host.Outcome.next (lateStop_restarts tile posted late running stale unstopped)

end Sys2Proof.Machine
end

section
/-!
PROOFS. MODEL_LOAD, MODEL_RUN and MODEL_PIN: the checks of an operation on a model that the handle names, and what each makes of it
(R254, R261, R276–R280, R282, R283, R285, R286, R289–R291).
-/
namespace Sys2Proof.Machine

variable {c : CmdRef} {d : CmdIn} {k : Cmd} {ps inp : List Byte} {m : Model} {s : State}

@[simp] theorem getModel_running (h : ℕ) : getModel h (running c s) = getModel h s := rfl

/-- Whether the machine has room for what a COMMIT gives a model: its activation buffers in the partition's DRAM, and the pinned rows
of its STALL layers (R279, R280, R286). -/
def readyFits (h : ℕ) (m : Model) (s : State) : Prop :=
  dramOk (readyModel m s).part (onModel h (fun _ => readyModel m s) s) = true ∧
    pinsFit (fun n => (stallBytes (readyModel m s) n + 1023) / 1024) (readyModel m s).rows = true

section
variable (model : getModel k.handle s = some m)
include model

/-- An operation on a model of the command's own partition is left to its further checks (R75, R279). -/
theorem loadNamedCheck_named (more : Model → List (Bool × ℕ)) (params : loadParamsBad k ps = false)
    (own : modelStatus k s = none) : loadNamedCheck more k ps s = firstFail (more m) := by
  simp only [loadNamedCheck, params, own, model, Bool.false_eq_true, if_false]

/-! COMMIT (R279, R280, R286). -/

/-- A model that is not wholly written, or not good, is freed. -/
theorem commitModel_bad (bad : fullyWritten m = false ∨ imageGood m = false) :
    commitModel k s = completeSt k.ref stBadParam (freeModel k.handle s) := by
  have incomplete : (!(fullyWritten m && imageGood m)) = true := by simpa [imp_iff_not_or] using bad
  simp only [commitModel, model, incomplete, if_true]

variable (written : fullyWritten m = true) (good : imageGood m = true)
include written good

/-- A good one is READY where there is room for it. -/
theorem commitModel_ready (room : readyFits k.handle m s) :
    commitModel k s = completeSt k.ref stOk (onModel k.handle (fun _ => readyModel m s) s) := by
  obtain ⟨dram, pins⟩ := room
  simp only [commitModel, model, written, good, dram, pins, Bool.and_self, Bool.not_true, Bool.false_eq_true, if_false, if_true]

/-- Where there is none, it is freed. -/
theorem commitModel_noRoom (full : ¬ readyFits k.handle m s) :
    commitModel k s = completeSt k.ref stNoResource (freeModel k.handle s) := by
  simp only [commitModel, model, written, good, Bool.and_self, Bool.not_true, Bool.false_eq_true, if_false]
  exact if_neg (by simpa only [readyFits, Bool.and_eq_true] using full)

end

/-- Settles O37: the checks of an operation on a named model by `loadNamedCheck_named`, a COMMIT by the `commitModel` lemmas. -/
theorem modelsLoadInSteps : Obligations.ModelsLoadInSteps := by
  unfold Obligations.ModelsLoadInSteps
  intro c d k ps inp s t
  refine ⟨fun due go => next_begin due go rfl, fun due go => next_begin due go rfl,
    fun m model => ⟨?commit, ?unload, ?reset, ?read⟩⟩
  case commit =>
    intro due params own loading
    have go : loadNamedCheck (fun m => [(m.ready, stBadParam)]) k ps s = .go := by
      simp only [loadNamedCheck_named model _ params own, loading, firstFail, Bool.false_eq_true, if_false]
    refine ⟨?good, fun bad => next_begin due go (commitModel_bad model bad)⟩
    intro written good m' room
    exact ⟨rfl, rfl, rfl, fun fits => next_begin due go (commitModel_ready model written good fits),
      fun full => next_begin due go (commitModel_noRoom model written good full)⟩
  case unload =>
    intro due params own unpinned idle
    refine next_begin due ?_ rfl
    simp only [loadNamedCheck_named model _ params own, unpinned, idle, firstFail, Bool.or_self, Bool.false_eq_true, if_false]
  case reset =>
    intro due params own ready known
    refine next_begin due ?_ rfl
    simp only [loadNamedCheck_named model _ params own, ready, Option.isNone_eq_false_iff.2 (Option.isSome_iff_ne_none.2 known),
      firstFail, Bool.not_true, Bool.false_eq_true, if_false]
  case read =>
    intro due params own ready known room
    refine next_begin due ?_ (by simp only [getModel_running, model]; rfl)
    simp only [loadNamedCheck_named model _ params own, ready, Option.isNone_eq_false_iff.2 (Option.isSome_iff_ne_none.2 known),
      Nat.not_lt.2 room, firstFail, decide_false, Bool.or_self, Bool.not_true, Bool.false_eq_true, if_false]

/-! MODEL_RUN and MODEL_PIN (R282, R283, R285, R289–R291). -/

/-- A run outside any composition starts with its input at hand, or waits for the block of the stage before (R282, R285). -/
theorem beginRun_alone {resultOk : Bool} (alone : k.epoch = 0) : beginRun resultOk k ps inp s =
    feedRuns (onTil (fun x => { x with runs := x.runs ++ [{
      ref := k.ref, part := cmdPart k, ctx := k.queue.q, handle := k.handle, rows := runRows ps, srcBulk := runSrcBulk ps,
      dstBulk := runDstBulk ps, seq := runSeq ps, comp := 0, input := if runSrcBulk ps then none else parseAct inp 0,
      outs := [], picked := [], steps := [], sending := false, slot := 0, resultOk := resultOk, bad := none }] }) s) := by
  simp only [beginRun, cmdGate, if_pos alone]

/-- Settles O38: each command begins where its checks pass; a run by `beginRun_alone`. -/
theorem modelsRunAndArePinned : Obligations.ModelsRunAndArePinned := by
  unfold Obligations.ModelsRunAndArePinned
  intro c d k ps inp s t
  exact ⟨fun due go alone => next_begin due go (beginRun_alone alone), fun due go => next_begin due go rfl,
    fun due go => next_begin due go rfl⟩

end Sys2Proof.Machine
end

section
/-!
PROOFS. Fills of the shelf: what a waiting step or a PIN makes of its layer's image, and the end of a fill (R289–R291, R293).
-/
namespace Sys2Proof.Machine

variable {c : CmdRef} {i h : ℕ} {r : Run} {m : Model} {st : Step} {s : State}

/-! A step that waits (R289, R290). -/

section
variable (run : getModelRun c s = some r) (step : getStep c i s = some st) (model : getModel r.handle s = some m)
  (waits : st.use = .pending)
include run step model waits

/-- It joins a fill of its layer. -/
theorem stepFill_joins (image : shelfImage r.handle i s ≠ none) :
    stepFill c i s = onStep c i (fun x => { x with use := .shelf }) s := by
  simp only [stepFill, run, step, model, waits, bne_self_eq_false, Bool.false_eq_true, if_false,
    Option.isSome_iff_ne_none.2 image, if_true]

variable (absent : shelfImage r.handle i s = none)
include absent

/-- Where there is none, it starts one when eviction makes room, -/
theorem stepFill_starts (room : (startFill r.handle i m s).2 = true) :
    stepFill c i s = onStep c i (fun x => { x with use := .shelf }) (startFill r.handle i m s).1 := by
  simp only [stepFill, run, step, model, waits, bne_self_eq_false, Bool.false_eq_true, if_false, absent, Option.isSome_none,
    room, if_true]

/-- and streams when it does not. -/
theorem stepFill_streams (full : (startFill r.handle i m s).2 = false) :
    stepFill c i s = onStep c i (fun x => { x with use := .stream })
      (onShf m.part (fun k => { k with streamed := wrap64 (k.streamed + 1) }) (startFill r.handle i m s).1) := by
  simp only [stepFill, run, step, model, waits, bne_self_eq_false, Bool.false_eq_true, if_false, absent, Option.isSome_none, full]

end

/-- A command that runs no model has no step that waits. -/
theorem stepFill_of_not_run (other : getModelRun c s = none) : stepFill c i s = s := by
  simp only [stepFill, other]

/-! A PIN (R291). -/

theorem pinFill_of_not_pin (other : s.til.pins.find? (·.ref == c) = none) : pinFill c i s = s := by
  simp only [pinFill, other]

/-- A PIN starts a fill of an eligible layer that has no image. -/
theorem pinFill_starts {k : PinCmd} (pin : s.til.pins.find? (·.ref == c) = some k) (model : getModel k.handle s = some m)
    (fits : eligible m i s = true) (layer : i < m.layers) (absent : shelfImage k.handle i s = none) :
    pinFill c i s = (startFill k.handle i m s).1 := by
  simp only [pinFill, pin, model, fits, layer, absent, decide_true, Option.isNone_none, Bool.and_self, if_true]

/-! The end of a fill (R289, R291, R293). -/

section
variable {x : ShelfImg} (image : shelfImage h i s = some x) (filling : x.filling = true)
include image filling

/-- An image whose fill ends is resident and counted, and the PINs that waited for it complete. -/
theorem endFill_resident : endFill h i s =
    settlePins (onShf x.part (fun c => { c with fillBytes := wrap64 (c.fillBytes + x.bytes) })
      (onTil (fun t => { t with shelf := updWhere (· == x) (fun y => { y with filling := false }) t.shelf }) s)) := by
  simp only [endFill, image, filling, Bool.not_true, Bool.false_eq_true, if_false]

variable {ecc : EccOutcome} {place : MemPlace} {t : State}

/-- A fill whose last word is not lost ends. -/
theorem fillEnds_whole (read : dramRead ((fillUsers h i s).head?.bind fun c => findCmd c s) ecc place s = (t, none)) :
    fillEnds h i ecc place s = endFill h i t := by
  simp only [fillEnds, image, filling, Option.any_some, Bool.not_true, Bool.false_eq_true, if_false, read]

/-- One that met a lost word ends what reads the image. -/
theorem fillEnds_lost {seq : ℕ} {dropped : Bool}
    (read : dramRead ((fillUsers h i s).head?.bind fun c => findCmd c s) ecc place s = (t, some (seq, dropped))) :
    fillEnds h i ecc place s = fillLost h i seq dropped t := by
  simp only [fillEnds, image, filling, Option.any_some, Bool.not_true, Bool.false_eq_true, if_false, read]

end

/-- Settles O40: a step that waits by the `stepFill` lemmas, a PIN by the `pinFill` lemmas, the end of a fill by what its last read
brought. -/
theorem shelfFillsServeSteps : Obligations.ShelfFillsServeSteps := by
  unfold Obligations.ShelfFillsServeSteps
  refine ⟨?step, fun c i s => pinFill_of_not_pin, ?pin, ?ends⟩
  case step =>
    intro c i r st m s run step model waits f go
    have fills {t : State} (filled : stepFill c i s = t) : exec (.shelfFill c i) s = go t :=
      congrArg (fun t => Host.Outcome.next (pinFill c i t)) filled
    exact ⟨fun image => fills (stepFill_joins run step model waits image), fun absent =>
      ⟨fun room => fills (stepFill_starts run step model waits absent room),
        fun full => fills (stepFill_streams run step model waits absent full)⟩⟩
  case pin =>
    intro c i k m s other pin model fits layer absent
    have unchanged : stepFill c i s = s := stepFill_of_not_run other
    change Host.Outcome.next (pinFill c i (stepFill c i s)) = _
    rw [unchanged, pinFill_starts pin model fits layer absent]
  case ends =>
    intro h i x ecc place s image filling read
    exact ⟨fun whole => congrArg Host.Outcome.next (fillEnds_whole image filling (Prod.ext rfl whole)),
      fun seq dropped lost => congrArg Host.Outcome.next (fillEnds_lost image filling (Prod.ext rfl lost)),
      endFill_resident image filling⟩

end Sys2Proof.Machine
end

section
/-!
PROOFS. The instructions of a tile: control and scalar instructions, transfers, and what MMA, EPI and VEC write (R268, R270–R275).
-/
namespace Sys2Proof.Machine

variable {t opc : ℕ} {fields : List (ℕ × ℕ × ℕ)} {x : TileCtx} {s : State}

/-- Settles O41: an instruction that may issue has its effect past its word, by `next_tileIssue`. -/
theorem tileProgramsAreDirected : Obligations.TileProgramsAreDirected := by
  unfold Obligations.TileProgramsAreDirected
  intro t x s w put
  refine ⟨?nop, ?ends, ?bar, ?loop, ?brz, ?wait, ?sadd, ?scalarImm⟩
  case nop => exact fun h => next_tileIssue h rfl
  case ends => exact fun h => next_tileIssue h rfl
  case bar => exact fun h => next_tileIssue h rfl
  case loop => exact fun sd target h => next_tileIssue h rfl
  case brz => exact fun sd target h => next_tileIssue h rfl
  case wait =>
    intro mask h
    exact (next_tileIssue h rfl).trans (apply_ite Host.Outcome.next _ _ _)
  case sadd => exact fun sd sa sb h => next_tileIssue h rfl
  case scalarImm =>
    intro sd sa imm can
    exact ⟨fun h => next_tileIssue h rfl, fun h => next_tileIssue h rfl, fun h => next_tileIssue h rfl⟩

/-! Transfers (R270, R274, R289). -/

section
variable {out : Bool} {arr sa token len saddr : ℕ}
  (h : TileIssuing t (if out then 0x09 else 0x08) [(55, 52, arr), (51, 48, sa), (47, 44, token), (43, 30, len), (29, 16, saddr)] x s)
include h

/-- A transfer of a layer array waits while the step's fill is not decided. -/
theorem tileDma_waits (pending : x.step.use = .pending) (ofLayer : arr < 4) : tileDma t out arr sa token len saddr s = s := by
  simp only [tileDma, tileIssue_acts h, pending, ofLayer, beq_self_eq_true, decide_true, Bool.and_self, if_true]

/-- Any other is a fault, or joins the outstanding ones. -/
theorem tileDma_decided (decided : ¬(x.step.use = .pending ∧ arr < 4)) : tileDma t out arr sa token len saddr s =
    let d : TileDma := { out := out, arr := arr, off := sreg x.work sa, len := lenOf len, saddr := saddr, token := token }
    if dmaBad x d then tileFault x s else setWork x { pastWord x with dmas := x.work.dmas ++ [d] } s := by
  simp only [tileDma, tileIssue_acts h]
  exact if_neg (by simpa only [Bool.and_eq_true, beq_iff_eq, decide_eq_true_eq] using decided)

end

section
variable {token : ℕ} {d : TileDma} {ecc : EccOutcome} {place : MemPlace} (works : tileCtx t s = some x)
  (found : (x.work.dmas.find? fun d => d.token == token && dmaReady x d) = some d)
include works found

/-- A transfer whose codewords end its command moves nothing (R261). -/
theorem tileDmaDone_lost (lost : (dmaEcc x d ecc place s).2 = false) :
    tileDmaDone t token ecc place s = (dmaEcc x d ecc place s).1 := by
  simp only [tileDmaDone, works, found, lost, Bool.not_false, if_true]

/-- Any other moves its bytes (R268). -/
theorem tileDmaDone_moves {y : TileCtx} (goesOn : (dmaEcc x d ecc place s).2 = true)
    (still : tileCtx t (dmaEcc x d ecc place s).1 = some y) : tileDmaDone t token ecc place s =
      setStep y (finishDma y d).1 (finishDma y d).2 (dmaEcc x d ecc place s).1 := by
  simp only [tileDmaDone, works, found, goesOn, still, Bool.not_true, Bool.false_eq_true, if_false]

end

/-- Clean words from the shelf change nothing beside the transfer (R289). -/
theorem dmaEcc_shelf_clean {d : TileDma} (place : MemPlace) (shelf : x.step.use = .shelf) (ofLayer : d.arr < 4) :
    dmaEcc x d .clean place s = (s, true) := by
  simp only [dmaEcc, shelf, ofLayer, beq_self_eq_true, decide_true, Bool.and_self, if_true]

/-! MMA and VEC (R271, R273, R274). -/

/-- An instruction that does not fit its tile is a fault; one that does acts. -/
theorem next_tileIssue_fits {fits : Bool} {act : TileCtx → TileWork → State → State} (h : TileIssuing t opc fields x s)
    {f : TileCtx → TileWork → State → State}
    (acts : f x (pastWord x) s = if !fits then tileFault x s else act x (pastWord x) s) :
    (fits = true → (.next (tileIssue t opc fields f s) : Host.Outcome State Fault Refusal) = .next (act x (pastWord x) s)) ∧
    (fits = false → (.next (tileIssue t opc fields f s) : Host.Outcome State Fault Refusal) = .next (tileFault x s)) := by
  refine ⟨fun ok => next_tileIssue h (acts.trans ?_), fun bad => next_tileIssue h (acts.trans ?_)⟩
  · rw [ok]; rfl
  · rw [bad]; rfl

/-- Settles O42: a transfer's issue by the `tileDma` lemmas, its end by the `tileDmaDone` lemmas; MMA and VEC by whether they fit. -/
theorem tilesMoveAndCompute : Obligations.TilesMoveAndCompute := by
  unfold Obligations.TilesMoveAndCompute
  intro t x s
  refine ⟨?issues, ?completes, ?mma, ?epi, ?vec⟩
  case issues =>
    intro out arr sa token len saddr h row d
    have issues : exec row s = .next (tileDma t out arr sa token len saddr s) := by cases out <;> rfl
    rw [issues]
    refine ⟨fun pending ofLayer => congrArg _ (tileDma_waits h pending ofLayer), fun decided => ?_⟩
    rw [tileDma_decided h decided]
    exact ⟨fun bad => congrArg _ (if_pos bad), fun fits => congrArg _ (if_neg (Bool.eq_false_iff.1 fits))⟩
  case completes =>
    intro token d ecc place works found u
    refine ⟨fun lost => congrArg _ (tileDmaDone_lost works found lost),
      fun y goesOn still => congrArg _ (tileDmaDone_moves works found goesOn still), ?_⟩
    rintro rfl shelf ofLayer
    have clean : dmaEcc x d .clean place s = (s, true) := dmaEcc_shelf_clean place shelf ofLayer
    have moves := tileDmaDone_moves (y := x) (ecc := .clean) (place := place) works found
    rw [clean] at moves
    exact congrArg _ (moves rfl works)
  case mma =>
    intro waddr aaddr rows acc kb zero h o r
    exact next_tileIssue_fits (act := fun x w s => setStep x (mma x.ctx o x.int w).1
      { x.step with accSat := x.step.accSat + (mma x.ctx o x.int w).2 } s) h rfl
  case epi => exact fun oaddr rows acc fn bias baddr raw h => next_tileIssue h rfl
  case vec =>
    intro daddr xaddr yaddr fn h o r
    exact next_tileIssue_fits (act := fun x w s => setStep x (vec x.ctx o w x.step).1 (vec x.ctx o w x.step).2 s) h rfl

end Sys2Proof.Machine
end

section
/-!
PROOFS. Commands on embedding tables: their begin, the rows their service jobs reach, their ends, and the close of a step (R303–R314,
R317).
-/
namespace Sys2Proof.Machine

variable {e : EmbCmd} {tab : Tab} {p n : ℕ} {bs : List Byte} {s : State}

section
variable {d : CmdIn} {rows : List ℕ} (table : getTab e.handle s = some tab) (clean : d.ecc = .clean)
include table clean

/-- A begun command whose words are clean joins its table's commands with its copies, and its fetches are sent (R305, R311). -/
theorem beginEmb_clean : beginEmb e d rows s =
    let e := { takeCopies e tab with asked := rows }
    settleAllEmb (sendFetches e tab.desc rows (onEmb (fun x => { x with cmds := x.cmds ++ [e] }) s)) := by
  simp only [beginEmb, clean, table]

/-- So does a due one whose checks pass. -/
theorem next_beginEmb {op : ℕ} {form : List Byte → Bool} {c : CmdRef} {k : Cmd} {ps inp : List Byte}
    {check : Cmd → List Byte → List Byte → State → Verdict} {act : Cmd → List Byte → List Byte → State → State}
    (due : Due op form c d k ps inp s) (pass : check k ps inp s = .go)
    (acts : act k ps inp (running c s) = beginEmb e d rows (running c s)) :
    (.next (begin op form c d check act s) : Host.Outcome State Fault Refusal) =
      let e := { takeCopies e tab with asked := rows }
      .next (settleAllEmb (sendFetches e tab.desc rows (onEmb (fun x => { x with cmds := x.cmds ++ [e] }) (running c s)))) :=
  next_begin due pass (acts.trans (beginEmb_clean (s := running c s) table clean))

end

/-! What a command does once it awaits no row, and once its jobs are done (R306, R307, R311, R317). -/

/-- The jobs of a started command are not made again. -/
theorem jobsWait_of_started (started : e.started = true) : jobsWait e = false := by
  simp only [jobsWait, started, Bool.not_true, Bool.and_false]

section
variable (table : getTab e.handle s = some tab)
include table

theorem settleOne_startsJobs (here : e.awaits = []) (fresh : e.started = false) :
    settleOne e s = startJobs e tab.desc (jobRows tab.desc e).1 (jobRows tab.desc e).2 s := by
  simp only [settleOne, table, jobsWait, here, fresh, List.isEmpty_nil, Bool.not_false, Bool.and_self, if_true]

variable (started : e.started = true)
include started

theorem settleOne_pool (kind : e.kind = .pool) : settleOne e s = endPool e tab s := by
  simp [settleOne, table, jobsWait_of_started started, kind]

theorem settleOne_dump (kind : e.kind = .dump) : settleOne e s = endDump e tab s := by
  simp [settleOne, table, jobsWait_of_started started, kind]

theorem settleOne_load (kind : e.kind = .load) : settleOne e s = completeSt e.ref stOk (dropEmb e.ref s) := by
  simp [settleOne, table, jobsWait_of_started started, kind]

theorem settleOne_update (kind : e.kind = .update) : settleOne e s = endUpdate e tab s := by
  simp [settleOne, table, jobsWait_of_started started, kind]

theorem settleOne_replica (kind : e.kind = .install ∨ e.kind = .drop ∨ e.kind = .refresh) : settleOne e s = endReplica e s := by
  rcases kind with kind | kind | kind <;> simp [settleOne, table, jobsWait_of_started started, kind]

end

/-- An update whose contributions do not fit the ledger adds none (R311). -/
theorem endUpdate_full (full : ledgerWith tab (contributions tab.desc e) = none) :
    endUpdate e tab s = completeSt e.ref stNoResource (dropEmb e.ref s) := by
  simp only [endUpdate, full]

/-- One whose contributions fit adds them (R311). -/
theorem endUpdate_adds {l : Table (List W32)} (fits : ledgerWith tab (contributions tab.desc e) = some l) :
    endUpdate e tab s = completeSt e.ref stOk (dropEmb e.ref (addToLedger e (contributions tab.desc e) l s)) := by
  simp only [endUpdate, fits]

/-! The rows that activations reach (R305–R308, R312, R317). -/

section
variable (table : getTab e.handle s = some tab)
include table

theorem workRow_lookup (kind : e.kind = .pool ∨ e.kind = .update) :
    workRow e s (p, n) = seeRow e.ref p ((rowSource tab e.step e.copies p).getD []) s := by
  rcases kind with kind | kind <;> simp only [workRow, table, kind]

theorem workRow_dump (kind : e.kind = .dump) : workRow e s (p, n) = seeRow e.ref p (rowRec tab p) s := by
  simp only [workRow, table, kind]

theorem workRow_load (kind : e.kind = .load) :
    workRow e s (p, n) = onTab e.handle (putRec p (loadRec tab.desc e p n)) s := by
  simp only [workRow, table, kind]

/-- A close past its commit point updates the row from its sum in the ledger. -/
theorem workRow_commit {g : List W32} (kind : e.kind = .close) (committed : e.phase = .commit) (sum : tget? tab.ledger p = some g) :
    workRow e s (p, n) = onEmbCmd e.ref (fun x => { x with picked := x.picked ++ [p] })
      (onEmbCounts e.part (fun x => { x with updated := wrap64 (x.updated + 1) })
        (onTab e.handle (fun t => putRec p (updateRec t.desc e.hyper e.step (rowRec t p) g) t) s)) := by
  simp only [workRow, table, kind, committed, if_true, updateRow, sum]

variable (came : tget? e.copies p = some bs)
include came

/-- An INSTALL writes a row that has come into its copy slot. -/
theorem workRow_install (kind : e.kind = .install) :
    workRow e s (p, n) = onEmbCmd e.ref (fun y => { y with done := y.done + 1, asked := y.asked.erase p })
      (onTab e.handle (fun t => { t with copies := tput t.copies p bs }) s) := by
  simp only [workRow, table, kind, came]

/-- A REFRESH does so for a row that still has a slot. -/
theorem workRow_refresh (kind : e.kind = .refresh) (held : (tget? tab.copies p).isSome = true) :
    workRow e s (p, n) = onEmbCmd e.ref (fun y => { y with done := y.done + 1 })
      (onTab e.handle (fun t => { t with copies := tput t.copies p bs }) s) := by
  have kept : tget? tab.copies p ≠ none := Option.isSome_iff_ne_none.1 held
  simp only [workRow, table, kind, came, Option.isNone_iff_eq_none, kept, if_false]

end

/-! The close of a step (R309, R312). -/

/-- A close whose turn it is adds its bags, closes its table and sends its gradient sets. -/
theorem startClose_begins {c : CmdRef} {lost : List (ℕ × MemPlace)} {l : Table (List W32)} (cmd : getEmb c s = some e)
    (table : getTab e.handle s = some tab) (kind : e.kind = .close) (waiting : e.phase = .waiting) (here : e.awaits = [])
    (started : e.started = true) (done : e.jobs = []) (turn : stepBusy e s = false) (next : stepRule tab e.step = .go)
    (fits : ledgerWith tab (contributions tab.desc e) = some l) :
    startClose c lost s = settleSets c lost (sendSets 0x0A { e with phase := .sets } tab.desc (fun k =>
      (l.filter fun x => x.1 % tab.desc.shards == k).map fun x => leBytes 8 x.1 ++ elemsOut tab.desc.elem x.2)
      (onEmbCmd c (fun x => { x with phase := .sets }) (onTab e.handle (fun t => { t with closing := true })
        (addToLedger e (contributions tab.desc e) l s)))) := by
  simp [startClose, cmd, table, kind, waiting, here, started, done, turn, next, fits]

/-- The table of a close that is done: OPEN at the step closed, without what only that step or an earlier one held (R312). -/
def afterClose (e : EmbCmd) (t : Tab) : Tab :=
  { t with
    step := e.step, closing := false, fetched := [], ledger := [], adds := []
    sets := t.sets.filter fun x => 65536 * (e.step + 1) ≤ x.1
    setsDone := t.setsDone.filter fun x => 65536 * (e.step + 1) ≤ x
    refreshed := t.refreshed.filter fun x => 65536 * (e.step + 1) ≤ x }

/-- A close that lost no word and no shard completes OK. -/
theorem finishClose_ok (whole : e.bad = none) (all : e.shardLost = false) :
    finishClose e s = complete e.ref stOk e.done e.step [] (dropEmb e.ref (onTab e.handle (afterClose e) s)) := by
  simp only [finishClose, whole, all, Bool.false_eq_true, if_false]
  rfl

/-- Settles O43: a command begins by `next_beginEmb`; what it does next by the `settleOne` lemmas, at a row by the `workRow` lemmas;
the close of a step by `startClose_begins` and `finishClose_ok`. -/
theorem tableCommandsReadAndUpdateRows : Obligations.TableCommandsReadAndUpdateRows := by
  unfold Obligations.TableCommandsReadAndUpdateRows
  refine ⟨?begins, ?settles, ?rows, ?closes, fun e s => finishClose_ok⟩
  case begins =>
    intro c d k ps inp tab s table clean t go
    refine ⟨fun due pass => ?pool, fun due pass => ?dump, fun due pass => ?update, fun due pass => ?close, fun due pass => ?load⟩
    case pool => exact next_beginEmb table clean due pass (by simp only [poolFetch, getTab_running, table])
    case dump => exact next_beginEmb table clean due pass rfl
    case update => exact next_beginEmb table clean due pass (by simp only [getTab_running, table])
    case close => exact next_beginEmb table clean due pass (by simp only [getTab_running, table])
    case load => exact next_beginEmb table clean due pass rfl
  case settles =>
    intro e tab s table
    exact ⟨settleOne_startsJobs table, fun started => ⟨settleOne_pool table started, settleOne_dump table started,
      settleOne_load table started, fun kind full => (settleOne_update table started kind).trans (endUpdate_full full),
      fun l kind fits => (settleOne_update table started kind).trans (endUpdate_adds fits)⟩⟩
  case rows =>
    intro e tab p n s table
    exact ⟨workRow_lookup table, workRow_dump table, workRow_load table, fun g => workRow_commit table⟩
  case closes =>
    intro c lost e tab l s cmd table kind waiting here started done turn next fits cs
    exact congrArg Host.Outcome.next (startClose_begins cmd table kind waiting here started done turn next fits)

end Sys2Proof.Machine
end

section
/-!
PROOFS. Messages of embedding tables: fetches, gradient and refresh sets, grants, and the answers that a command takes (R305, R312,
R315–R317).
-/
namespace Sys2Proof.Machine

variable {m : Msg} {c : Comp} {tab : Tab} {s t : State}

/-- A request this node serves, as an outcome. -/
theorem next_handleReq {kind compKind src msg : ℕ} {run : Msg → Comp → State → State} (serves : Serves kind compKind src msg m c s)
    (runs : run m c (unholdMsg m (noted m s)) = t) :
    (.next (handleReq kind compKind src msg run s) : Host.Outcome State Fault Refusal) = .next t :=
  congrArg Host.Outcome.next ((handleReq_serves serves run).trans runs)

/-- An answer of a request record, as an outcome. -/
theorem next_handleRsp {kind src msg : ℕ} {r : Req} {run : Req → Msg → State → State} (answers : Answers kind src msg r m s)
    (runs : run r m (dropReq r.id (takeMsg m s)) = t) :
    (.next (handleRsp kind src msg run s) : Host.Outcome State Fault Refusal) = .next t :=
  congrArg Host.Outcome.next ((handleRsp_answers answers run).trans runs)

/-! What a table makes of a request. -/

section
variable (table : getTab c.handle s = some tab)
include table

/-- A fetch of no step, or of the open one, is answered with the rows owned of those listed (R305). -/
theorem serveFetch_answers (current : m.seq = 0 ∨ (m.seq = tab.step + 1 ∧ pastCommit c.handle s = false)) : serveFetch m c s =
    respond m stOk m.epoch m.slot m.seq (rowEntries tab ((bodyRows 0 m.body).filter (ownsRow tab.desc))) s := by
  simp only [serveFetch, table]
  rcases current with stepFree | ⟨next, uncommitted⟩
  · rw [if_pos stepFree]
  · simp only [next, uncommitted, Nat.add_one_ne_zero, Bool.not_false, and_self, if_true, if_false]

/-- One of a later step is kept. -/
theorem serveFetch_keeps (later : tab.step + 1 < m.seq) : serveFetch m c s = holdMsg m s := by
  have ofStep : m.seq ≠ 0 := by omega
  have other : m.seq ≠ tab.step + 1 := by omega
  simp only [serveFetch, table, ofStep, other, later, false_and, if_true, if_false]

/-- One of a closed step is stale. -/
theorem serveFetch_stale (positive : 0 < m.seq) (closed : m.seq ≤ tab.step) : serveFetch m c s = respondSt m stStale s := by
  have other : m.seq ≠ tab.step + 1 := by omega
  have notLater : ¬tab.step + 1 < m.seq := by omega
  simp only [serveFetch, table, positive.ne', other, notLater, false_and, if_false]

variable {lost : List (ℕ × MemPlace)}

/-- A gradient set of a closed step, or taken before, is only acknowledged (R312). -/
theorem takeGset_known (known : m.seq ≤ tab.step ∨ tab.setsDone.contains (setKey m.seq (shardOfNode c m.src)) = true) :
    takeGset lost m c s = respondSt m stOk s := by
  simp only [takeGset, table, Bool.or_eq_true, decide_eq_true_eq, known, if_true]

/-- A refresh set too (R316). -/
theorem takeRset_known (known : m.seq ≤ tab.step ∨ tab.refreshed.contains (setKey m.seq (shardOfNode c m.src)) = true) :
    takeRset m c s = respondSt m stOk s := by
  simp only [takeRset, table, Bool.or_eq_true, decide_eq_true_eq, known, if_true]

end

/-- A table with the gradients of a message: its set is whole with the first message that is not full (R312). -/
def withGradients (m : Msg) (c : Comp) (es : List (ℕ × List Byte)) (t : Tab) : Tab :=
  let key := setKey m.seq (shardOfNode c m.src)
  { t with
    sets := tput t.sets key ((tget? t.sets key).getD [] ++ es)
    setsDone := if es.length < rowsPerMsg t.desc then t.setsDone ++ [key] else t.setsDone }

/-- A table with the rows of a refresh message, each where a copy has a slot (R316). -/
def withRefreshes (m : Msg) (c : Comp) (es : List (ℕ × List Byte)) (t : Tab) : Tab :=
  { t with
    copies := es.foldl (fun f x => if (tget? f x.1).isSome then tput f x.1 x.2 else f) t.copies
    refreshed := if es.length < rowsPerMsg t.desc then t.refreshed ++ [setKey m.seq (shardOfNode c m.src)] else t.refreshed }

/-- The close of a table that is at a phase, if there is one, goes on. -/
def closeGoesOn (h : ℕ) (phase : ClosePhase) (go : EmbCmd → State → State) (s : State) : State :=
  match s.emb.cmds.find? fun e => e.handle == h && e.kind == .close && e.phase == phase with
  | none => s
  | some e => go e s

section
variable (table : getTab c.handle s = some tab) (later : tab.step < m.seq)
include table later

/-- A new gradient set is acknowledged and added, and the close that waits for it goes on. -/
theorem takeGset_adds (lost : List (ℕ × MemPlace)) (new : tab.setsDone.contains (setKey m.seq (shardOfNode c m.src)) = false) :
    takeGset lost m c s =
      closeGoesOn c.handle .sets (fun e => settleSets e.ref lost)
        (onTab c.handle (withGradients m c (bodyEntries tab.desc m.body)) (respondSt m stOk s)) := by
  simp only [takeGset, table, new, Nat.not_le.2 later, decide_false, Bool.or_self, Bool.false_eq_true, if_false]
  rfl

/-- A new refresh set likewise. -/
theorem takeRset_adds (new : tab.refreshed.contains (setKey m.seq (shardOfNode c m.src)) = false) :
    takeRset m c s =
      closeGoesOn c.handle .refresh (fun e => settleRefresh e.ref)
        (onTab c.handle (withRefreshes m c (bodyEntries tab.desc m.body)) (respondSt m stOk s)) := by
  simp only [takeRset, table, new, Nat.not_le.2 later, decide_false, Bool.or_self, Bool.false_eq_true, if_false]
  rfl

end

/-- A request about replicas is kept while its table closes (R317). -/
theorem serveRepl_keeps (table : getTab c.handle s = some tab) (closing : tab.closing = true) : serveRepl m c s = holdMsg m s := by
  simp only [serveRepl, table, closing, if_true]

/-- The rows owned here of those that a request about replicas names. -/
def ownedRows (m : Msg) (tab : Tab) : List ℕ := (bodyRows 8 m.body).filter (ownsRow tab.desc)

section
variable (table : getTab c.handle s = some tab) (opened : tab.closing = false)
include table opened

/-- OP 0: the owner notes the holders it grants, and answers their rows (R315). -/
theorem serveRepl_install (op : field m.body 0 8 = 0) : serveRepl m c s =
    let g := grantRows (shardOfNode c m.src) (1048576 - (dirCopies s + dirHolders s)) (ownedRows m tab) tab
    respond m stOk m.epoch m.slot m.seq (rowEntries tab g.2) (onTab c.handle (fun _ => g.1) s) := by
  simp only [serveRepl, table, opened, op, Bool.false_eq_true, if_false, if_true]
  rfl

/-- OP 1: it drops the holder. -/
theorem serveRepl_drop (op : field m.body 0 8 = 1) : serveRepl m c s =
    respond m stOk m.epoch m.slot m.seq ((ownedRows m tab).flatMap (leBytes 8))
      (onTab c.handle (dropHolder (shardOfNode c m.src) (ownedRows m tab)) s) := by
  simp only [serveRepl, table, opened, op, Bool.false_eq_true, if_false, one_ne_zero, if_true]
  rfl

/-- Any other: it answers the rows. -/
theorem serveRepl_refresh (op : 2 ≤ field m.body 0 8) : serveRepl m c s =
    respond m stOk m.epoch m.slot m.seq (rowEntries tab (ownedRows m tab)) s := by
  have notInstall : field m.body 0 8 ≠ 0 := by omega
  have notDrop : field m.body 0 8 ≠ 1 := by omega
  simp only [serveRepl, table, opened, notInstall, notDrop, Bool.false_eq_true, if_false]
  rfl

end

/-! What a command makes of an owner's answer (R305, R317). -/

/-- Rows that have come put into a table of rows. -/
def putRows (es : List (ℕ × List Byte)) (f : Table (List Byte)) : Table (List Byte) := es.foldl (fun f x => tput f x.1 x.2) f

/-- Rows that have come for a command are counted, and no longer asked for. -/
def rowsCame (e : EmbCmd) (c : CmdRef) (es : List (ℕ × List Byte)) (s : State) : State :=
  onEmbCmd c (fun e => { e with asked := e.asked.filter fun p => !es.any fun x => x.1 == p })
    (onEmbCounts e.part (fun x => { x with fetched := wrap64 (x.fetched + es.length) }) s)

section
variable {r : Req} {c : CmdRef} {e : EmbCmd} (waiter : r.waiter = .command c) (cmd : getEmb c s = some e)
  (table : getTab e.handle s = some tab) (ok : m.status = stOk)
include waiter cmd table ok

/-- Fetched rows of STEP 0 are the command's, -/
theorem takeRows_free (free : e.step = 0) : takeRows r m s = settleAllEmb (unawait c r.msg.slot
    (onEmbCmd c (fun e => { e with copies := putRows (bodyEntries tab.desc m.body) e.copies })
      (rowsCame e c (bodyEntries tab.desc m.body) s))) := by
  simp only [takeRows, waiter, cmd, table, ok, ne_eq, not_true, if_false, free, if_true]
  rfl

/-- those of another step its table's. -/
theorem takeRows_step (step : e.step ≠ 0) : takeRows r m s = settleAllEmb (unawait c r.msg.slot
    (onTab e.handle (fun t => { t with fetched := putRows (bodyEntries tab.desc m.body) t.fetched })
      (rowsCame e c (bodyEntries tab.desc m.body) s))) := by
  simp only [takeRows, waiter, cmd, table, ok, ne_eq, not_true, if_false, step]
  rfl

/-- An owner's answer to a DROP counts its rows, -/
theorem takeRepl_drop (kind : e.kind = .drop) : takeRepl r m s = settleAllEmb (unawait c r.msg.slot
    (onEmbCmd c (fun x => { x with done := x.done + (bodyRows 0 m.body).length }) s)) := by
  simp [takeRepl, waiter, cmd, table, ok, kind, stOk, stNotOwner, stRedirect]

/-- and to another command brings rows that it keeps. -/
theorem takeRepl_keeps (kind : e.kind ≠ .drop) : takeRepl r m s = settleAllEmb (unawait c r.msg.slot
    (onEmbCmd c (fun x => { x with copies := putRows (bodyEntries tab.desc m.body) x.copies }) s)) := by
  simp [takeRepl, waiter, cmd, table, ok, kind, stOk, stNotOwner, stRedirect, putRows]

end

/-- Settles O44: a replica command begins where its checks pass; a request is what the lemmas above make of it on the state past its
arrival, an answer likewise past its record; at a row and at its end a replica command is one of its table's. -/
theorem tablesExchangeRows : Obligations.TablesExchangeRows := by
  unfold Obligations.TablesExchangeRows
  refine ⟨?begins, ?requests, ?answers, ?rows⟩
  case begins =>
    intro c d k ps inp s pass t
    exact ⟨fun due => next_begin due pass rfl, fun due => next_begin due pass rfl, fun due => next_begin due pass rfl⟩
  case requests =>
    intro src msg m c tab s table t
    refine ⟨?fetch, ?gset, ?rset, ?repl⟩
    case fetch =>
      intro serves
      exact ⟨fun current => next_handleReq serves (serveFetch_answers table current),
        fun later => next_handleReq serves (serveFetch_keeps table later),
        fun positive closed => next_handleReq serves (serveFetch_stale table positive closed)⟩
    case gset =>
      intro lost serves
      exact ⟨fun known => next_handleReq serves (takeGset_known table known),
        fun later new => next_handleReq serves (takeGset_adds table later lost new)⟩
    case rset =>
      intro serves
      exact ⟨fun known => next_handleReq serves (takeRset_known table known),
        fun later new => next_handleReq serves (takeRset_adds table later new)⟩
    case repl =>
      intro serves k rows g
      exact ⟨fun closing => next_handleReq serves (serveRepl_keeps table closing), fun opened =>
        ⟨fun op => next_handleReq serves (serveRepl_install table opened op),
          fun op => next_handleReq serves (serveRepl_drop table opened op),
          fun op => next_handleReq serves (serveRepl_refresh table opened op)⟩⟩
  case answers =>
    intro src msg r m c e tab s t waiter cmd table ok es into
    refine ⟨?fetched, ?granted⟩
    case fetched =>
      intro answers u
      exact ⟨fun free => next_handleRsp answers (takeRows_free waiter cmd table ok free),
        fun step => next_handleRsp answers (takeRows_step waiter cmd table ok step)⟩
    case granted =>
      intro answers
      exact ⟨fun kind => next_handleRsp answers (takeRepl_drop waiter cmd table ok kind),
        fun kind => next_handleRsp answers (takeRepl_keeps waiter cmd table ok kind)⟩
  case rows =>
    intro e tab bs p n s table
    exact ⟨fun kind came => workRow_install table came kind, fun kind came held => workRow_refresh table came kind held,
      fun started kind => settleOne_replica table started kind⟩

end Sys2Proof.Machine
end

section
/-!
PROOFS. A step as a whole, and the reads of a local counter through the latches of its readers (R465).
-/
namespace Sys2Proof.Machine

/-- Settles O1: the queue's front decides what `step` does. -/
theorem stepRunsTheFrontCommand : Obligations.StepRunsTheFrontCommand := by
  unfold Obligations.StepRunsTheFrontCommand
  intro i rest s
  rfl

/-- Settles O60: the next state comes from the state before it with the queue's rest, and what comes from a state keeps its queue,
adds to its record and does not lower its number. -/
theorem stepsConsumeAndRecord : Obligations.StepsConsumeAndRecord := by
  unfold Obligations.StepsConsumeAndRecord
  intro s t stepped
  have comes : Evolves { s with pending := s.pending.tail } t := evolves_of_step stepped
  exact ⟨comes.pending, comes.out, comes.free⟩

variable {r : Reader} {cycles : Bool} {s : State}

/-- The latch of a counter for a reader. -/
def latchOf (r : Reader) (cycles : Bool) (l : CountLatch) : Bool := l.reader == r && l.cycles == cycles

/-- A read of the high half gives the latched value, or without a latch the live one, and empties the latch (R465). -/
theorem latchCounter_high : latchCounter r cycles .high s =
    (((s.board.pwr.latches.find? (latchOf r cycles)).map (·.high)).getD (counterValue cycles s / 2 ^ 32),
      onPwr (fun p => { p with latches := p.latches.filter fun l => !latchOf r cycles l }) s) := rfl

/-- A reader that the counters answer gets the value read. -/
theorem exec_counterRead (answers : counterAnswers r s = true) {half : Half} {v : Nat} {t : State}
    (reads : latchCounter r cycles half s = (v, t)) : exec (.counterRead r cycles half) s = .next (emit (.counter r v) t) := by
  have answered : exec (.counterRead r cycles half) s = .next (readCounter r cycles half s) := congrArg _ (if_pos answers)
  rw [answered, readCounter, reads]

/-- Settles O12: which half is read decides what the latch gives and what becomes of it. -/
theorem counterReadsAreConsistent : Obligations.CounterReadsAreConsistent := by
  unfold Obligations.CounterReadsAreConsistent
  intro r cycles s answers v mine
  refine ⟨exec_counterRead answers rfl, exec_counterRead answers rfl, fun l held => ?full, fun unlatched => ?empty⟩
  case full =>
    have held' : s.board.pwr.latches.find? (latchOf r cycles) = some l := held
    exact exec_counterRead answers (by rw [latchCounter_high, held']; rfl)
  case empty =>
    have unlatched' : s.board.pwr.latches.find? (latchOf r cycles) = none := unlatched
    exact exec_counterRead answers (by rw [latchCounter_high, unlatched']; rfl)

end Sys2Proof.Machine
end

section
/-!
PROOFS. Contexts and gangs: what their commands and registers make of them, and how slices end, gangs switch and partitions quiesce
(R330–R333, R338, R339, R346).
-/
namespace Sys2Proof.Machine

variable {f : Fn} {p n v now : ℕ} {s t : State}

/-- A write that is of its row and reaches its register has its effect, as an outcome. -/
theorem next_write {off : ℕ} {c : Prop} {_ : Decidable c} {act : State → State} (row : c) (reaches : Reaches f off s) :
    (.next (if c then writeAt f off act s else s) : Host.Outcome State Fault Refusal) = .next (act s) := by
  rw [if_pos row, writeAt_reaches reaches]

/-! Commands and registers of contexts (R330, R333, R346). -/

/-- A write of PTN_CTX whose context exists, with a slice in range, stages what of its two fields is new. -/
theorem writeCtx_stages (ctx : tget? (getPtn p s).ctxs n ≠ none) (low : 50 ≤ bits v 13 0) (high : bits v 13 0 ≤ 10000) :
    writeCtx p n v s =
      let t := if bits v 27 24 = ctxGangField (getPtn p s) n then s
        else if ctxRunnable p n s then countPtnBusy p s else stage p (.ctxGang n (bits v 27 24)) s
      if bits v 13 0 = ctxSliceField (getPtn p s) n then t else stage p (.ctxSlice n (bits v 13 0)) t := by
  refine if_neg ?_
  simp only [Bool.or_eq_true, Option.isNone_iff_eq_none, decide_eq_true_eq, ctx, false_or, not_or, not_lt]
  exact ⟨low, high⟩

/-- Any other is discarded. -/
theorem writeCtx_discarded (bad : tget? (getPtn p s).ctxs n = none ∨ bits v 13 0 < 50 ∨ 10000 < bits v 13 0) :
    writeCtx p n v s = s := by
  refine if_pos ?_
  simpa only [Bool.or_eq_true, Option.isNone_iff_eq_none, decide_eq_true_eq, or_assoc] using bad

/-! Slices and stops of a running gang (R332, R338). -/

/-- A partition with its stop posted now: its slice ends 5 µs later. -/
def stopNow (p : ℕ) (s : State) : State := onPart p (fun x => { x with stop := some (timeUs s), sliceEnd := timeUs s + 5 }) s

section
variable (part : p < 64) (runs : (getPtn p (atTime now s)).state = .running) (unstopped : (getPtn p (atTime now s)).stop = none)
include part runs unstopped

/-- The slice of the only ready gang renews at its end, while nothing is staged. -/
theorem sliceEnd_renews (ended : (getPtn p (atTime now s)).sliceEnd ≤ timeUs (atTime now s))
    (ready : gangReady p (getPtn p (atTime now s)).gang (atTime now s) = true)
    (alone : nextGang p (getPtn p (atTime now s)).gang (atTime now s) = some (getPtn p (atTime now s)).gang)
    (nothing : (getPtn p (atTime now s)).staged = []) : exec (.sliceEnd p now) s = .next (onPart p (fun x => { x with
      sliceEnd := timeUs (atTime now s) + gangSlice p (getPtn p (atTime now s)).gang (atTime now s) }) (atTime now s)) := by
  refine congrArg Host.Outcome.next (if_pos ?_)
  simp [part, runs, unstopped, ended, ready, alone, nothing]

/-- A gang with nothing to do is stopped at once. -/
theorem stopPosted_idle (unready : gangReady p (getPtn p (atTime now s)).gang (atTime now s) = false) :
    exec (.stopPosted p now) s = .next (stopNow p (atTime now s)) := by
  have mine : (p < 64 && (getPtn p (atTime now s)).state == .running && (getPtn p (atTime now s)).stop.isNone) = true := by
    simp [part, runs, unstopped]
  refine congrArg Host.Outcome.next ((if_pos mine).trans (if_pos ?_))
  rw [unready, Bool.not_false]

/-- Another is stopped 5 µs before its slice ends, if another gang is ready or a change is staged. -/
theorem stopPosted_turn (ready : gangReady p (getPtn p (atTime now s)).gang (atTime now s) = true)
    (near : (getPtn p (atTime now s)).sliceEnd ≤ timeUs (atTime now s) + 5)
    (turn : nextGang p (getPtn p (atTime now s)).gang (atTime now s) ≠ some (getPtn p (atTime now s)).gang ∨
      (getPtn p (atTime now s)).staged ≠ []) : exec (.stopPosted p now) s = .next (stopNow p (atTime now s)) := by
  have mine : (p < 64 && (getPtn p (atTime now s)).state == .running && (getPtn p (atTime now s)).stop.isNone) = true := by
    simp [part, runs, unstopped]
  refine congrArg Host.Outcome.next ((if_pos mine).trans ((if_neg ?_).trans (if_pos ?_)))
  · simp [ready]
  · simpa [near] using turn

end

/-- The next ready gang of an IDLE partition starts. -/
theorem gangStart_idle {g : ℕ} (part : p < 64) (idle : (getPtn p (atTime now s)).state = .idle)
    (next : nextGang p (getPtn p (atTime now s)).gang (atTime now s) = some g) (lost : List (ℕ × MemPlace)) :
    exec (.gangStart p now lost) s = .next (startGang p g lost (atTime now s)) := by
  refine congrArg Host.Outcome.next ((if_pos ⟨part, idle⟩).trans ?_)
  rw [next]

/-- A gang whose slice is over, and whose stall jobs and tiles have stopped, is switched out (R338). -/
theorem switchGang_switches (ns : ℕ) (lost : List (ℕ × MemPlace))
    (runs : (getPtn p s).state = .running ∨ (getPtn p s).state = .quiescing) (stopped : (getPtn p s).stop ≠ none)
    (ended : (getPtn p s).sliceEnd ≤ timeUs s) (jobs : jobsStopped p (gangCtxs p (getPtn p s).gang s) s = true)
    (tiles : tilesStopped p (gangCtxs p (getPtn p s).gang s) s = true) :
    switchGang p ns lost s =
      let cs := gangCtxs p (getPtn p s).gang s
      afterSwitch p (getPtn p s).state lost (applyStaged p (onPart p (fun y => { y with counts := { y.counts with
        switches := wrap64 (y.counts.switches + 1), switchNsMax := max y.counts.switchNsMax ns } })
        (parkCtxs p cs (saveTiles p cs (parkQueries p (fun q => cs.contains q.ctx) s))))) := by
  refine if_neg ?_
  simpa [jobs, tiles, stopped, ended] using or_iff_not_imp_left.1 runs

/-! Quiescing (R339). -/

/-- A partition whose QUIESCE is set quiesces. -/
theorem writePtnCtrl_set (set : bit v 0 = true) : writePtnCtrl p v s =
    startQuiesce p (onPart p (fun x => { x with autoSubst := bit v 1, quiesce := bit v 0 }) s) := by
  refine if_pos ?_
  rw [getPtn_onPart_same, wantsQuiesce, set, Bool.true_or]

/-- One whose QUIESCE is clear, and that no substitution keeps, does not. -/
theorem writePtnCtrl_clear (clear : bit v 0 = false) (unkept : (getPtn p s).substWait = false ∨ bit v 1 = false) :
    writePtnCtrl p v s = endQuiesce p (onPart p (fun x => { x with autoSubst := bit v 1, quiesce := bit v 0 }) s) := by
  refine if_neg ?_
  rcases unkept with unkept | unkept <;> simp [wantsQuiesce, clear, unkept]

/-- An IDLE partition is QUIESCED at once, and what it staged is applied. -/
theorem startQuiesce_idle (idle : (getPtn p s).state = .idle) : startQuiesce p s = applyStaged p (enterQuiesced p s) := by
  simp only [startQuiesce, idle]

/-- The slice of a running one ends within 5 µs. -/
theorem startQuiesce_running (runs : (getPtn p s).state = .running) : startQuiesce p s =
    onPart p (fun x => { x with
      state := .quiescing, stop := some (x.stop.getD (timeUs s)), sliceEnd := match x.stop with
        | some _ => min x.sliceEnd (timeUs s + 5)
        | none => timeUs s + 5 }) s := by
  simp only [startQuiesce, runs] <;> rfl

/-- Settles O46: the commands begin where their checks pass; a write comes to its register; an event of a slice by the lemma of its
condition. -/
theorem contextsTakeTurns : Obligations.ContextsTakeTurns := by
  unfold Obligations.ContextsTakeTurns
  refine ⟨?commands, ?register, ?slices, fun p gang s => rfl, ?quiesce⟩
  case commands =>
    intro c d k ps inp s t p n gang us head
    refine ⟨fun due pass => next_begin due ?_ rfl, fun due pass => next_begin due ?_ rfl⟩
    · rw [head]; exact pass
    · rw [head]; exact pass
  case register =>
    intro f p n v s page part ctx reaches gang us x
    have row : (holdsPage f p && p < 64 && n < 16) = true := by simp [page, part, ctx]
    have write : exec (.ptnCtxWrite f p n v) s = .next (writeCtx p n v.toNat s) := next_write row reaches
    rw [write]
    exact ⟨fun listed low high => congrArg Host.Outcome.next (writeCtx_stages listed low high),
      fun bad => congrArg Host.Outcome.next (writeCtx_discarded bad)⟩
  case slices =>
    intro p now s part t x us
    refine ⟨fun runs unstopped => ⟨sliceEnd_renews part runs unstopped, stopPosted_idle part runs unstopped,
      stopPosted_turn part runs unstopped⟩, fun g lost idle next => gangStart_idle part idle next lost, ?switch⟩
    intro ns lost cs runs stopped ended jobs tiles
    exact congrArg Host.Outcome.next ((if_pos part).trans (switchGang_switches ns lost runs stopped ended jobs tiles))
  case quiesce =>
    intro f p v s page part reaches t x
    refine ⟨fun set => ?set, fun clear unkept => ?clear⟩
    case set =>
      have row : (holdsPage f p && p < 64 && bit v.toNat 0) = true := by simp [page, part, set]
      have write : exec (.quiesceSet f p v) s = .next (startQuiesce p t) := (next_write row reaches).trans
        (congrArg _ (writePtnCtrl_set set))
      rw [write]
      exact ⟨fun idle => congrArg _ (startQuiesce_idle idle), fun runs => congrArg _ (startQuiesce_running runs)⟩
    case clear =>
      have row : (holdsPage f p && p < 64 && !bit v.toNat 0) = true := by simp [page, part, clear]
      have unkept' : (getPtn p s).substWait = false ∨ bit v.toNat 1 = false := by simpa [x, t] using unkept
      have write : exec (.quiesceClear f p v) s = .next (endQuiesce p t) := (next_write row reaches).trans
        (congrArg _ (writePtnCtrl_clear clear unkept'))
      rw [write]
      exact ⟨fun quiesced => congrArg _ (if_pos quiesced), fun other => congrArg _ (if_neg other)⟩

end Sys2Proof.Machine
end

section
/-!
PROOFS. Lanes: how XQ_LCTRL, training and failures change the state of a lane, and what a cell time, a received cell and a received
frame make of it (R351–R357, R361, R386, R387).
-/
namespace Sys2Proof.Machine

variable {lane v now : ℕ} {s t : State}

/-! XQ_LCTRL (R10, R351, R386). -/

/-- TEST as a write of XQ_LCTRL leaves it in a disabled lane: a reserved value is not taken. -/
def testTaken (v : ℕ) (x : Lane) : ℕ := if bits v 30 29 = 3 then x.test else bits v 30 29

/-- A write keeps what is not live-safe. -/
def keepsTest (v : ℕ) (x : Lane) : Prop := testTaken v x = x.test ∧ bit v 28 = x.txInv ∧ bit v 27 = x.rxInv

/-- A disabled lane takes TEST and the polarities. -/
theorem writeLctrlFields_disabled (off : (getLane lane s).enable = false) : writeLctrlFields lane v s =
    onLane lane (fun x => { x with test := testTaken v (getLane lane s), txInv := bit v 28, rxInv := bit v 27 }) s := if_pos off

section
variable (on : (getLane lane s).enable = true)
include on

/-- An enabled lane stays as it is under a write that keeps them. -/
theorem writeLctrlFields_same (same : keepsTest v (getLane lane s)) : writeLctrlFields lane v s = s :=
  (if_neg (by simp [on])).trans (if_pos same)

/-- It stays so under any other, which is counted. -/
theorem writeLctrlFields_busy (differs : ¬keepsTest v (getLane lane s)) : writeLctrlFields lane v s =
    onFabCounts (fun c => { c with cfgBusy := wrap64 (c.cfgBusy + 1) }) s :=
  (if_neg (by simp [on])).trans (if_neg differs)

/-- ENABLE written again starts nothing. -/
theorem writeLctrl_again (set : bit v 31 = true) :
    writeLctrl lane v s = onLane lane (fun x => { x with enable := true }) (writeLctrlFields lane v s) := by
  simp only [writeLctrl, set, on, beq_self_eq_true, if_true]

/-- ENABLE cleared ends the lane. -/
theorem writeLctrl_ends (clear : bit v 31 = false) : writeLctrl lane v s =
    laneFails resendOf lane .disabled (onLane lane (fun x => { x with enable := false }) (writeLctrlFields lane v s)) := by
  have changes : (false == true) = false := rfl
  simp only [writeLctrl, clear, on, changes, Bool.false_eq_true, if_false]

end

/-- ENABLE set in a disabled lane starts its training. -/
theorem writeLctrl_starts (off : (getLane lane s).enable = false) (set : bit v 31 = true) : writeLctrl lane v s =
    onLane lane (fun x => { x with state := .training, trainAt := timeUs s })
      (onLane lane (fun x => { x with enable := true }) (writeLctrlFields lane v s)) := by
  have changes : (true == false) = false := rfl
  simp only [writeLctrl, set, off, changes, Bool.false_eq_true, if_false, if_true]

/-! Training and failures (R351, R355, R357). -/

/-- An enabled lane that trains, or is DOWN, reaches UP. -/
theorem laneUp_trained {peer : ℕ} {credits : List (ℕ × ℕ)} (on : (getLane lane s).enable = true)
    (trains : (getLane lane s).state = .training ∨ (getLane lane s).state = .down) : laneUp lane peer credits s =
      rerouteWaiting (onLane lane (fun x => { x with
        state := .up, peer := peer % 65536, ackAt := timeUs s
        credits := credits.foldl (fun t e => sset (fun _ => 0) t e.1 e.2) [] })
          (emit (.handshake lane s.nodeId (grantedCredits s)) s)) := by
  refine if_neg ?_
  rcases trains with trains | trains <;> simp [on, trains]

/-- A lane taken DOWN: its frames that are not acknowledged go to other lanes, and their requests are sent again. -/
def downed (lane : ℕ) (s : State) : State :=
  let fs := unackedFrames (getLane lane s)
  resendOf fs (fs.foldl (fun s f => routeFrame f s)
    (onLane lane (fun x => { emptyLane x .down with downs := wrap64 (x.downs + 1) }) s))

/-- An UP lane that fails is taken DOWN. -/
theorem laneDown_up (up : (getLane lane s).state = .up) : laneDown lane s = downed lane s :=
  (if_pos up).trans (if_neg fun other => other up)

/-- A failure that a lane reports takes it DOWN. -/
theorem exec_laneDown {cause : LaneFail} (up : (getLane lane s).state = .up)
    (fails : cause = .fecLock ∨ tooManyUncorr (getLane lane s) = true) : exec (.laneDown lane cause) s = .next (downed lane s) := by
  cases cause with
  | fecLock => exact congrArg _ (laneDown_up up)
  | uncorrectableCodewords =>
    have many : tooManyUncorr (getLane lane s) = true := by simpa using fails
    exact congrArg _ ((if_pos many).trans (laneDown_up up))

/-- A DOWN lane starts to train. -/
theorem restartTraining_down (down : (getLane lane s).state = .down) : restartTraining lane s =
    onLane lane (fun x => { x with state := .training, trainAt := timeUs s }) s := by
  simp only [restartTraining, down]

/-- A training attempt of 500 ms starts again. -/
theorem restartTraining_late (trains : (getLane lane s).state = .training) (late : (getLane lane s).trainAt + 500000 ≤ timeUs s) :
    restartTraining lane s = onLane lane (fun x => { x with trainAt := timeUs s, trainFail := wrap64 (x.trainFail + 1) }) s := by
  simp only [restartTraining, trains, if_neg (Nat.not_lt.2 late)]

/-- Without an ACK for 4 µs the lane replays. -/
theorem replayTimeout_due (up : (getLane lane s).state = .up) (unacked : (getLane lane s).replay ≠ [])
    (late : (getLane lane s).ackAt + 4 ≤ timeUs s) : replayTimeout lane s = onLane lane (beginReplay (timeUs s)) s := by
  refine if_neg ?_
  simpa [up, unacked] using late

/-- A transit frame whose time is up leaves its lane. -/
theorem transitDrop_found {f : Frame} (found : (getLane lane s).txq.find? (fun f =>
      f.part == 64 && f.src != s.nodeId && f.at0 + 100 ≤ timeUs s && !frameEligible (getLane lane s) f s) = some f) :
    transitDrop lane s = dropTransit f (onLane lane (fun x => { x with txq := x.txq.erase f }) s) := by
  simp only [transitDrop, found]

/-! Cell times (R352–R356). -/

section
variable (up : (getLane lane s).state = .up) (carries : (getLane lane s).test ≠ 1)
include up carries

/-- A lane in replay sends its next cell again. -/
theorem cellTime_replays {i : ℕ} {c : Sent} (again : (getLane lane s).again = some i) (cell : (getLane lane s).replay[i]? = some c) :
    cellTime lane s = putCell lane (some c.cell) c.lseq (onLane lane (fun x => { x with
      replay := updAt (fun c => { c with sends := c.sends + 1, sentAt := timeUs s }) i x.replay
      again := if i + 1 < x.replay.length then some (i + 1) else none }) s) := by
  simp only [cellTime, up, carries, ne_eq, not_true, or_self, if_false, again, Option.bind_some, cell, Option.map_some]

variable (forward : (getLane lane s).again = none)
include forward

/-- A lane whose replay buffer is full is IDLE. -/
theorem cellTime_full (full : 256 ≤ (getLane lane s).replay.length) : cellTime lane s = putCell lane none 0 s := by
  simp only [cellTime, up, carries, ne_eq, not_true, or_self, if_false, forward, Option.bind_none, full, if_true]

variable (room : (getLane lane s).replay.length < 256)
include room

/-- With nothing to send it is IDLE too. -/
theorem cellTime_idle (nothing : (getLane lane (chooseFrame lane s)).cur = []) :
    cellTime lane s = putCell lane none 0 (chooseFrame lane s) := by
  simp only [cellTime, up, carries, ne_eq, not_true, or_self, if_false, forward, Option.bind_none, if_neg (Nat.not_le.2 room), nothing]

/-- Else it sends the next cell of a frame. -/
theorem cellTime_sends {c : Cell} {f : Frame} {rest : List (Cell × Frame)}
    (next : (getLane lane (chooseFrame lane s)).cur = (c, f) :: rest) :
    cellTime lane s = putCell lane (some c) (getLane lane s).nextSeq (sendFirst lane c f (chooseFrame lane s)) := by
  simp only [cellTime, up, carries, ne_eq, not_true, or_self, if_false, forward, Option.bind_none, if_neg (Nat.not_le.2 room), next]

end

/-! Cells and frames received (R352, R353, R355–R357, R361). -/

section
variable {bs : List Byte} (up : (getLane lane s).state = .up)
include up

/-- A bad cell asks for a replay. -/
theorem cellReceive_bad (bad : cellBad (getLane lane s).expSeq true bs = true) : cellReceive lane bs .clean s =
    onLane lane (fun x => { x with discarding := true, nak := x.nak || !x.discarding }) s :=
  (if_neg fun other => other up).trans (if_pos bad)

/-- A lane as the acknowledgement and the credits of a good cell leave it. -/
def cellNoted (bs : List Byte) (now : ℕ) (x : Lane) : Lane :=
  let ack := field bs 4 2
  let x := if bit (field bs 1 1) 5 then beginReplay now (ackUpTo now ack false x) else ackUpTo now ack true x
  if field bs 6 1 = 0xFF then x else { x with
    credits := smod (fun _ => 0) x.credits (creditKey (field bs 6 1) (field bs 7 1 / 64)) (· + field bs 7 1 % 64) }

/-- A good cell acknowledges and gives credits; one with data is taken. -/
theorem cellReceive_good (good : cellBad (getLane lane s).expSeq true bs = false) : cellReceive lane bs .clean s =
    if field bs 0 1 = 1 then takeCell lane (readCell bs) (onLane lane (cellNoted bs (timeUs s)) s)
    else onLane lane (cellNoted bs (timeUs s)) s :=
  (if_neg fun other => other up).trans (if_neg (ne_true_of_eq_false good))

end

section
variable {f : Frame} (found : (getLane lane s).rxDone.find? (fun f => !frameWaits f s) = some f)
include found

/-- A frame for this node, received whole, is delivered, and its credits go back. -/
theorem frameReceive_here (here : f.dst = s.nodeId) : frameReceive lane s =
    deliver f (refund f.refund (onLane lane (fun x => { x with rxDone := x.rxDone.erase f }) s)) := by
  have here' : f.dst = (onLane lane (fun x => { x with rxDone := x.rxDone.erase f }) s).nodeId := here
  simp only [frameReceive, found, if_pos here']

variable (elsewhere : f.dst ≠ s.nodeId)
include elsewhere

/-- One for another node that has no hop or no route left is dropped. -/
theorem frameReceive_dropped
    (stuck : f.hops ≤ 1 ∨ routeValid f.dst (onLane lane (fun x => { x with rxDone := x.rxDone.erase f }) s) = false) :
    frameReceive lane s = dropTransit f (onLane lane (fun x => { x with rxDone := x.rxDone.erase f }) s) := by
  have elsewhere' : f.dst ≠ (onLane lane (fun x => { x with rxDone := x.rxDone.erase f }) s).nodeId := elsewhere
  simp only [frameReceive, found, if_neg elsewhere']
  refine if_pos ?_
  simpa using stuck

/-- Any other goes on, with one hop less. -/
theorem frameReceive_forwarded (hops : 1 < f.hops)
    (route : routeValid f.dst (onLane lane (fun x => { x with rxDone := x.rxDone.erase f }) s) = true) :
    frameReceive lane s = routeFrame { f with hops := f.hops - 1, part := 64 }
      (onLane lane (fun x => { x with rxDone := x.rxDone.erase f }) s) := by
  have elsewhere' : f.dst ≠ (onLane lane (fun x => { x with rxDone := x.rxDone.erase f }) s).nodeId := elsewhere
  simp only [frameReceive, found, if_neg elsewhere']
  refine if_neg ?_
  simpa [route] using hops

end

/-- Settles O47: a write of XQ_LCTRL by what it does to the fields and then to ENABLE; every event by the lemma of its condition. -/
theorem lanesCarryFrames : Obligations.LanesCarryFrames := by
  unfold Obligations.LanesCarryFrames
  intro lane s x down
  refine ⟨?register, fun test numbered => congrArg _ (if_pos ⟨test, numbered⟩),
    fun peer credits on trains => congrArg _ (laneUp_trained on trains),
    fun cause up fails => exec_laneDown up fails, ?timers, ?cells, ?received, ?frames⟩
  case register =>
    intro f v pf numbered reaches n kept same busy
    refine ⟨fun set off => ?starts, fun set on => ?again, fun clear on same' => ?ends⟩
    case starts =>
      refine (next_write ⟨pf, numbered, set⟩ reaches).trans (congrArg _ ?_)
      rw [writeLctrl_starts off set, writeLctrlFields_disabled off]
      rfl
    case again =>
      have write : exec (.laneEnable f lane v) s =
          .next (onLane lane (fun x => { x with enable := true }) (writeLctrlFields lane n s)) :=
        (next_write ⟨pf, numbered, set⟩ reaches).trans (congrArg _ (writeLctrl_again on set))
      rw [write]
      exact ⟨fun same' => by rw [writeLctrlFields_same on same'], fun differs => by rw [writeLctrlFields_busy on differs]⟩
    case ends =>
      refine (next_write ⟨pf, numbered, clear⟩ reaches).trans (congrArg _ ?_)
      rw [writeLctrl_ends on clear, writeLctrlFields_same on same']
  case timers =>
    intro now t us y
    refine ⟨fun down => congrArg _ (restartTraining_down down), fun trains late => congrArg _ (restartTraining_late trains late),
      fun up => ⟨fun unacked late => congrArg _ (replayTimeout_due up unacked late), fun spent => ?spent⟩,
      fun f found => congrArg _ (transitDrop_found found)⟩
    exact congrArg Host.Outcome.next ((if_pos spent).trans (laneDown_up up))
  case cells =>
    intro up test
    refine ⟨fun i c again cell => congrArg _ (cellTime_replays up test again cell), fun forward =>
      ⟨fun full => congrArg _ (cellTime_full up test forward full), fun room =>
        ⟨fun nothing => congrArg _ (cellTime_idle up test forward room nothing),
          fun c f rest next => congrArg _ (cellTime_sends up test forward room next)⟩⟩⟩
  case received =>
    intro bs up
    refine ⟨fun bad => congrArg _ (cellReceive_bad up bad), fun good => ?good⟩
    exact congrArg Host.Outcome.next (cellReceive_good up good)
  case frames =>
    intro f found t
    exact ⟨fun here => congrArg _ (frameReceive_here found here),
      fun elsewhere stuck => congrArg _ (frameReceive_dropped found elsewhere stuck),
      fun elsewhere hops route => congrArg _ (frameReceive_forwarded found elsewhere hops route)⟩

end Sys2Proof.Machine
end

section
/-!
PROOFS. Requests and answers between nodes: sub-searches and their answers, blocks and their acknowledgements, CTRL messages, timeouts
and probes (R362–R365, R372, R374, R380, R381).
-/
namespace Sys2Proof.Machine

variable {m : Msg} {c : Comp} {r : Req} {k : CmdRef} {s t : State}

/-- What a CTRL message that has come does, as an outcome. -/
theorem next_handleCtrl {kind src msg : ℕ} {run : Msg → State → State} (arrived : inboxMsg kind src msg s = some m)
    (runs : run m (takeMsg m s) = t) :
    (.next (handleCtrl kind src msg run s) : Host.Outcome State Fault Refusal) = .next t :=
  congrArg Host.Outcome.next ((handleCtrl_arrived arrived run).trans runs)

/-! Sub-searches and blocks of other nodes (R372, R374). -/

/-- The state with the command that stands for a sub-search of another node. -/
def withSub (m : Msg) (c : Comp) (s : State) : State :=
  let k := subCmd m c (2 ^ 32 + s.fab.nextRemote) (timeUs s)
  onHost (fun h => { h with cmds := h.cmds ++ [k] }) (onFab (fun x => { x with
    nextRemote := x.nextRemote + 1, subs := x.subs ++ [{ ref := k.ref, msg := m }] }) s)

/-- A sub-search whose checks pass enters the admission list. -/
theorem runSub_enters (opcode : (subCmd m c (2 ^ 32 + s.fab.nextRemote) (timeUs s)).opcode ∈ [1, 2, 3])
    (pass : let k := subCmd m c (2 ^ 32 + s.fab.nextRemote) (timeUs s)
      searchCheck k.opcode k (k.packet.drop 40) (m.body.drop 64) (withSub m c s) = .go) :
    runSub m c s = let k := subCmd m c (2 ^ 32 + s.fab.nextRemote) (timeUs s)
      enterAdmission k.opcode k (k.packet.drop 40) (m.body.drop 64) (withSub m c s) := by
  unfold withSub at pass ⊢
  simp only [runSub, if_pos opcode, pass]

/-- A block whose SEQ is consumed is only acknowledged. -/
theorem takeBlock_consumed (consumed : c.consumed.contains m.seq = true) : takeBlock m c s = respondSt m stOk s := by
  simp only [takeBlock, consumed, Bool.true_or, if_true]

/-- A new one is kept, and the runs that wait for blocks are fed. -/
theorem takeBlock_new (unconsumed : c.consumed.contains m.seq = false)
    (new : getBlock m.comp m.slot m.seq (respondSt m stOk s) = none) : takeBlock m c s =
      feedRuns (onFab (fun x => { x with blocks := x.blocks ++ [{
        comp := m.comp, slot := m.slot, seq := m.seq, bytes := m.body }] })
        (forgetBlock m.comp m.slot m.seq (respondSt m stOk s))) := by
  simp only [takeBlock, unconsumed, new, Option.map_none, Option.any_none, Bool.or_self, Bool.false_eq_true, if_false,
    Option.getD_none, List.nil_append]

/-! Answers that a command waits for (R362, R372, R374). -/

section
variable (waiter : r.waiter = .command k)
include waiter

/-- The answer of a member is noted, and may end its composed search. -/
theorem takeSearchRsp_notes : takeSearchRsp r m s =
    settleSearch k (noteAnswerOf k r.msg.slot m.status (answerDetail m (field m.body 16 8)) (m.body.drop 32)
      (onCompSearch k (fun x => { x with awaits := x.awaits.erase r.msg.slot }) s)) := by
  simp only [takeSearchRsp, waiter]

variable (ok : m.status = stOk)
include ok

/-- An acknowledgement sends the next part, -/
theorem takeAck_next {b : List Byte} {rest : List (List Byte)} (more : r.rest = b :: rest) :
    takeAck r m s = sendReq r.part { r.msg with body := b, resent := false } r.waiter rest s := by
  simp only [takeAck, waiter, ok, ne_eq, not_true, if_false, more]

/-- or ends the transfer. -/
theorem takeAck_last (last : r.rest = []) :
    takeAck r m s = if r.msg.kind = 0x10 then ackedRun k s else unawait k r.msg.slot s := by
  simp only [takeAck, waiter, ok, ne_eq, not_true, if_false, last]

end

/-! CANCEL (R365). -/

/-- The requests of one message: those of its source and number. -/
def sameRequest (m x : Msg) : Bool := x.src == m.src && x.reqId == m.reqId

/-- A request cancelled is no longer held. -/
def unheld (m : Msg) (s : State) : State := onFab (fun x => { x with held := x.held.filter fun h => !sameRequest m h.1 }) s

/-- With no sub-search of the request nothing else is cancelled. -/
theorem cancelRequest_unknown (unknown : (unheld m s).fab.subs.find? (fun x => sameRequest m x.msg) = none) :
    cancelRequest m s = unheld m s := by
  unfold unheld sameRequest at unknown ⊢
  simp only [cancelRequest, unknown]

section
variable {x : SubSearch} (found : (unheld m s).fab.subs.find? (fun x => sameRequest m x.msg) = some x)
include found

/-- A sub-search admitted runs on. -/
theorem cancelRequest_runs (admitted : (getQuery x.ref (unheld m s)).any (·.admittedIn) = true) :
    cancelRequest m s = unheld m s := by
  unfold unheld sameRequest at found admitted ⊢
  simp only [cancelRequest, found, admitted, if_true]

/-- One that has not started is discarded. -/
theorem cancelRequest_discards (waits : (getQuery x.ref (unheld m s)).any (·.admittedIn) = false) : cancelRequest m s =
    onFab (fun y => { y with subs := y.subs.filter (·.ref != x.ref) })
      (onHost (fun h => { h with cmds := dropFirst x.ref h.cmds }) (dropQuery x.ref (unheld m s))) := by
  unfold unheld sameRequest at found waits ⊢
  simp only [cancelRequest, found, waits, Bool.false_eq_true, if_false]

end

/-! Timeouts and probes (R362, R380). -/

/-- A node probed, unless a probe of it is out. -/
def probed (r : Req) (now : ℕ) (s : State) : State :=
  if s.fab.probes.any (·.node == r.msg.dst) then s
  else sendOnly (mkMsg r.msg.dst r.msg.dpart 0x28 0 0 0 0 []) (onFab (fun x => { x with
    probes := x.probes ++ [{ node := r.msg.dst, at0 := now, treq := r.treq }] }) s)

/-- A request past its time is freed and counted, its node probed, its command ended. -/
theorem requestTimeout_late {id : ℕ} (found : s.fab.reqs.find? (·.id == id) = some r) (late : r.at0 + r.treq ≤ timeUs s)
    (waiter : r.waiter = .command k) : requestTimeout id s = endWaiter r.msg.kind k r.msg.slot stTimeout (probed r (timeUs s)
      (onXq r.part (fun c => { c with timeouts := wrap64 (c.timeouts + 1) }) (dropReq id s))) := by
  simp only [requestTimeout, found, if_neg (Nat.not_lt.2 late), waiter]
  rfl

/-- A node whose probe found no answer is LOST in the compositions that name it, and they are told. -/
theorem memberLost_late {node : ℕ} {p : Probe} (found : s.fab.probes.find? (·.node == node) = some p)
    (late : p.at0 + p.treq ≤ timeUs s) : memberLost node s =
      let u := onFab (fun x => { x with probes := x.probes.filter (·.node != node) }) s
      (compsWith node u).foldl (tellLost node) (((compsWith node u).map (·.1)).foldl (markLost node) u) := by
  simp only [memberLost, found, if_neg (Nat.not_lt.2 late)]

/-- Settles O48: a request runs past its checks, an answer past its record, a CTRL message past the inbox; a timeout by its time. -/
theorem requestsAndAnswersMeet : Obligations.RequestsAndAnswersMeet := by
  unfold Obligations.RequestsAndAnswersMeet
  intro src msg m s
  refine ⟨?sub, ?block, ?answers, ?notices, ?timeouts⟩
  case sub =>
    intro c serves t k t' opcode pass
    exact next_handleReq serves (runSub_enters opcode pass)
  case block =>
    intro c serves t
    exact ⟨fun consumed => next_handleReq serves (takeBlock_consumed consumed),
      fun unconsumed new => next_handleReq serves (takeBlock_new unconsumed new)⟩
  case answers =>
    intro r c waiter t
    refine ⟨fun answers => next_handleRsp answers (takeSearchRsp_notes waiter), fun answers ok =>
      ⟨fun b rest more => next_handleRsp answers (takeAck_next waiter ok more), fun last => ⟨fun block => ?_, fun other => ?_⟩⟩⟩
    · exact next_handleRsp answers ((takeAck_last waiter ok last).trans (if_pos block))
    · exact next_handleRsp answers ((takeAck_last waiter ok last).trans (if_neg other))
  case notices =>
    intro t
    refine ⟨fun arrived => next_handleCtrl arrived rfl, fun arrived => next_handleCtrl arrived rfl,
      fun arrived => next_handleCtrl arrived rfl, fun arrived => next_handleCtrl arrived rfl, ?cancel⟩
    intro arrived mine u
    exact ⟨fun unknown => next_handleCtrl arrived (cancelRequest_unknown unknown), fun x found =>
      ⟨fun admitted => next_handleCtrl arrived (cancelRequest_runs found admitted),
        fun waits => next_handleCtrl arrived (cancelRequest_discards found waits)⟩⟩
  case timeouts =>
    intro now t
    exact ⟨fun r c found late waiter => congrArg Host.Outcome.next (requestTimeout_late found late waiter),
      fun p found late => congrArg Host.Outcome.next (memberLost_late found late), rfl⟩

end Sys2Proof.Machine
end

section
/-!
PROOFS. Compositions and their slots: what COMPOSE and HANDOFF make of them, the end of windows and holds, the messages of a handoff,
and the routing registers (R366–R370, R375–R379, R384, R391).
-/
namespace Sys2Proof.Machine

variable {c : CmdRef} {d : CmdIn} {k : Cmd} {ps inp : List Byte} {id slot now : ℕ} {x : Comp} {m : Msg} {s t : State}

@[simp] theorem getComp_running (n : ℕ) : getComp n (running c s) = getComp n s := rfl

/-! COMPOSE (R366, R367, R370). -/

section
variable (here : getComp (cmpId ps) s = some x) (block : composeBlockBad k ps = false) (empty : k.dataLen = 0)
include here block empty

/-- REMOVE of a composition that is installed ends its users and drops what it kept. -/
theorem composeRemove_due (due : Due 0x38 (opIs 1) c d k ps inp s) :
    exec (.composeRemove c d) s = .next (completeSt k.ref stOk (onFab (fun f => { f with
      comps := tdel f.comps (cmpId ps), blocks := f.blocks.filter (·.comp != cmpId ps)
      fdups := f.fdups.filter (·.comp != cmpId ps) }) (endUsers (cmpId ps) x (running c s)))) := by
  refine next_begin due ?_ ?_
  · simp [needComp, firstFail, block, empty, here]
  · simp only [getComp_running, here]

/-- READ gives it where the result has room. -/
theorem composeRead_due (due : Due 0x38 (opIs 2) c d k ps inp s) (room : readLen (cmpId ps) s ≤ k.resultLen) :
    exec (.composeRead c d) s =
      .next (finish k.ref d.resultOk stOk 0 0 (compBytes (cmpId ps) x (running c s)) (running c s)) := by
  refine next_begin due ?_ ?_
  · simp [needComp, firstFail, block, empty, here, Nat.not_lt.2 room]
  · simp only [getComp_running, here]

end

/-! Windows, holds, timeouts and sweeps (R368, R375, R377–R379). -/

section
variable (here : getComp id s = some x)
include here

/-- The slots of a composition after its drain window: this node owns its own, and gives up others. -/
def slotsSettled (me now : ℕ) (slots : Table Slot) : Table Slot :=
  (slotsAfter me now slots).map fun e =>
    if e.1 = me then if e.2.state = .none then (e.1, { e.2 with state := .owned, since := now }) else e
    else if e.2.state = .owned then (e.1, { e.2 with state := .released, since := now }) else e

/-- The end of a drain window settles the slots. -/
theorem windowEnds_due {e : ℕ} (window : x.windowEnd = some e) (ended : e ≤ timeUs s) : windowEnds id s =
    onComp id (fun c => { c with
      windowEnd := none, prev := none, slots := slotsSettled (ownSlot x.members s) (timeUs s) c.slots }) s := by
  simp only [windowEnds, here, window, if_neg (Nat.not_lt.2 ended)]
  rfl

/-- A handoff without an ACCEPT in time keeps the slot. -/
theorem handoffTimeout_keeps (token : (getSlot x slot).token ≠ 0) (late : (getSlot x slot).at0 + 4 * treqOf id s ≤ timeUs s)
    (offers : (getSlot x slot).state = .offering) : handoffTimeout id slot s = endHandoff id slot stTimeout .owned
      (onSlot id slot (fun x => { x with query := some x.peer, queryAt := timeUs s }) s) := by
  simp only [handoffTimeout, here, token, Nat.not_lt.2 late, or_self, if_false, offers, if_true]

/-- The node asked about a slot is asked again every T_req. -/
theorem retryQuery_due {node : ℕ} (query : (getSlot x slot).query = some node)
    (late : (getSlot x slot).queryAt + treqOf id s ≤ timeUs s) : retryQuery id slot s =
      askOwner id x slot node (onSlot id slot (fun x => { x with queryAt := timeUs s }) s) := by
  simp only [retryQuery, here, query, if_neg (Nat.not_lt.2 late)]

/-- A sweep that is due discards the records of orphaned slots. -/
theorem orphanSweep_due (due : x.sweptAt + 4 * treqOf id s ≤ timeUs s) : orphanSweep id s =
    onComp id (fun c => { c with sweptAt := timeUs s })
      (((recSlots id x s).filter fun n => orphaned id x (timeUs s) n s).foldl (fun s n => discardRecs id n s) s) := by
  simp only [orphanSweep, here, if_neg (Nat.not_lt.2 due)]

end

/-- A command held for an epoch that has not come ends NOT_OWNER after the drain window. -/
theorem holdExpires_command {n : ℕ} {e : ℕ × Comp} (found : findCmd c s = some k) (kind : kindOf k.opcode = some n)
    (comp : compFor n k.handle s = some e) (waits : k.phase = .waiting) (later : e.2.epoch < k.epoch)
    (late : k.fetched + drainOf e.2 s ≤ timeUs s) : holdExpires (.command c) s = completeSt c stNotOwner s := by
  simp only [holdExpires, found, kind, Option.bind_some, comp]
  exact if_pos ⟨waits, later, late⟩

/-! The messages of a handoff (R376–R378, R383). -/

/-- A slot that receives records under the token of a message. -/
def slotOffered (m : Msg) (x : Slot) : Slot :=
  { x with rxToken := m.seq, announced := field m.body 0 4, rx := [], committed := false }

/-- An OFFER of a slot that this node does not hold is taken. -/
theorem takeOffer_takes (here : getComp m.comp s = some x) (epoch : m.epoch ≤ x.epoch) (fresh : (getSlot x m.slot).rxToken ≠ m.seq)
    (untaken : (getSlot x m.slot).lastToken ≠ m.seq) (hosts : m.seq < 0x80000000)
    (free : (getSlot x m.slot).state = .none ∨ (getSlot x m.slot).state = .released) :
    takeOffer m s = onSlot m.comp m.slot (slotOffered m) (setSlot m.comp m.slot .receiving (takeMsg m s)) := by
  simp only [takeOffer, here, if_neg (Nat.not_lt.2 epoch), fresh, untaken, or_self, if_false, if_neg (Nat.not_le.2 hosts)]
  rcases free with free | free <;> rw [free] <;> rfl

/-- STATE adds its records to the transfer it belongs to. -/
theorem takeState_adds (here : getComp m.comp s = some x) (token : (getSlot x m.slot).rxToken = m.seq)
    (untaken : (getSlot x m.slot).lastToken ≠ m.seq) : takeState m s = acceptSlot m (respondSt m stOk
      (onSlot m.comp m.slot (fun x => { x with rx := x.rx ++ m.body }) (unholdMsg m s))) := by
  simp only [takeState, here, if_neg untaken, if_pos token]

/-- STATE is taken where it is no duplicate. -/
theorem exec_handoffState {src msg : ℕ} (arrived : inboxMsg 0x21 src msg s = some m) (runs : (fabricDup m (takeMsg m s)).2 = true) :
    exec (.handoffState src msg) s = .next (takeState m (noted m s)) := by
  refine congrArg Host.Outcome.next ?_
  simp only [arrived]
  exact if_pos runs

/-- COMMIT closes the transfer it belongs to. -/
theorem takeCommit_commits (here : getComp m.comp s = some x) (token : (getSlot x m.slot).rxToken = m.seq)
    (untaken : (getSlot x m.slot).lastToken ≠ m.seq) : takeCommit m s =
      acceptSlot m (onSlot m.comp m.slot (fun x => { x with committed := true }) (takeMsg m s)) := by
  simp only [takeCommit, here, if_neg untaken, if_pos token]

section
variable (here : getComp m.comp s = some x) (token : (getSlot x m.slot).token = m.seq) (peer : (getSlot x m.slot).peer = m.src)
  (offers : (getSlot x m.slot).state = .offering)
include here token peer offers

/-- ACCEPT of an offered slot releases it, and its records go; -/
theorem takeAccept_ok (ok : m.status = stOk) :
    takeAccept m s = endHandoff m.comp m.slot stOk .released (dropRecs m.comp m.slot s) := by
  simp only [takeAccept, here, token, peer, ok, ne_eq, not_true, or_self, if_false, offers, if_true]

/-- with another status the source keeps it. -/
theorem takeAccept_refused (refused : m.status ≠ stOk) :
    takeAccept m s = endHandoff m.comp m.slot stRefused .owned s := by
  simp only [takeAccept, here, token, peer, ne_eq, not_true, or_self, if_false, refused, not_false_iff, if_true, offers]

end

/-! NODE_ID and routes (R383, R384, R391). -/

/-- A new NODE_ID is taken while every lane is DISABLED, else counted. -/
theorem writeNodeId_new {v : ℕ} (new : bits v 15 0 ≠ s.nodeId) : writeNodeId v s =
    if s.fab.lanes.all fun e => e.2.state == .disabled then { s with nodeId := bits v 15 0 }
    else onFabCounts (fun c => { c with cfgBusy := wrap64 (c.cfgBusy + 1) }) s := if_neg new

/-- A route through a lane that does not exist. -/
def routeBad (v : ℕ) : Bool := (List.range 4).any fun i => bit v (7 * i + 6) && decide (35 < bits v (7 * i + 5) (7 * i))

/-- A route is written when its lanes exist, and the frames that wait take it. -/
theorem writeRoute_eq (node v : ℕ) : writeRoute node v s = if routeBad v then s else
    rerouteWaiting (onFab (fun x => { x with
      routes := sset (fun _ => 0) x.routes node (2 ^ 63 * b2n (bit v 63) + bits v 27 0) }) s) := rfl

/-- Settles O49: the commands begin where their checks pass; an event finds its composition, and its slot decides; a register write
comes to its register. -/
theorem slotsChangeHands : Obligations.SlotsChangeHands := by
  unfold Obligations.SlotsChangeHands
  refine ⟨?commands, ?events, ?hold, ?messages, ?registers⟩
  case commands =>
    intro c d k ps inp s t id
    exact ⟨fun due pass => next_begin due pass rfl, fun x here block empty =>
      ⟨fun due => composeRemove_due here block empty due, fun due room => composeRead_due here block empty due room⟩,
      fun due pass => next_begin due pass rfl⟩
  case events =>
    intro id slot now c s t us x here
    exact ⟨fun e window ended => congrArg Host.Outcome.next (windowEnds_due here window ended),
      fun token late offers => congrArg Host.Outcome.next (handoffTimeout_keeps here token late offers),
      fun node query late => congrArg Host.Outcome.next (retryQuery_due here query late),
      fun due => congrArg Host.Outcome.next (orphanSweep_due here due)⟩
  case hold =>
    intro c k n now e s t found kind comp waits later late
    exact congrArg Host.Outcome.next (holdExpires_command found kind comp waits later late)
  case messages =>
    intro src msg m c s t x start
    refine ⟨fun arrived here epoch fresh untaken hosts free => ?offer, fun arrived runs here token untaken => ?state,
      fun arrived here token untaken => ?commit, fun here => ⟨fun arrived token peer offers => ?accept, fun arrived => ?query,
        fun arrived => ?answer⟩⟩
    case offer =>
      have run : exec (.handoffOffer src msg) s = .next (takeOffer m s) := congrArg Host.Outcome.next (by simp only [arrived])
      exact run.trans (congrArg _ (takeOffer_takes here epoch fresh untaken hosts free))
    case state => exact (exec_handoffState arrived runs).trans (congrArg _ (takeState_adds here token untaken))
    case commit =>
      have run : exec (.handoffCommit src msg) s = .next (takeCommit m s) := congrArg Host.Outcome.next (by simp only [arrived])
      exact run.trans (congrArg _ (takeCommit_commits here token untaken))
    case accept =>
      exact ⟨fun ok => next_handleCtrl arrived (takeAccept_ok here token peer offers ok),
        fun refused => next_handleCtrl arrived (takeAccept_refused here token peer offers refused)⟩
    case query =>
      have here' : getComp m.comp (takeMsg m s) = some c := here
      exact next_handleCtrl arrived (by simp only [here', t, x])
    case answer =>
      have here' : getComp m.comp (takeMsg m s) = some c := here
      exact next_handleCtrl arrived (by simp only [here', t])
  case registers =>
    intro f node v w s pf
    refine ⟨fun reaches new => ?id, fun numbered reaches => ?route⟩
    case id =>
      have write : exec (.nodeIdWrite f v) s = _ := (next_write pf reaches).trans (congrArg Host.Outcome.next (writeNodeId_new new))
      rw [write]
      exact ⟨fun off => congrArg _ (if_pos off), fun on => congrArg _ (if_neg (ne_true_of_eq_false on))⟩
    case route =>
      have write : exec (.routingEntryWrite f node w) s = _ := (next_write ⟨pf, numbered⟩ reaches).trans
        (congrArg Host.Outcome.next (writeRoute_eq node w.toNat))
      rw [write]
      exact ⟨fun bad => congrArg _ (if_pos bad), fun good => congrArg _ (if_neg (ne_true_of_eq_false good))⟩

end Sys2Proof.Machine
end

section
/-!
PROOFS. Policers, shapers and the sampling ring: what a tick refills, what a commit takes, what a round writes, and the ring's
registers (R394, R395, R398, R400, R403–R409).
-/
namespace Sys2Proof.Machine

/-! A table changed at each of its keys. -/

section
variable {α : Type} {d : ℕ → α} {g : α → α} {m : Table α}

/-- Rising keys are distinct. -/
theorem nodup_keys (rise : keysRise m = true) : (m.map (·.1)).Nodup := by
  induction m with
  | nil => exact List.nodup_nil
  | cons e m ih =>
    obtain ⟨lowest, rise'⟩ := (keysRise_cons e m).1 rise
    rw [List.map_cons, List.nodup_cons]
    refine ⟨fun listed => ?_, ih rise'⟩
    obtain ⟨e', listed', same⟩ := List.mem_map.1 listed
    exact absurd (lowest e' listed') (by omega)

/-- A key that a table does not list reads its default. -/
theorem sget_unlisted {n : ℕ} (unlisted : n ∉ m.map (·.1)) : sget d m n = d n := by
  have none' : tget? m n = none := by
    cases found : tget? m n with
    | none => rfl
    | some v => exact absurd (List.mem_map_of_mem (f := (·.1)) (mem_of_tget? found)) unlisted
  rw [sget, none', Option.getD_none]

variable [DecidableEq α]

/-- Distinct keys, each changed once: a key reads the changed value where it is one of them. -/
theorem sget_foldl_smod {l : List ℕ} (distinct : l.Nodup) (n : ℕ) :
    sget d (l.foldl (fun m i => smod d m i g) m) n = if n ∈ l then g (sget d m n) else sget d m n := by
  induction l generalizing m with
  | nil => rfl
  | cons i l ih =>
    obtain ⟨new, distinct'⟩ := List.nodup_cons.1 distinct
    rw [List.foldl_cons, ih distinct']
    by_cases same : n = i
    · subst same
      rw [if_neg new, if_pos (List.mem_cons_self ..), sget_smod_same]
    · simp only [List.mem_cons, same, false_or, sget_smod_ne _ _ _ same]

/-- A table changed at each of its keys reads the changed value at every key, if the change keeps the defaults. -/
theorem sget_change_all (rise : keysRise m = true) (idle : ∀ n, g (d n) = d n) (n : ℕ) :
    sget d ((m.map (·.1)).foldl (fun m i => smod d m i g) m) n = g (sget d m n) := by
  rw [sget_foldl_smod (nodup_keys rise)]
  split
  · rfl
  · next unlisted => rw [sget_unlisted unlisted, idle]

end

variable {f : Fn} {n v : ℕ} {ok : Bool} {s : State}

/-! Ticks (R394, R395, R400). -/

/-- Policers changed one after the other are a change of their table. -/
theorem foldl_onPolicer (l : List ℕ) (g : Policer → Policer) : l.foldl (fun s n => onPolicer n g s) s =
    onTm (fun t => { t with policers := l.foldl (fun m i => smod policerReset m i g) t.policers }) s := by
  induction l generalizing s with
  | nil => rfl
  | cons n l ih => rw [List.foldl_cons, ih]; rfl

/-- Shapers likewise. -/
theorem foldl_onShaper (l : List ℕ) (g : Shaper → Shaper) : l.foldl (fun s n => onShaper n g s) s =
    onTm (fun t => { t with shapers := l.foldl (fun m i => smod shaperReset m i g) t.shapers }) s := by
  induction l generalizing s with
  | nil => rfl
  | cons n l ih => rw [List.foldl_cons, ih]; rfl

/-! Commits (R398, R400, R407, R409). -/

/-- A change of a policer counts only by what it makes of it as it stands. -/
theorem onPolicer_congr {g h : Policer → Policer} (same : g (getPolicer n s) = h (getPolicer n s)) :
    onPolicer n g s = onPolicer n h s := by
  simp only [getPolicer] at same
  simp only [onPolicer, onTm, smod, same]

/-- A change of a shaper likewise. -/
theorem onShaper_congr {g h : Shaper → Shaper} (same : g (getShaper n s) = h (getShaper n s)) :
    onShaper n g s = onShaper n h s := by
  simp only [getShaper] at same
  simp only [onShaper, onTm, smod, same]

/-- A policer past the W1C of CFG_ERR. -/
def polCleared (v : ℕ) (p : Policer) : Policer := { p with cfgErr := p.cfgErr && !bit v 28 }

/-- A shaper past it. -/
def shapeCleared (v : ℕ) (p : Shaper) : Shaper := { p with cfgErr := p.cfgErr && !bit v 28 }

/-- COMMIT commits the policer. -/
theorem writePctrl_commits (commit : bit v 31 = true) :
    writePctrl n v s = onPolicer n (fun _ => commitPolicer (bit v 30) (polCleared v (getPolicer n s))) s :=
  onPolicer_congr (if_pos commit)

/-- COMMIT commits the shaper, and the ports go on. -/
theorem writeSctrl_commits (commit : bit v 31 = true) :
    writeSctrl n v s = drainPorts (onShaper n (fun _ => commitShaper n (bit v 30) (shapeCleared v (getShaper n s))) s) :=
  congrArg drainPorts (onShaper_congr (if_pos commit))

/-! The sampling ring (R403–R406). -/

/-- The end of a round. -/
def roundDone (now : ℕ) (s : State) : State := onTm (fun x => { x with round := x.round + 1, lastRound := now }) s

section
variable (on : s.tm.ringEnable = true) (due : s.tm.lastRound + s.tm.intervalUs ≤ timeUs s)
include on due

/-- A round without room for its entries counts them as lost. -/
theorem samplingRound_lost (full : sampleRoom s < (roundEntries s).length) : samplingRound ok s = roundDone (timeUs s)
    (onTm (fun x => { x with samplesLost := wrap64 (x.samplesLost + (roundEntries s).length) }) s) := by
  simp only [samplingRound, on, Bool.not_true, Nat.not_lt.2 due, decide_false, Bool.or_self, Bool.false_eq_true, if_false,
    if_pos full, roundDone]

variable (room : (roundEntries s).length ≤ sampleRoom s)
include room

/-- One with room writes them. -/
theorem samplingRound_writes (writes : roundEntries s = [] ∨ ok = true) :
    samplingRound ok s = roundDone (timeUs s) ((roundEntries s).foldl putSample s) := by
  have writes' : ((roundEntries s).isEmpty || ok) = true := by simpa using writes
  simp only [samplingRound, on, Bool.not_true, Nat.not_lt.2 due, decide_false, Bool.or_self, Bool.false_eq_true, if_false,
    if_neg (Nat.not_lt.2 room), if_pos writes', roundDone]

/-- One whose ring write fails stops the ring. -/
theorem samplingRound_fails (entries : roundEntries s ≠ []) : samplingRound false s = roundDone (timeUs s)
    (fileRec (mkRec 0x08 2 5 (locHost { port := s.tm.ringPort, vf := 0 } (s.tm.ringBase + 32 * s.tm.ringTail)))
      (onTm (fun x => { x with ringEnable := false, ringDmaErr := true }) s)) := by
  have fails : ((roundEntries s).isEmpty || false) = false := by simpa using entries
  simp only [samplingRound, on, Bool.not_true, Nat.not_lt.2 due, decide_false, Bool.or_self, Bool.false_eq_true, if_false,
    if_neg (Nat.not_lt.2 room), fails, roundDone]
  rfl

end

/-- PORT of a write of TM_RING_CFG. -/
def ringPortOf (v : ℕ) : Port := if bit v 30 then .b else .a

/-- LOG2 as such a write would have it: a value out of range is not taken. -/
def ringLog2Of (v : ℕ) (x : TmSt) : ℕ := if 8 ≤ bits v 29 25 ∧ bits v 29 25 ≤ 20 then bits v 29 25 else x.ringLog2

/-- The fields that a ring at rest takes from it. -/
def ringSet (v : ℕ) (s : State) : State := onTm (fun x => { x with ringPort := ringPortOf v, ringLog2 := ringLog2Of v x }) s

/-- The live-safe fields. -/
def ringLive (v : ℕ) (s : State) : State := onTm (fun x => { x with
  ringEnable := bit v 31, kinds := bits v 24 21, intervalUs := if bits v 15 0 = 0 then x.intervalUs else bits v 15 0 }) s

/-- A write that changes PORT or LOG2. -/
def ringMoves (v : ℕ) (x : TmSt) : Prop := ringPortOf v ≠ x.ringPort ∨ ringLog2Of v x ≠ x.ringLog2

section
variable (off : s.tm.ringEnable = false)
include off

/-- ENABLE set in a ring at rest starts it at TAIL 0. -/
theorem writeRingCfg_starts (set : bit v 31 = true) : writeRingCfg v s =
    onTm (fun x => { x with ringTail := 0, ringPhase := true, lastRound := timeUs s }) (ringLive v (ringSet v s)) := by
  simp only [writeRingCfg, off, set, Bool.false_and, Bool.not_false, Bool.and_self, Bool.false_eq_true, if_false, if_true, ringLive,
    ringSet]
  rfl

/-- A write without ENABLE sets its fields. -/
theorem writeRingCfg_rests (clear : bit v 31 = false) : writeRingCfg v s = ringLive v (ringSet v s) := by
  simp only [writeRingCfg, off, clear, Bool.false_and, Bool.false_eq_true, if_false, ringLive, ringSet]
  rfl

end

section
variable (on : s.tm.ringEnable = true)
include on

/-- A running ring takes a write that moves nothing. -/
theorem writeRingCfg_stays (stays : ¬ringMoves v s.tm) : writeRingCfg v s = ringLive v (ringSet v s) := by
  have still : (ringPortOf v != s.tm.ringPort || ringLog2Of v s.tm != s.tm.ringLog2) = false := by
    simpa [ringMoves] using stays
  unfold ringPortOf ringLog2Of at still
  simp only [writeRingCfg, on, still, Bool.and_false, Bool.not_true, Bool.false_eq_true, if_false, ringLive, ringSet]
  rfl

/-- Of one that moves it only the live-safe fields, and counts it. -/
theorem writeRingCfg_refuses (moves : ringMoves v s.tm) : writeRingCfg v s = ringLive v (countTmBusy s) := by
  have changes : (ringPortOf v != s.tm.ringPort || ringLog2Of v s.tm != s.tm.ringLog2) = true := by
    simpa [ringMoves] using moves
  unfold ringPortOf ringLog2Of at changes
  simp only [writeRingCfg, on, changes, Bool.and_true, Bool.and_false, Bool.not_true, Bool.false_eq_true, if_false, if_true,
    ringLive]
  rfl

end

/-- Settles O50: a tick by `sget_change_all`, for a disabled meter stays as it is; a commit by the test of its fields; a round by its
room and its write; a write of the ring by whether it runs. -/
theorem metersRefillAndSample : Obligations.MetersRefillAndSample := by
  unfold Obligations.MetersRefillAndSample
  refine ⟨?ticks, ?commits, ?rounds, ?ring⟩
  case ticks =>
    intro s policers shapers
    exact ⟨⟨_, congrArg Host.Outcome.next (foldl_onPolicer _ _), sget_change_all policers fun _ => rfl⟩,
      ⟨_, congrArg (fun u => Host.Outcome.next (drainPorts u)) (foldl_onShaper _ _), sget_change_all shapers fun _ => rfl⟩⟩
  case commits =>
    intro f n v s pf numbered commit
    refine ⟨?policer, ?shaper⟩
    case policer =>
      intro reaches p c
      have write : exec (.policerCommit f n v) s = _ :=
        (next_write ⟨pf, numbered⟩ reaches).trans (congrArg Host.Outcome.next (writePctrl_commits commit))
      rw [write]
      exact ⟨fun sound => congrArg (fun q => Host.Outcome.next (onPolicer n (fun _ => q) s)) (if_pos sound),
        fun bad => congrArg (fun q => Host.Outcome.next (onPolicer n (fun _ => q) s)) (if_neg (ne_true_of_eq_false bad))⟩
    case shaper =>
      intro reaches p c
      have write : exec (.shaperCommit f n v) s = _ :=
        (next_write ⟨pf, numbered⟩ reaches).trans (congrArg Host.Outcome.next (writeSctrl_commits commit))
      rw [write]
      exact ⟨fun sound => congrArg (fun q => Host.Outcome.next (drainPorts (onShaper n (fun _ => q) s))) (if_pos sound),
        fun bad => congrArg (fun q => Host.Outcome.next (drainPorts (onShaper n (fun _ => q) s))) (if_neg (Nat.not_le.2 bad))⟩
  case rounds =>
    intro now ok s t es ends on due
    refine ⟨fun full => congrArg _ (samplingRound_lost on due full),
      fun room writes => congrArg _ (samplingRound_writes on due room writes),
      fun room entries fails => ?_⟩
    subst fails
    exact congrArg _ (samplingRound_fails on due room entries)
  case ring =>
    intro f v w s pf
    refine ⟨?config, ?head⟩
    case config =>
      intro reaches n port log2 live set
      have write : exec (.samplingEnable f v) s = .next (writeRingCfg n s) := next_write pf reaches
      rw [write]
      exact ⟨fun off enable => congrArg _ (writeRingCfg_starts off enable), fun off clear => congrArg _ (writeRingCfg_rests off clear),
        fun on port' log2' => congrArg _ (writeRingCfg_stays on (not_or.2 ⟨not_not.2 port', not_not.2 log2'⟩)),
        fun on moves => congrArg _ (writeRingCfg_refuses on moves)⟩
    case head =>
      intro reaches h n ahead
      have write : exec (.ringHeadWrite f w) s = .next (writeRingPtr f w.toNat s) := next_write pf reaches
      rw [write]
      refine ⟨fun inside ahead' => congrArg _ (if_pos ⟨inside, ahead'⟩), fun outside => congrArg _ (if_neg ?_)⟩
      rintro ⟨inside, ahead'⟩
      rcases outside with outside | behind
      · exact absurd inside (Nat.not_lt.2 outside)
      · exact behind ahead'

end Sys2Proof.Machine
end

section
/-!
PROOFS. Firmware, the owner and attestation (chapter 17). O57: what a due command of FW_STAGE, FW_ARM, FW_CONFIRM, OWNER and ATTEST
does where its checks pass, how an attestation starts, and what the recovery function does for the port that has its session and for
the other one.
-/
namespace Sys2Proof.Machine

/-! The verdicts of checks in turn. -/

/-- A check that finds nothing passes on to those after it. -/
theorem firstFail_pass {bad : Bool} {st : ℕ} {rest : List (Bool × ℕ)} (fine : bad = false) :
    firstFail ((bad, st) :: rest) = firstFail rest := by
  subst fine; rfl

/-- One check that finds nothing lets the command go. -/
theorem firstFail_one {bad : Bool} {st : ℕ} (fine : bad = false) : firstFail [(bad, st)] = .go := firstFail_pass fine

/-- Two checks that find nothing let the command go. -/
theorem firstFail_two {bad bad' : Bool} {st st' : ℕ} (fine : bad = false) (fine' : bad' = false) :
    firstFail [(bad, st), (bad', st')] = .go := (firstFail_pass fine).trans (firstFail_one fine')

/-- Three checks that find nothing let the command go. -/
theorem firstFail_three {bad bad' bad'' : Bool} {st st' st'' : ℕ} (fine : bad = false) (fine' : bad' = false)
    (fine'' : bad'' = false) : firstFail [(bad, st), (bad', st'), (bad'', st'')] = .go :=
  (firstFail_pass fine).trans (firstFail_two fine' fine'')

/-! The commands (R516–R520, R524, R526). -/

section
variable {c : CmdRef} {d : CmdIn} {k : Cmd} {ps inp : List Byte} {s : State}

/-- FW_STAGE with OP BEGIN erases the inactive slot and opens the session. -/
theorem exec_fwStageBegin (due : Due 0x50 (fun ps => !opIs 1 ps) c d k ps inp s) (unused : k.dataLen = 0) (begins : field ps 0 1 = 0)
    (may : updateRefused s = false) :
    exec (.fwStageBegin c d) s =
      .next (completeSt k.ref stOk (openSession (1 - s.board.boot.slot) (cmdPort k (running c s)) (running c s))) :=
  next_begin due (firstFail_two (by rw [begins, unused]; rfl) may) rfl

/-- FW_STAGE with OP CHUNK programs the chunk. -/
theorem exec_fwStageChunk {x : StageSession} (due : Due 0x50 (opIs 1) c d k ps inp s) (aligned : field ps 8 4 % 4096 = 0)
    (bytes : 1 ≤ k.dataLen) (most : k.dataLen ≤ 1048576) (inside : field ps 8 4 + k.dataLen ≤ 0x17FF000)
    (session : s.board.boot.session = some x) (own : x.port = cmdPort k s) (fresh : programmed x (field ps 8 4) k.dataLen = false)
    (crc : crc32c inp = field ps 4 4) :
    exec (.fwStageChunk c d) s =
      .next (completeSt k.ref stOk (programSlot (1 - s.board.boot.slot) (field ps 8 4) inp (running c s))) := by
  refine next_begin due ?_ rfl
  have range : (field ps 8 4 % 4096 != 0 || k.dataLen == 0 || 1048576 < k.dataLen || 0x17FF000 < field ps 8 4 + k.dataLen) = false := by
    simp only [aligned, bne_self_eq_false, Bool.false_or, Bool.or_eq_false_iff, beq_eq_false_iff_ne, decide_eq_false_iff_not]
    omega
  have mine : (x.port != cmdPort k s) = false := by rw [own]; exact bne_self_eq_false _
  have sound : (programmed x (field ps 8 4) k.dataLen || crc32c inp != field ps 4 4) = false := by
    rw [fresh, crc]; exact bne_self_eq_false _
  simp only [chunkCheck, range, session, Bool.false_eq_true, if_false]
  exact firstFail_two mine sound

/-- FW_ARM writes the commit record and puts the slot on trial, and where it is asked to, resets. -/
theorem exec_fwArm {v : SlotSigs} (due : Due 0x51 (fun _ => true) c d k ps inp s) (unused : k.dataLen = 0)
    (flags : field ps 0 1 ≤ 1) (may : updateRefused s = false)
    (owns : s.board.boot.session = none ∨ ∃ x, s.board.boot.session = some x ∧ x.port = cmdPort k s)
    (agrees : ownerAgrees (1 - s.board.boot.slot) v s = true) (passes : imagePasses (1 - s.board.boot.slot) v s = true) :
    let u := armSlot (1 - s.board.boot.slot) id (running c s)
    exec (.fwArm c d v) s = .next (complete k.ref stOk 0 (manifest (getFwSlot (1 - s.board.boot.slot) (running c s)) 8 4) []
      (if field ps 0 1 = 1 then onBoot (fun b => { b with resetReq := some .fwArm }) u else u)) := by
  have mine : s.board.boot.session.any (fun x => x.port != cmdPort k s) = false := by
    obtain unopened | ⟨x, session, own⟩ := owns
    · rw [unopened]; rfl
    · rw [session, Option.any_some, own]; exact bne_self_eq_false _
  refine next_begin due (firstFail_three (by rw [unused]; rfl) (by simp only [inactiveSlot, may, agrees, mine]; rfl)
    (by simp only [inactiveSlot, passes]; rfl)) ?_
  obtain off | on : field ps 0 1 = 0 ∨ field ps 0 1 = 1 := by omega
  · rw [off]; rfl
  · rw [on]; rfl

/-- FW_CONFIRM without a trial has nothing to do. -/
theorem exec_fwConfirm_confirmed (due : Due 0x52 (fun _ => true) c d k ps inp s) (unused : k.dataLen = 0)
    (confirmed : s.board.boot.trial = false) : exec (.fwConfirm c d) s = .next (completeSt k.ref stOk (running c s)) := by
  have still : (running c s).board.boot.trial = false := confirmed
  exact next_begin due (firstFail_three (by rw [unused]; rfl) (by rw [confirmed]; rfl) (by rw [confirmed]; rfl))
    (by simp only [still, Bool.not_false, if_true])

/-- FW_CONFIRM of a healthy trial makes its slot the active one. -/
theorem exec_fwConfirm_trial (due : Due 0x52 (fun _ => true) c d k ps inp s) (unused : k.dataLen = 0)
    (trial : s.board.boot.trial = true) (mounted : s.med.state ≠ .mounting) (sound : healthy s = true) :
    exec (.fwConfirm c d) s = .next (complete k.ref stOk 1 0 [] (raiseSvn s.board.boot.slot (onBoot (fun b => { b with
      record := appendRec { b.record with active := s.board.boot.slot, trial := 0xFF, last := 0 }, trial := false, trialEnd := none })
      (running c s)))) := by
  have still : (running c s).board.boot.trial = true := trial
  refine next_begin due (firstFail_three (by rw [unused]; rfl) ?_ (by rw [sound]; exact Bool.and_false _)) ?_
  · rw [beq_false_of_ne mounted]; exact Bool.and_false _
  · simp only [still, Bool.not_true, Bool.false_eq_true, if_false]; rfl

/-- OWNER with OP READ draws a fresh challenge and writes the record with it. -/
theorem exec_ownerRead (due : Due 0x54 (fun ps => opIs 0 ps || 3 < field ps 0 1) c d k ps inp s) (unused : k.dataLen = 0)
    (read : field ps 0 1 = 0) :
    let ch := (List.range 32).map (Config.freeByte s.free)
    exec (.ownerRead c d) s = .next (finish k.ref d.resultOk stOk 0 0 (ownerBytes s.board.boot.owner ch)
      (takeFree 1 (onBoot (fun b => { b with challenge := some ch }) (running c s)))) :=
  next_begin due (firstFail_one (by rw [ownerBad, read, unused]; rfl)) rfl

/-- The operation that a form asks for is one of OWNER's. -/
theorem ownerBad_of_op {op : ℕ} (form : opIs op ps = true) (known : op ≤ 3) {len : ℕ} (length : k.dataLen = len) :
    ownerBad k ps len = false := by
  have asked : field ps 0 1 = op := by simpa [opIs] using form
  simp only [ownerBad, asked, length, bne_self_eq_false, Bool.or_false, decide_eq_false_iff_not]
  omega

/-- OWNER with OP INSTALL_KEY installs the key while the owner lock is open. -/
theorem exec_ownerInstallKey (due : Due 0x54 (opIs 1) c d k ps inp s) (length : k.dataLen = 60)
    (free : s.board.boot.owner.locked = false) (key : keyOk inp = true) :
    exec (.ownerInstallKey c d) s =
      .next (completeSt k.ref stOk (onOwner (fun o => { o with key := some inp }) (running c s))) :=
  next_begin due (firstFail_three (ownerBad_of_op due.form (by decide) length) free (by rw [key]; rfl)) rfl

/-- OWNER with OP LOCK locks where the running slot is countersigned. -/
theorem exec_ownerLock {ok : Bool} (due : Due 0x54 (opIs 2) c d k ps inp s) (length : k.dataLen = 0)
    (signed : countersigned (getFwSlot s.board.boot.slot s) ok s = true) :
    exec (.ownerLock c d ok) s =
      .next (completeSt k.ref stOk (onOwner (fun o => { o with locked := true }) (running c s))) :=
  next_begin due (firstFail_two (ownerBad_of_op due.form (by decide) length) (by rw [signed]; rfl)) rfl

/-- OWNER with OP UNLOCK spends the challenge, and unlocks where the signature holds. -/
theorem exec_ownerUnlock {ok : Bool} (due : Due 0x54 (opIs 3) c d k ps inp s) (length : k.dataLen = 2964) :
    let spent := onBoot (fun b => { b with challenge := none }) (running c s)
    exec (.ownerUnlock c d ok) s = .next (
      if ok && hssForm inp && s.board.boot.challenge.isSome && s.board.boot.owner.key.isSome then
        completeSt k.ref stOk (onOwner (fun o => { o with locked := false }) spent)
      else completeSt k.ref stRefused spent) :=
  next_begin due (firstFail_one (ownerBad_of_op due.form (by decide) length)) rfl

/-- The four things that an unlock asks for, one of them missing. -/
theorem unlock_fails {ok form : Bool} {challenge key : Option (List Byte)}
    (missing : ok = false ∨ form = false ∨ challenge = none ∨ key = none) :
    (ok && form && challenge.isSome && key.isSome) = false := by
  rcases missing with rfl | rfl | rfl | rfl <;> simp only [Bool.false_and, Bool.and_false, Option.isSome_none]

/-- ATTEST starts where 5 ms have passed and none waits, and else waits after the others. -/
theorem exec_attest (due : Due 0x53 (fun _ => true) c d k ps inp s) (length : k.dataLen = 32) :
    exec (.attest c d) s = .next (
      if attestFree s && s.board.boot.attWaiting.isEmpty then runAttest k.ref inp d.resultOk (running c s)
      else onBoot (fun b => { b with attWaiting := b.attWaiting ++ [(k.ref, inp, d.resultOk)] }) (running c s)) :=
  next_begin due (firstFail_one (by rw [length]; rfl)) rfl

end

/-! Attestation (R526, R528). -/

section
variable {c : CmdRef} {nonce : List Byte} {ok : Bool} {q : ℕ} {s : State} (index : s.board.boot.attNext = some q)
include index

/-- An attestation that starts spends its index and answers. -/
theorem runAttest_answers (left : q < 2 ^ 20) :
    let u := onBoot (fun b => { b with attNext := some (q + 1) }) (onBoot (fun b => { b with attLast := some (timeUs s) }) s)
    runAttest c nonce ok s = finish c ok stOk 0 0 (attestBytes q nonce u) u := by
  have next : (onBoot (fun b => { b with attLast := some (timeUs s) }) s).board.boot.attNext = some q := index
  simp only [runAttest, next, if_neg (Nat.not_le.2 left)]

/-- No index is left after 2^20 of them. -/
theorem runAttest_spent (spent : 2 ^ 20 ≤ q) :
    runAttest c nonce ok s = completeSt c stNoResource (onBoot (fun b => { b with attLast := some (timeUs s) }) s) := by
  have next : (onBoot (fun b => { b with attLast := some (timeUs s) }) s).board.boot.attNext = some q := index
  simp only [runAttest, next, if_pos spent]

end

/-- The first that waits starts once 5 ms have passed. -/
theorem exec_attestStart {c : CmdRef} {nonce : List Byte} {ok : Bool} {now : ℕ} {s : State} {rest : List (CmdRef × List Byte × Bool)}
    (first : s.board.boot.attWaiting = (c, nonce, ok) :: rest) (free : attestFree (atTime now s) = true) :
    exec (.attestStart now) s =
      .next (runAttest c nonce ok (onBoot (fun b => { b with attWaiting := rest }) (atTime now s))) := by
  have first' : (atTime now s).board.boot.attWaiting = (c, nonce, ok) :: rest := first
  refine congrArg Host.Outcome.next ?_
  simp only [first', free, if_true]

/-! Recovery (R521–R523). -/

section
variable {p : Port} {needs : Bool} {act : State → State} {s : State} (stage : s.board.boot.stage = .recovery)
include stage

/-- An operation that needs no session is done for a port while there is none. -/
theorem rcvOp_free (unopened : s.board.boot.session = none) : rcvOp p false act s = act s := by
  simp only [rcvOp, stage, unopened, Bool.false_eq_true, if_false]

/-- An operation of the port that has the session is done. -/
theorem rcvOp_own (own : ∃ x, s.board.boot.session = some x ∧ x.port = p) : rcvOp p needs act s = act s := by
  obtain ⟨x, session, port⟩ := own
  simp only [rcvOp, stage, session, port, if_true]

/-- An operation of the other port fails. -/
theorem rcvOp_other (other : ∃ x, s.board.boot.session = some x ∧ x.port ≠ p) : rcvOp p needs act s = rcvEnds 1 s := by
  obtain ⟨x, session, port⟩ := other
  simp only [rcvOp, stage, session, port, if_false]

/-- ERASE and RESET are done for a port that has the session or takes it. -/
theorem rcvOp_open (may : s.board.boot.session = none ∨ ∃ x, s.board.boot.session = some x ∧ x.port = p) :
    rcvOp p false act s = act s :=
  may.elim (rcvOp_free stage) (rcvOp_own stage)

/-- In recovery WRITE fills the DATA window, then operates. -/
theorem exec_rcvWrite {chunk : ℕ} {data : List Byte} :
    exec (.rcvWrite p chunk data) s = .next (rcvOp p true (rcvProgram chunk) (fillWindow 0 (fit 65536 data) s)) := by
  have runs : recoveryFn s = true := by rw [recoveryFn, stage]; rfl
  exact congrArg Host.Outcome.next (if_pos runs)

end

/-- A chunk inside the slot of whose bytes none is programmed is programmed. -/
theorem rcvProgram_programs {chunk : ℕ} {s : State} (inside : chunk ≤ 383)
    (fresh : ∀ x, s.board.boot.session = some x → programmed x (65536 * chunk)
      (readBytes s.board.boot.window 0 (if chunk = 383 then 61440 else 65536)).length = false) :
    rcvProgram chunk s = rcvEnds 0 (programSlot 0 (65536 * chunk)
      (readBytes s.board.boot.window 0 (if chunk = 383 then 61440 else 65536)) s) := by
  have fine : s.board.boot.session.any (fun x => programmed x (65536 * chunk)
      (readBytes s.board.boot.window 0 (if chunk = 383 then 61440 else 65536)).length) = false := by
    exact (Option.any_eq_false _ _).2 fresh
  have inside' : ¬ 383 < chunk := Nat.not_lt.2 inside
  simp only [rcvProgram, inside', fine, decide_false, Bool.or_false, Bool.false_eq_true, if_false]

/-- ARM of an image that passes, with the bank full, commits slot A and puts it on trial. -/
theorem rcvArm_arms {v : SlotSigs} {s : State} (full : 90 ≤ holdupPct s) (agrees : ownerAgrees 0 v s = true)
    (passes : imagePasses 0 v s = true) :
    rcvArm v s = rcvEnds 0 (armSlot 0 (fun r => { r with active := 0, last := 2 }) s) := by
  obtain ⟨⟨manifest, holds⟩, svn⟩ : (manifestOk (getFwSlot 0 s) s = true ∧ imageHolds (getFwSlot 0 s) v s = true) ∧
      s.board.boot.minSvn ≤ slotSvn (getFwSlot 0 s) := by
    simpa only [imagePasses, Bool.and_eq_true, decide_eq_true_eq] using passes
  simp only [rcvArm, if_neg (Nat.not_lt.2 full), agrees, manifest, holds, if_neg (Nat.not_lt.2 svn), Bool.not_true, Bool.and_true,
    Bool.false_eq_true, if_false]

/-- Settles O57: each command by its equation where its checks pass; an attestation by the index that is left; the recovery
function by the port that has the session. -/
theorem firmwareOwnerAttest : Obligations.FirmwareOwnerAttest := by
  unfold Obligations.FirmwareOwnerAttest
  refine ⟨fun c d k ps inp ok s => ⟨?begins, ?chunk, ?arm, ?confirm, ?read, ?install, ?lock, ?unlock, ?attest⟩,
    fun c nonce ok now q s index => ⟨runAttest_answers index, runAttest_spent index, fun rest => exec_attestStart⟩,
    fun p chunk data v s stage => ⟨?rcvOpen, ?rcvMine, ?rcvOther⟩⟩
  case begins => exact fun due begins may => exec_fwStageBegin due.1 due.2 begins may
  case chunk =>
    exact fun x due aligned bytes most inside session own fresh crc =>
      exec_fwStageChunk due.1 aligned bytes most inside session own fresh crc
  case arm => exact fun due flags may owns v agrees passes => exec_fwArm due.1 due.2 flags may owns agrees passes
  case confirm =>
    exact fun due => ⟨exec_fwConfirm_confirmed due.1 due.2, exec_fwConfirm_trial due.1 due.2⟩
  case read => exact fun due read => exec_ownerRead due.1 due.2 read
  case install => exact fun due free key => exec_ownerInstallKey due.1 due.2 free key
  case lock => exact fun due signed => exec_ownerLock due.1 due.2 signed
  case unlock =>
    intro due
    refine ⟨fun holds form challenge key => ?_, fun missing => ?_⟩
    · refine (exec_ownerUnlock due.1 due.2).trans (congrArg Host.Outcome.next (if_pos ?_))
      simp only [holds, form, Option.isSome_iff_ne_none.2 challenge, Option.isSome_iff_ne_none.2 key, Bool.and_self]
    · exact (exec_ownerUnlock due.1 due.2).trans
        (congrArg Host.Outcome.next (if_neg (Bool.eq_false_iff.1 (unlock_fails missing))))
  case attest =>
    intro due
    refine ⟨fun free nobody => ?_, fun waits => ?_⟩
    · exact (exec_attest due.1 due.2).trans (congrArg Host.Outcome.next (if_pos (by rw [free, nobody]; rfl)))
    · refine (exec_attest due.1 due.2).trans (congrArg Host.Outcome.next (if_neg ?_))
      rw [Bool.and_eq_true, List.isEmpty_iff, not_and_or, Bool.not_eq_true]
      exact waits
  case rcvOpen =>
    exact fun may => ⟨congrArg Host.Outcome.next (rcvOp_open stage may), congrArg Host.Outcome.next (rcvOp_open stage may)⟩
  case rcvMine =>
    intro mine
    refine ⟨fun inside fresh => ?_, fun full agrees passes => ?_⟩
    · rw [exec_rcvWrite stage, rcvOp_own (s := fillWindow 0 (fit 65536 data) s) stage mine, rcvProgram_programs inside fresh]
      rfl
    · exact congrArg Host.Outcome.next ((rcvOp_own stage mine).trans (rcvArm_arms full agrees passes))
  case rcvOther =>
    intro other
    refine ⟨?_, ?_⟩
    · rintro i (rfl | rfl | rfl) <;> exact congrArg Host.Outcome.next (rcvOp_other stage other)
    · rw [exec_rcvWrite stage, rcvOp_other (s := fillWindow 0 (fit 65536 data) s) stage other]
      rfl

end Sys2Proof.Machine
end

section
/-!
PROOFS. Errors and scrubs (chapter 16). O54: records handled and retired, the outcomes of a scrub of DRAM and of SRAM, links that fail,
substitutions and the watchdog.
-/
namespace Sys2Proof.Machine

/-! What a patrol scrub does (R476). -/

/-- What follows a patrol read: the last codeword of a stack ends a pass (R476, R500). -/
def endPass (stack pc row unit : ℕ) (t : State) : State :=
  if pc = 31 ∧ row = 1179647 ∧ unit = 15 then onDram stack (fun d => { d with passes := wrap64 (d.passes + 1) }) t else t

section
variable {stack pc row unit : ℕ} {s : State} (inStack : stack < 8) (inChannel : pc < 32) (inRows : row < 1179648)
  (inRow : unit < 16) (on : s.err.scrubH ≠ 0)

/-- The patrol skips a row of a running write set. -/
theorem exec_patrolScrub_skips {bank : ℕ} {first again : EccOutcome} (written : inWriteSet (32 * stack + pc) row s = true) :
    exec (.patrolScrub stack pc bank row unit first again) s = .next s :=
  congrArg Host.Outcome.next (if_pos (by rw [written]; exact Bool.or_true _))

include inStack inChannel inRows inRow on

/-- The patrol reads every other codeword. -/
theorem exec_patrolScrub_reads {first again : EccOutcome} {t : State} (free : inWriteSet (32 * stack + pc) row s = false)
    (read : patrolRead stack pc (row % 32) row unit first again s = t) :
    exec (.patrolScrub stack pc (row % 32) row unit first again) s = .next (endPass stack pc row unit t) := by
  subst read
  refine congrArg Host.Outcome.next (if_neg ?_)
  simp only [free, Nat.not_le.2 inStack, Nat.not_le.2 inChannel, Nat.not_le.2 inRows, Nat.not_le.2 inRow, beq_false_of_ne on,
    bne_self_eq_false, decide_false, Bool.or_false, Bool.false_eq_true, not_false_eq_true]

end

/-- A codeword that the patrol finds wrong and corrects: with fewer than two bytes wrong the patrol too writes it back. -/
def patrolled (stack pc bank row unit n : ℕ) (s : State) : State :=
  let t := dramCorrected stack pc bank row unit n s
  if n < 2 then
    onErr (fun e => { e with rewritten := { stack := stack, pc := pc, bank := bank, row := row, unit := unit } :: e.rewritten })
      (onDram stack (fun d => { d with fixed := wrap64 (d.fixed + 1) }) t)
  else t

section
variable {stack pc bank row unit n : ℕ} {s : State}

/-- The second read may find the codeword clean, -/
theorem patrolRead_corrected_clean : patrolRead stack pc bank row unit (.corrected n) .clean s =
    noteRead { stack := stack, pc := pc, bank := bank, row := row, unit := unit } (patrolled stack pc bank row unit n s) := rfl

/-- or wrong again, -/
theorem patrolRead_corrected_corrected {m : ℕ} : patrolRead stack pc bank row unit (.corrected n) (.corrected m) s =
    dramCorrected stack pc bank row unit m (patrolled stack pc bank row unit n s) := rfl

/-- or beyond correction. -/
theorem patrolRead_corrected_uncorrectable : patrolRead stack pc bank row unit (.corrected n) .uncorrectable s =
    (dramLost none stack pc bank row unit (patrolled stack pc bank row unit n s)).1 := by
  simp only [patrolRead, dramRead, patrolled]

end

/-! A halt follows a step only where the step sets HALTED (R487). -/

/-- Where what is done leaves HALTED as it was, no halt follows. -/
theorem settleHalt_same {f : State → State} {s : State} (same : (f s).err.halted = s.err.halted) : settleHalt f s = f s := by
  simp only [settleHalt, same, Bool.and_not_self, Bool.false_eq_true, if_false]

/-- A halt follows only from what is done to the state at hand. -/
theorem settleHalt_congr {f g : State → State} {s : State} (same : f s = g s) : settleHalt f s = settleHalt g s := by
  simp only [settleHalt, same]

/-- A word that is clean leaves everything as it is. -/
theorem exec_sramScrub_clean {struct place unit word : ℕ} {owner : Option UnitKind} {s : State} :
    exec (.sramScrub struct place unit word owner .clean) s = .next s :=
  congrArg Host.Outcome.next (settleHalt_same rfl)

/-- An uncorrectable word of no unit, outside remap tables and error queues, is filed. -/
theorem sramLost_unowned {struct place unit word : ℕ} {s : State} (noTable : struct ≠ 7) (noQueue : struct ≠ 8) :
    sramLost struct place unit word none s =
      (fileErr (mkRec 0x13 (sramSev struct) 2 (locSram struct place unit word 0)) none (sramSev struct == 3)
        (onErr (fun e => { e with sramUe := wrap64 (e.sramUe + 1) }) s)).1 := by
  have unstruck (t : State) : remapStruck struct place t = none := if_neg noTable
  simp only [sramLost, if_neg noQueue, unstruck, bne_iff_ne.2 noTable, Bool.and_true]

/-- A flit sent once more (R477). -/
def flitResent : State → State := onErr fun e => { e with nocRetry := wrap64 (e.nocRetry + 1) }

/-- A flit that failed twice: its link is out of service, and the command whose transaction it was ends UNCORRECTABLE (R477). -/
def flitLost (b l : ℕ) (c : Option CmdRef) (s : State) : State :=
  let t := onErr (fun e => { e with nocUe := wrap64 (e.nocUe + 1), nocOut := e.nocOut ++ [(b, l)] }) (flitResent s)
  let base := mkRec 0x14 2 3 (locNoc b l)
  let e := match c.bind fun c => findCmd c t with
    | some k => cmdRec k base
    | none => base
  let r := fileErr e none false t
  match c with
  | some c => endUncorr r.2.1 r.2.2 r.1 c
  | none => r.1

/-- The transaction of a command that waits or runs ends with that command. -/
theorem flitLost_command {b l : ℕ} {c : CmdRef} {k : Cmd} {s : State} (found : findCmd c s = some k) :
    flitLost b l (some c) s =
      let r := fileErr (cmdRec k (mkRec 0x14 2 3 (locNoc b l))) none false
        (onErr (fun e => { e with nocUe := wrap64 (e.nocUe + 1), nocOut := e.nocOut ++ [(b, l)] }) (flitResent s))
      endUncorr r.2.1 r.2.2 r.1 c := by
  have still : findCmd c (onErr (fun e => { e with nocUe := wrap64 (e.nocUe + 1), nocOut := e.nocOut ++ [(b, l)] })
    (flitResent s)) = some k := found
  simp only [flitLost, Option.bind_some, still]

section
variable {b l : ℕ} {s : State} (boundary : b < 4) (link : l < 16) (serving : s.err.nocOut.contains (b, l) = false)
include boundary link serving

/-- A flit that a link in service fails is sent again, and a second failure takes the link out of service. -/
theorem flitFails_serving {again : Bool} {c : Option CmdRef} :
    flitFails b l again c s = if again then flitLost b l c s else flitResent s := by
  have fine : (4 ≤ b || 16 ≤ l || s.err.nocOut.contains (b, l)) = false := by
    simp only [serving, Nat.not_le.2 boundary, Nat.not_le.2 link, decide_false, Bool.or_false]
  refine (if_neg (Bool.eq_false_iff.1 fine)).trans ?_
  cases again <;> rfl

/-- A flit whose second sending arrives is counted. -/
theorem exec_nocFlitFailure_resent {c : Option CmdRef} : exec (.nocFlitFailure b l false c) s = .next (flitResent s) := by
  have resent : flitFails b l false c s = flitResent s := flitFails_serving boundary link serving
  exact congrArg Host.Outcome.next ((settleHalt_same (by rw [resent]; rfl)).trans resent)

end

/-- A substitution that may run uses a spare; a good one takes the unit's number, a bad one is entered (R341, R493). -/
theorem substitute_ready {kind : UnitKind} {n : ℕ} {u : UnitOut} {ok : Bool} {s : State} (found : findOut kind n s = some u)
    (waits : u.retired = false) (ready : substReady kind n s = true) (spare : sparesLeft kind n s ≠ 0) :
    substitute kind n ok s =
      let t := useSpare kind n s
      let p := (unitOwner kind n s).getD 64
      let logged := logRepair (unitRepair kind n 0 u.seq) t
      let back := onErr (fun e => { e with outs := e.outs.filter fun x => !(x.kind == kind && x.unit == n) })
        (fileRec { unitRec 0x21 0 kind n logged with nestedSeq := u.seq } logged)
      let bad := logRepair { unitRepair kind n 0 u.seq with kind := 9, logical := 0xFFFF } t
      let filed := (fileErr (unitRec 0x20 2 kind n bad) (some u.seq) false bad).1
      if ok then settleWait p
        (if p < 64 then onPart p (fun x => { x with counts := { x.counts with substs := wrap64 (x.counts.substs + 1) } }) back
          else back)
      else if sparesLeft kind n filed = 0 then retireUnit kind n u.seq false filed else filed := by
  simp only [substitute, found, waits, ready, decide_eq_false spare, Bool.not_true, Bool.or_false, Bool.false_eq_true, if_false]

/-! Error queues (R482). -/

/-- An error queue changed reads the changed value. -/
@[simp] theorem getErrQueue_onErrQueue {sev : ℕ} {f : ErrQueue → ErrQueue} {s : State} :
    getErrQueue sev (onErrQueue sev f s) = f (getErrQueue sev s) := sget_smod_same _ _ _ _

/-- LOST cleared by a write with bit 31 (R498). -/
def clearLost (sev v : ℕ) (s : State) : State := if bit v 31 then onErrQueue sev (fun q => { q with lost := false }) s else s

/-- Clearing LOST leaves the records and HEAD as they are. -/
theorem getErrQueue_clearLost (sev v : ℕ) (s : State) :
    getErrQueue sev (clearLost sev v s) = { getErrQueue sev s with lost := (getErrQueue sev s).lost && !bit v 31 } := by
  unfold clearLost
  cases bit v 31 <;> simp

/-- A write of ERR_QSTAT clears LOST, and retires what its HEAD asks for unless the port is not the owner's, or a record that it
would retire is missing or not handled. -/
theorem writeErrQstat_eq (f : Fn) (sev v : ℕ) (s : State) :
    let q := getErrQueue sev s
    let n := retireCount q (v % 32)
    writeErrQstat f sev v s =
      if f.vf ≠ 0 ∨ f.port.num ≠ s.err.owner ∨ q.recs.length < n ∨ (∃ r ∈ q.recs.take n, r.handled = false) then
        clearLost sev v s
      else onErrQueue sev (fun q => { q with recs := q.recs.drop n, head := v % 32 }) (clearLost sev v s) := by
  have owner : (clearLost sev v s).err.owner = s.err.owner := by unfold clearLost; split <;> rfl
  have recs : (getErrQueue sev (clearLost sev v s)).recs = (getErrQueue sev s).recs := by rw [getErrQueue_clearLost]
  have count : retireCount (getErrQueue sev (clearLost sev v s)) (v % 32) = retireCount (getErrQueue sev s) (v % 32) := by
    rw [getErrQueue_clearLost]; rfl
  intro q n
  change (if f.vf != 0 || f.port.num != (clearLost sev v s).err.owner
    || (getErrQueue sev (clearLost sev v s)).recs.length < retireCount (getErrQueue sev (clearLost sev v s)) (v % 32)
    || ((getErrQueue sev (clearLost sev v s)).recs.take (retireCount (getErrQueue sev (clearLost sev v s)) (v % 32))).any (!·.handled)
    then clearLost sev v s else onErrQueue sev (fun q => { q with
      recs := q.recs.drop (retireCount (getErrQueue sev (clearLost sev v s)) (v % 32)), head := v % 32 }) (clearLost sev v s)) = _
  rw [owner, recs, count]
  refine if_congr ?_ rfl rfl
  simp only [Bool.or_eq_true, bne_iff_ne, decide_eq_true_eq, List.any_eq_true, Bool.not_eq_true', or_assoc, q, n]

/-- Settles O54: records by the definitions of their handling and retirement; a scrub by its outcome and, with fewer than two bytes
wrong, that of the read after the write-back; a flit by whether it fails twice; a substitution by whether the spare is good. -/
theorem errorsAndScrubs : Obligations.ErrorsAndScrubs := by
  unfold Obligations.ErrorsAndScrubs
  refine ⟨?handled, ?retired, ?patrol, ?corrected, ?sram, ?noc, ?spare, ?watchdog⟩
  case handled => exact fun sev seq now s severity => congrArg Host.Outcome.next (if_pos severity)
  case retired =>
    refine fun f sev v s severity => ⟨fun pf owner held handled => ?_, fun refused => ?_⟩
    · refine congrArg Host.Outcome.next ((if_pos severity).trans ((writeErrQstat_eq f sev v.toNat s).trans (if_neg ?_)))
      rw [not_or, not_or, not_or]
      exact ⟨not_not.2 pf, not_not.2 owner, Nat.not_lt.2 held, fun ⟨r, listed, open'⟩ =>
        absurd (handled r listed) (Bool.eq_false_iff.1 open')⟩
    · exact congrArg Host.Outcome.next ((if_pos severity).trans ((writeErrQstat_eq f sev v.toNat s).trans (if_pos refused)))
  case patrol =>
    intro stack pc bank row unit again s inStack inChannel inRows bank_row inRow on
    subst bank_row
    refine ⟨fun written first => exec_patrolScrub_skips written, fun free => ?_⟩
    have reads {first again : EccOutcome} {t : State} :=
      exec_patrolScrub_reads (first := first) (again := again) (t := t) inStack inChannel inRows inRow on free
    exact ⟨reads rfl, reads rfl, fun n =>
      ⟨reads patrolRead_corrected_clean, reads patrolRead_corrected_uncorrectable, fun m => reads patrolRead_corrected_corrected⟩⟩
  case corrected =>
    refine fun stack pc bank row unit n s => ⟨fun fresh => ?_, fun again => ?_⟩
    · simp only [dramCorrected, fresh, Bool.false_eq_true, if_false]
    · simp only [dramCorrected, again, if_true]
  case sram =>
    exact fun struct place unit word n owner s => ⟨exec_sramScrub_clean, rfl, fun kind => rfl, rfl, fun noTable noQueue =>
      congrArg Host.Outcome.next (settleHalt_congr (sramLost_unowned noTable noQueue))⟩
  case noc =>
    intro b l c s boundary link serving
    refine ⟨exec_nocFlitFailure_resent boundary link serving, ?_, fun c' k named found => ?_⟩
    · exact congrArg Host.Outcome.next (settleHalt_congr (flitFails_serving boundary link serving))
    · subst named
      exact congrArg Host.Outcome.next
        (settleHalt_congr ((flitFails_serving boundary link serving).trans (flitLost_command found)))
  case spare =>
    intro kind n u s found waits ready spare
    refine ⟨congrArg Host.Outcome.next (settleHalt_congr ((substitute_ready found waits ready spare).trans ?_)),
      congrArg Host.Outcome.next (settleHalt_congr (substitute_ready found waits ready spare))⟩
    dsimp only
    rw [if_pos rfl, apply_ite (fun f : State → State => f _)]
    rfl
  case watchdog =>
    refine fun kind n s => ⟨fun removes => ?_, fun stays => ?_⟩
    · refine congrArg Host.Outcome.next (settleHalt_congr ?_)
      simp only [watchdog, removes, Bool.not_true, Bool.false_eq_true, if_false]
    · have idle : watchdog kind n s = s := by simp only [watchdog, stays, Bool.not_false, if_true]
      exact congrArg Host.Outcome.next ((settleHalt_same (congrArg (fun t : State => t.err.halted) idle)).trans idle)

end Sys2Proof.Machine
end

section
/-!
PROOFS. Criers, gating and the events of errors (chapters 1, 15 and 16). O53: the writes of crier registers by the endpoint that makes
them, the gating and the waking of units, and how records, scrubs, flits, spares and watchdogs end.
-/
namespace Sys2Proof.Machine

/-! The registers of a crier (R452, R455, R459). -/

section
variable {e : Endpoint} {n : ℕ} {s : State} (numbered : n < 128)
include numbered

/-- A post that reaches its register is a post of the crier. -/
theorem exec_crierPost {v : W32} (reaches : EndpointReaches e (crierOff n 4) s) :
    exec (.crierPost e n v) s = .next (postCrier e n v.toNat s) :=
  congrArg Host.Outcome.next ((if_pos numbered).trans (endpointWrite_reaches reaches))

/-- A take that reaches its register is a take of the crier. -/
theorem exec_crierTake (reaches : EndpointReaches e (crierOff n 0x10) s) :
    exec (.crierTake e n) s = .next (takeCrier e n s) :=
  congrArg Host.Outcome.next ((if_pos numbered).trans (endpointWrite_reaches reaches))

/-- A withdrawal that reaches its register is a withdrawal of the crier. -/
theorem exec_crierWithdraw (reaches : EndpointReaches e (crierOff n 0x10) s) :
    exec (.crierWithdraw e n) s = .next (withdrawCrier e n s) :=
  congrArg Host.Outcome.next ((if_pos numbered).trans (endpointWrite_reaches reaches))

/-- A write of its configuration that reaches its register is a write of the fields that its writer may write. -/
theorem exec_mbxCcfgWrite {v : W32} (reaches : EndpointReaches e (crierOff n 0) s) :
    exec (.mbxCcfgWrite e n v) s = .next (writeCcfg e n v.toNat s) :=
  congrArg Host.Outcome.next ((if_pos numbered).trans (endpointWrite_reaches reaches))

end

/-- A message crier watches no heartbeat. -/
theorem heartbeatPort_message {n : ℕ} (message : n < 126) : heartbeatPort n = none := by
  rw [heartbeatPort, if_neg (by omega), if_neg (by omega)]

/-- The crier that watches a port's heartbeat. -/
theorem heartbeatPort_eq_some {n : ℕ} {p : Port} : heartbeatPort n = some p ↔ n = 126 + p.num := by
  cases p <;> simp only [heartbeatPort, Port.num] <;> split_ifs <;> simp <;> omega

section
variable {e : Endpoint} {n notice : ℕ} {s : State}

/-- A post by any but the sender of an enabled crier is rejected. -/
theorem postCrier_unnamed (other : ¬((getCrier n s).sender = endpointCode e ∧ (getCrier n s).enable = true)) :
    postCrier e n notice s = rejectCrier e n (crierOff n 4) s := by
  rw [not_and_or, Bool.not_eq_true] at other
  exact if_pos other

section
variable (named : (getCrier n s).sender = endpointCode e ∧ (getCrier n s).enable = true)
include named

/-- The sender's post to an enabled message crier fills an empty one and is rejected by a full one. -/
theorem postCrier_message (message : n < 126) :
    postCrier e n notice s = if (getCrier n s).full then rejectCrier e n (crierOff n 4) s else
      notifyEndpoint (getCrier n s).receiver (countPost
        (onCrier n (fun c => { c with full := true, notice := notice, timer := some (timeUs s, c.timeoutUs) }) s)) := by
  have mine : ¬((getCrier n s).sender ≠ endpointCode e ∨ (getCrier n s).enable = false) := by
    rw [not_or, not_not, Bool.not_eq_false]; exact named
  simp only [postCrier, if_neg mine, heartbeatPort_message message]

/-- A port's post to its heartbeat crier is a heartbeat. -/
theorem postCrier_heartbeat {p : Port} (watch : heartbeatPort n = some p) : postCrier e n notice s = heartbeatPost p n s := by
  have mine : ¬((getCrier n s).sender ≠ endpointCode e ∨ (getCrier n s).enable = false) := by
    rw [not_or, not_not, Bool.not_eq_false]; exact named
  simp only [postCrier, if_neg mine, watch]

end

/-- A heartbeat of a port whose link is up arms its watch, clears LOST and restarts the timer. -/
theorem heartbeatPost_linked {p : Port} (linked : s.host.linkUp.contains p = true) :
    heartbeatPost p n s = onCrier n (fun c => { c with timer := some (timeUs s, c.timeoutUs) })
      (onHost (fun h => { h with
        hbArmed := if h.hbArmed.contains p then h.hbArmed else h.hbArmed ++ [p], hbLost := h.hbLost.filter (· != p) }) (countPost s)) := by
  have linked' : (countPost s).host.linkUp.contains p = true := linked
  simp only [heartbeatPost, linked', Bool.not_true, Bool.false_and, Bool.false_eq_true, if_false]
  rfl

end

/-! Their configuration (R453, R460, R466, R468). -/

section
variable {n v : ℕ} {s : State}

/-- Whether SENDER and RECEIVER of a crier may not change: it stays enabled, or is disabled and FULL (R460). -/
def crierFixed (n v : ℕ) (s : State) : Bool := if (getCrier n s).enable then bit v 31 else (getCrier n s).full

theorem crierFixed_iff : crierFixed n v s = true ↔ ((getCrier n s).enable = true ∧ bit v 31 = true) ∨
    ((getCrier n s).enable = false ∧ (getCrier n s).full = true) := by
  unfold crierFixed
  cases (getCrier n s).enable <;> simp

/-- A crier with its timeout written, and without its notice where the write disables it (R460, R466). -/
def retimed (n v : ℕ) (s : State) : Crier :=
  setTimeout (bits v 19 0) (if (getCrier n s).enable && !bit v 31 then emptied (getCrier n s) else getCrier n s)

/-- A crier so written names the endpoints it named. -/
theorem retimed_names : (retimed n v s).sender = (getCrier n s).sender ∧ (retimed n v s).receiver = (getCrier n s).receiver := by
  unfold retimed setTimeout
  split_ifs <;> exact ⟨rfl, rfl⟩

/-- The names of a crier are written where they stay the same or may change. -/
theorem writeCcfgFields_named (may : (bits v 27 24 = (getCrier n s).sender ∧ bits v 23 20 = (getCrier n s).receiver) ∨
    ¬crierFixed n v s = true) :
    writeCcfgFields n v s =
      onCrier n (fun _ => { retimed n v s with enable := bit v 31, sender := bits v 27 24, receiver := bits v 23 20 }) s := by
  by_cases same : bits v 27 24 = (getCrier n s).sender ∧ bits v 23 20 = (getCrier n s).receiver
  · obtain ⟨sender, receiver⟩ := same
    have kept : { retimed n v s with enable := bit v 31, sender := bits v 27 24, receiver := bits v 23 20 } =
        { retimed n v s with enable := bit v 31 } := by
      rw [sender, receiver, ← (retimed_names (v := v)).1, ← (retimed_names (v := v)).2]
    rw [kept]
    simp only [writeCcfgFields, sender, receiver, bne_self_eq_false, Bool.or_false, Bool.false_and, Bool.false_eq_true, if_false]
    rfl
  · have changes : (bits v 27 24 != (getCrier n s).sender || bits v 23 20 != (getCrier n s).receiver) = true := by
      rw [Bool.or_eq_true, bne_iff_ne, bne_iff_ne]; exact not_and_or.1 same
    have free : crierFixed n v s = false := Bool.eq_false_iff.2 (may.resolve_left same)
    unfold crierFixed at free
    simp only [writeCcfgFields, changes, free, Bool.true_and, Bool.not_false, if_true, Bool.false_eq_true, if_false]
    rfl

/-- Names that may not change stay, and the write is counted. -/
theorem writeCcfgFields_busy (fixed : crierFixed n v s = true)
    (changes : bits v 27 24 ≠ (getCrier n s).sender ∨ bits v 23 20 ≠ (getCrier n s).receiver) :
    writeCcfgFields n v s = onMbx (fun m => { m with cfgBusy := wrap64 (m.cfgBusy + 1) })
      (onCrier n (fun _ => { retimed n v s with enable := bit v 31 }) s) := by
  have changes' : (bits v 27 24 != (getCrier n s).sender || bits v 23 20 != (getCrier n s).receiver) = true := by
    rw [Bool.or_eq_true, bne_iff_ne, bne_iff_ne]; exact changes
  unfold crierFixed at fixed
  simp only [writeCcfgFields, changes', fixed, Bool.true_and, Bool.not_true, if_true, Bool.false_eq_true, if_false]
  rfl

end

section
variable {e : Endpoint} {n v : ℕ} {s : State}

/-- Firmware configures criers 0 to 95, a PF 96 to 125. -/
theorem writeCcfg_may (named : namesReserved v = false)
    (may : (n < 96 ∧ ¬(e = .host .a ∨ e = .host .b)) ∨ (96 ≤ n ∧ n < 126 ∧ (e = .host .a ∨ e = .host .b))) :
    writeCcfg e n v s = writeCcfgFields n v s := by
  obtain ⟨low, firmware⟩ | ⟨high, message, host⟩ := may
  · cases e with
    | host p => cases p <;> simp at firmware
    | core m => exact if_pos ⟨low, by rw [named]; rfl⟩
    | aoc => exact if_pos ⟨low, by rw [named]; rfl⟩
  · have pf (p : Port) : writeCcfg (.host p) n v s = writeCcfgFields n v s := by
      rw [writeCcfg, if_neg (Nat.not_lt.2 high), if_neg (Nat.not_le.2 message), named]
      rfl
    obtain rfl | rfl := host
    · exact pf .a
    · exact pf .b

/-- Neither configures the other's. -/
theorem writeCcfg_mayNot
    (may : (n < 96 ∧ (e = .host .a ∨ e = .host .b)) ∨ (96 ≤ n ∧ n < 126 ∧ ¬(e = .host .a ∨ e = .host .b))) :
    writeCcfg e n v s = s := by
  obtain ⟨low, rfl | rfl⟩ | ⟨high, _, firmware⟩ := may
  · exact if_pos low
  · exact if_pos low
  · cases e with
    | host p => cases p <;> simp at firmware
    | core m => exact if_neg fun may => Nat.not_lt.2 high may.1
    | aoc => exact if_neg fun may => Nat.not_lt.2 high may.1

/-- Of a heartbeat crier a PF configures the timeout, if the crier watches its own port. -/
theorem writeCcfg_heartbeat {p q : Port} (watch : heartbeatPort n = some q) :
    writeCcfg (.host p) n v s = if q = p then onCrier n (setTimeout (bits v 19 0)) s else s := by
  have place := heartbeatPort_eq_some.1 watch
  rw [writeCcfg, if_neg (by omega), if_pos (by omega), watch]
  simp only [Option.some.injEq]

end

/-- A timer that runs out marks its full crier and tells the sender (R455, R456). -/
theorem timeoutCrier_due {n start us : ℕ} {t : State} (timer : (getCrier n t).timer = some (start, us))
    (full : (getCrier n t).full = true) (due : start + us ≤ timeUs t) :
    timeoutCrier n t = notifyEndpoint (getCrier n t).sender
      (onMbx (fun m => { m with timeouts := wrap64 (m.timeouts + 1) })
        (onCrier n (fun c => { c with timedOut := true, timer := none }) t)) := by
  simp only [timeoutCrier, timer, full, Nat.not_lt.2 due, Bool.true_eq_false, or_self, if_false]

/-! Gating (R463). -/

section
variable {kind : UnitKind} {n since ns : ℕ} {s : State}

/-- A unit whose condition has held long enough is gated. -/
theorem gateUnit_gates (total : n < gateTotal kind) (awake : unitAwake kind n s = true) (may : s.board.pwr.noGate = false)
    (idle : gateCondition kind n s = true) (held : since + gateDelay since s ≤ timeUs s) :
    gateUnit kind n since s = setAwake kind n false s := by
  simp only [gateUnit, total, awake, may, idle, held, decide_true, Bool.not_false, Bool.and_self, if_true]

/-- A unit that is needed, or that may not be gated, stays as it is. -/
theorem gateUnit_stays (needed : gateCondition kind n s = false ∨ s.board.pwr.noGate = true) : gateUnit kind n since s = s := by
  refine if_neg ?_
  obtain needed | always := needed
  · simp only [needed, Bool.and_false, Bool.false_and, Bool.false_eq_true, not_false_eq_true]
  · simp only [always, Bool.not_true, Bool.and_false, Bool.false_and, Bool.false_eq_true, not_false_eq_true]

/-- A gated unit that is needed wakes, and with it the network of its quadrant. -/
theorem wakeUnit_wakes (total : n < gateTotal kind) (asleep : unitAwake kind n s = false)
    (needed : s.board.pwr.noGate = true ∨ gateCondition kind n s = false) :
    let u := setAwake kind n true s
    let q := unitQuadrant kind n
    wakeUnit kind n ns s = onPwr (fun p => { p with wakes := wrap64 (p.wakes + 1), wakeNsMax := max p.wakeNsMax ns })
      (if kind = .quadrantNet ∨ unitAwake .quadrantNet q u = true then u else setAwake .quadrantNet q true u) := by
  have wakes : (s.board.pwr.noGate || kind == .fwCore || !gateCondition kind n s) = true := by
    obtain always | needed := needed
    · rw [always, Bool.true_or, Bool.true_or]
    · rw [needed]; exact Bool.or_true _
  simp only [wakeUnit, total, asleep, wakes, decide_true, Bool.not_false, Bool.and_self, if_true, Bool.or_eq_true, beq_iff_eq]

end

/-! What a record that is filed leaves (R484, R486): the units out of service and the spares; HALTED, where it is not FATAL. -/

/-- Two states have the same units out of service, the same spares and the same count of the watchdog. -/
structure SameUnits (s t : State) : Prop where
  outs : t.err.outs = s.err.outs
  spares : t.err.spares = s.err.spares
  watchdog : t.err.watchdog = s.err.watchdog

/-- The interrupts of a record leave the error collector as it is. -/
theorem recInterrupts_err {r : Rec} {dropped : Bool} {s : State} : (recInterrupts r dropped s).err = s.err := by
  have told : (pfInterrupt r s).err = s.err := by
    unfold pfInterrupt
    cases recPort r s <;> rfl
  have told' : (if dropped || s.err.intMin ≤ r.sev then pfInterrupt r s else s).err = s.err := by
    split
    · exact told
    · rfl
  unfold recInterrupts
  cases recPort r s with
  | none => exact told'
  | some p =>
    by_cases serious : 2 ≤ r.sev
    · simp only [if_pos serious]; exact told'
    · simp only [if_neg serious]; exact told'

/-- A record numbered and queued leaves the units, and HALTED. -/
theorem createRec_keeps {r : Rec} {s : State} :
    SameUnits s (createRec r s).1 ∧ (createRec r s).1.err.halted = s.err.halted := by
  simp only [createRec, queueRec]
  constructor
  · constructor <;> rw [recInterrupts_err] <;> split <;> rfl
  · rw [recInterrupts_err]; split <;> rfl

theorem SameUnits.trans {s t u : State} (first : SameUnits s t) (second : SameUnits t u) : SameUnits s u :=
  ⟨second.outs.trans first.outs, second.spares.trans first.spares, second.watchdog.trans first.watchdog⟩

/-- The HALT record leaves the units. -/
theorem markHalted_units {cause : ℕ} {s : State} : SameUnits s (markHalted cause s) := by
  unfold markHalted
  split
  · exact ⟨rfl, rfl, rfl⟩
  · exact SameUnits.trans (t := onErr (fun e => { e with halted := true }) s) ⟨rfl, rfl, rfl⟩ createRec_keeps.1

/-- A record that is filed leaves the units. -/
theorem fileErr_units {e : Rec} {struck : Option ℕ} {stays : Bool} {s : State} : SameUnits s (fileErr e struck stays s).1 := by
  unfold fileErr
  split
  · exact ⟨rfl, rfl, rfl⟩
  · extract_lets hit
    clear_value hit
    split
    rename_i r t filed
    have same : SameUnits s t := by
      cases hit with
      | some _ => cases filed; exact ⟨rfl, rfl, rfl⟩
      | none =>
        dsimp only at filed
        split at filed <;> cases filed <;> exact ⟨rfl, rfl, rfl⟩
    dsimp only
    split
    · exact same.trans (createRec_keeps.1.trans markHalted_units)
    · exact same.trans createRec_keeps.1

/-- A record that is not FATAL, and that no open record makes so, does not halt. -/
theorem fileErr_halted {e : Rec} {stays : Bool} {s : State} (minor : e.sev ≠ 3) :
    (fileErr e none stays s).1.err.halted = s.err.halted := by
  unfold fileErr
  split
  · rfl
  · simp only [Option.bind_none]
    split <;> simp only [decide_eq_false minor, Bool.false_and, Bool.false_eq_true, if_false, createRec_keeps.2]

/-- An error of no command, too. -/
theorem fileRec_keeps {e : Rec} {s : State} (minor : e.sev ≠ 3) :
    SameUnits s (fileRec e s) ∧ (fileRec e s).err.halted = s.err.halted :=
  ⟨fileErr_units, fileErr_halted minor⟩

/-- A repair logged leaves the units, and HALTED. -/
theorem logRepair_keeps {r : Repair} {s : State} :
    SameUnits s (logRepair r s) ∧ (logRepair r s).err.halted = s.err.halted := by
  unfold logRepair
  split
  · exact ⟨⟨rfl, rfl, rfl⟩, rfl⟩
  · exact fileRec_keeps (by decide : (0 : ℕ) ≠ 3)

/-! Spares (R341). -/

/-- A spare used leaves one less. -/
theorem sparesLeft_useSpare {kind : UnitKind} {n : ℕ} {s : State} : sparesLeft kind n (useSpare kind n s) = sparesLeft kind n s - 1 := by
  unfold sparesLeft useSpare
  cases spareKey kind n with
  | none => rfl
  | some k => exact sget_smod_same sparesReset s.err.spares k (· - 1)

/-- A spare used leaves HALTED. -/
theorem useSpare_halted {kind : UnitKind} {n : ℕ} {s : State} : (useSpare kind n s).err.halted = s.err.halted := by
  unfold useSpare
  cases spareKey kind n <;> rfl

/-- Spares are counted by the table of spares. -/
theorem SameUnits.sparesLeft {kind : UnitKind} {n : ℕ} {s t : State} (same : SameUnits s t) :
    Machine.sparesLeft kind n t = Machine.sparesLeft kind n s := by
  unfold Machine.sparesLeft
  rw [same.spares]

/-- A unit that nobody owns is back in service with its spare. -/
theorem exec_substitution_unowned {kind : UnitKind} {n : ℕ} {u : UnitOut} {s : State} (unowned : unitOwner kind n s = none)
    (out : findOut kind n s = some u) (waits : u.retired = false) (spare : sparesLeft kind n s ≠ 0) :
    ∃ t, exec (.substitution kind n true) s = .next t ∧ findOut kind n t = none ∧ sparesLeft kind n t = sparesLeft kind n s - 1 := by
  have ready : substReady kind n s = true := by rw [substReady, unowned]
  have done := substitute_ready (ok := true) out waits ready spare
  simp only [unowned, Option.getD_none, if_true, Nat.lt_irrefl, if_false, settleWait, Nat.le_refl] at done
  set logged := logRepair (unitRepair kind n 0 u.seq) (useSpare kind n s)
  set filed := fileRec { unitRec 0x21 0 kind n logged with nestedSeq := u.seq } logged
  obtain ⟨logUnits, logHalted⟩ : SameUnits (useSpare kind n s) logged ∧ logged.err.halted = (useSpare kind n s).err.halted :=
    logRepair_keeps
  obtain ⟨fileUnits, fileHalted⟩ : SameUnits logged filed ∧ filed.err.halted = logged.err.halted :=
    fileRec_keeps (by decide : (0 : ℕ) ≠ 3)
  clear_value filed logged
  have same : (substitute kind n true s).err.halted = s.err.halted := by
    rw [done]
    exact fileHalted.trans (logHalted.trans useSpare_halted)
  refine ⟨_, congrArg Host.Outcome.next ((settleHalt_same same).trans done), ?_, ?_⟩
  · exact List.find?_eq_none.2 fun x listed => by
      simpa only [Bool.not_eq_true', Bool.not_eq_true] using (List.mem_filter.1 listed).2
  · exact (logUnits.trans fileUnits).sparesLeft.trans sparesLeft_useSpare

/-- The watchdog's record leaves the units; then the unit is taken out. -/
theorem exec_unitWatchdog_removes {kind : UnitKind} {n : ℕ} {s : State} (removes : removable kind n s = true) :
    ∃ t, t.err.watchdog = wrap64 (s.err.watchdog + 1) ∧ t.err.outs = s.err.outs ∧
      exec (.unitWatchdog kind n) s = .next (settleHalt (fun _ => takeOut kind n true t) s) := by
  have units : SameUnits s (fileErr (unitRec 0x23 3 kind n s) none false s).1 := fileErr_units
  refine ⟨onErr (fun e => { e with watchdog := wrap64 (e.watchdog + 1) }) (fileErr (unitRec 0x23 3 kind n s) none false s).1,
    congrArg (fun x => wrap64 (x + 1)) units.watchdog, units.outs, congrArg Host.Outcome.next (settleHalt_congr ?_)⟩
  simp only [watchdog, removes, Bool.not_true, Bool.false_eq_true, if_false]

/-! Records that end (R482, R483). -/

/-- A record marked handled. -/
theorem exec_recordHandled_marks {sev seq now : ℕ} {s : State} (severity : sev < 4) :
    ∃ t, exec (.recordHandled sev seq now) s = .next t ∧
      ∀ r ∈ (getErrQueue sev t).recs, r.seq = seq → 2 ≤ sev → r.handled = true := by
  refine ⟨_, congrArg Host.Outcome.next (if_pos severity), fun r listed number serious => ?_⟩
  simp only [handleRec, getErrQueue_onErrQueue, updWhere, List.mem_map] at listed
  obtain ⟨old, -, rfl⟩ := listed
  split_ifs at number ⊢ with marked
  · rfl
  · simp [number, serious] at marked

/-- A write of ERR_QSTAT clears LOST, and retires the records that HEAD passes where all are handled. -/
theorem exec_errorQueueRetire_retires {f : Fn} {sev : ℕ} {v : W32} {s : State} (severity : sev < 4) :
    ∃ t, exec (.errorQueueRetire f sev v) s = .next t ∧ (bit v.toNat 31 = true → (getErrQueue sev t).lost = false) ∧
      (f.vf = 0 → f.port.num = s.err.owner → (∀ r ∈ (getErrQueue sev s).recs, r.handled = true) →
        retireCount (getErrQueue sev s) (v.toNat % 32) ≤ (getErrQueue sev s).recs.length →
        (getErrQueue sev t).head = v.toNat % 32 ∧
          (getErrQueue sev t).recs = (getErrQueue sev s).recs.drop (retireCount (getErrQueue sev s) (v.toNat % 32))) := by
  refine ⟨_, congrArg Host.Outcome.next ((if_pos severity).trans (writeErrQstat_eq f sev v.toNat s)), fun clears => ?_,
    fun pf owner handled held => ?_⟩
  · split <;> simp [getErrQueue_clearLost, clears]
  · rw [if_neg, getErrQueue_onErrQueue, getErrQueue_clearLost]
    · exact ⟨rfl, rfl⟩
    · rw [not_or, not_or, not_or]
      exact ⟨not_not.2 pf, not_not.2 owner, Nat.not_lt.2 held, fun ⟨r, listed, open'⟩ =>
        absurd (handled r (List.mem_of_mem_take listed)) (Bool.eq_false_iff.1 open')⟩

/-- A clean codeword files nothing, and is due no second read. -/
theorem exec_patrolScrub_clean {stack pc row unit : ℕ} {s : State} (inStack : stack < 8) (inChannel : pc < 32) (inRows : row < 1179648)
    (inRow : unit < 16) (on : s.err.scrubH ≠ 0) (free : inWriteSet (32 * stack + pc) row s = false) :
    ∃ t, exec (.patrolScrub stack pc (row % 32) row unit .clean .clean) s = .next t ∧ t.err.queues = s.err.queues ∧
      t.err.rewritten.contains { stack := stack, pc := pc, bank := row % 32, row := row, unit := unit } = false := by
  refine ⟨_, exec_patrolScrub_reads inStack inChannel inRows inRow on free rfl, ?_, ?_⟩
  · unfold endPass; split <;> rfl
  · have read (p : MemPlace) : (s.err.rewritten.filter (· != p)).contains p = false := by simp
    unfold endPass
    split <;> exact read _

/-- Settles O53: a crier's registers by the endpoint that the crier names; gating by its condition; the rest by what a record that is
filed leaves. -/
theorem criersAndUnits : Obligations.CriersAndUnits := by
  unfold Obligations.CriersAndUnits
  refine ⟨?post, ?take, ?timeout, ?config, ?gating, ?records, ?patrol, ?scrub, ?spare, ?watchdog⟩
  case post =>
    intro e n v s numbered reaches
    have posts := exec_crierPost (v := v) numbered reaches
    refine ⟨fun rejected => ?_, fun named message empty => ?_, fun named p watch linked => ?_⟩
    · refine posts.trans (congrArg Host.Outcome.next ?_)
      by_cases named : (getCrier n s).sender = endpointCode e ∧ (getCrier n s).enable = true
      · obtain ⟨message, full⟩ := rejected.resolve_left (not_not.2 named)
        exact (postCrier_message named message).trans (if_pos full)
      · exact postCrier_unnamed named
    · exact posts.trans (congrArg Host.Outcome.next
        ((postCrier_message named message).trans (if_neg (Bool.eq_false_iff.1 empty))))
    · exact posts.trans (congrArg Host.Outcome.next ((postCrier_heartbeat named watch).trans (heartbeatPost_linked linked)))
  case take =>
    intro e n s numbered reaches
    have takes := exec_crierTake numbered reaches
    have withdraws := exec_crierWithdraw numbered reaches
    exact ⟨fun other => takes.trans (congrArg Host.Outcome.next (if_pos other)),
      fun mine => takes.trans (congrArg Host.Outcome.next (if_neg (not_not.2 mine))),
      fun other => withdraws.trans (congrArg Host.Outcome.next (if_pos other)),
      fun mine => withdraws.trans (congrArg Host.Outcome.next (if_neg (not_not.2 mine)))⟩
  case timeout =>
    exact fun n now s message start us timer full due =>
      congrArg Host.Outcome.next ((if_pos message).trans (timeoutCrier_due timer full due))
  case config =>
    intro e n v s reaches named
    refine ⟨fun may => ?_, fun may => ?_, fun p host watch => ?_, fun p host watch => ?_⟩
    · have writes : exec (.mbxCcfgWrite e n v) s = .next (writeCcfgFields n v.toNat s) :=
        (exec_mbxCcfgWrite (by omega) reaches).trans (congrArg Host.Outcome.next (writeCcfg_may named may))
      exact ⟨fun free => writes.trans (congrArg Host.Outcome.next
          (writeCcfgFields_named (free.imp_right (mt crierFixed_iff.1)))),
        fun fixed changes => writes.trans (congrArg Host.Outcome.next (writeCcfgFields_busy (crierFixed_iff.2 fixed) changes))⟩
    · exact (exec_mbxCcfgWrite (by omega) reaches).trans (congrArg Host.Outcome.next (writeCcfg_mayNot may))
    · subst host
      have place := heartbeatPort_eq_some.1 watch
      have numbered : n < 128 := by cases p <;> simp only [Port.num] at place <;> omega
      exact (exec_mbxCcfgWrite numbered reaches).trans
        (congrArg Host.Outcome.next ((writeCcfg_heartbeat watch).trans (if_pos rfl)))
    · subst host
      have place := heartbeatPort_eq_some.1 watch
      have numbered : n < 128 := by cases p <;> simp only [Port.num, Port.other] at place <;> omega
      exact (exec_mbxCcfgWrite numbered reaches).trans
        (congrArg Host.Outcome.next ((writeCcfg_heartbeat watch).trans (if_neg (by cases p <;> decide))))
  case gating =>
    exact fun kind n since now ns s total =>
      ⟨fun awake may idle held => congrArg Host.Outcome.next (gateUnit_gates total awake may idle held),
        fun needed => congrArg Host.Outcome.next (gateUnit_stays needed),
        fun asleep needed => congrArg Host.Outcome.next (wakeUnit_wakes total asleep needed)⟩
  case records =>
    exact fun sev seq now f v s severity => ⟨exec_recordHandled_marks severity, exec_errorQueueRetire_retires severity⟩
  case patrol => exact fun stack pc row unit s => exec_patrolScrub_clean
  case scrub =>
    exact fun struct place unit word boundary link owner c s => ⟨exec_sramScrub_clean, fun inBoundary inLinks serving =>
      ⟨_, exec_nocFlitFailure_resent inBoundary inLinks serving, rfl, rfl⟩⟩
  case spare => exact fun kind n u s => exec_substitution_unowned
  case watchdog => exact fun kind n s => exec_unitWatchdog_removes

end Sys2Proof.Machine
end

section
/-!
PROOFS. The flash at the loss of power (R439–R441). The last gasp and the power cycle of the flash leave what is no flash: the host's
block, the board and the error collector. What the programs under way lead to is followed operation by operation; the commands in
flight are set aside meanwhile, so that no completion touches the host.
-/
namespace Sys2Proof.Machine

/-- Two states that differ at most in the flash, in what is kept of it, and in the outputs: the host's block, in which no command is
in flight, the board and the error collector are the same. -/
structure FlashOnly (s t : State) : Prop where
  idle : t.host.cmds = []
  host : t.host = s.host
  board : t.board = s.board
  err : t.err = s.err

section
variable {s t u : State}

/-! The rules. -/

theorem FlashOnly.refl (idle : s.host.cmds = []) : FlashOnly s s := ⟨idle, rfl, rfl, rfl⟩

theorem FlashOnly.onMed {f : FlashSt → FlashSt} (h : FlashOnly s t) : FlashOnly s (onMed f t) := ⟨h.idle, h.host, h.board, h.err⟩

theorem FlashOnly.onMut {f : MutSt → MutSt} (h : FlashOnly s t) : FlashOnly s (onMut f t) := ⟨h.idle, h.host, h.board, h.err⟩

theorem FlashOnly.ite {c : Prop} [Decidable c] (yes : FlashOnly s t) (no : FlashOnly s u) : FlashOnly s (if c then t else u) := by
  split
  · exact yes
  · exact no

theorem FlashOnly.foldl {α : Type} {f : State → α → State} {l : List α} (h : FlashOnly s t)
    (each : ∀ {u : State} {a : α}, FlashOnly s u → FlashOnly s (f u a)) : FlashOnly s (l.foldl f t) := by
  induction l generalizing t with
  | nil => exact h
  | cons a l ih => exact ih (each h)

/-- Without commands in flight there is none to find. -/
theorem FlashOnly.findCmd_none {c : CmdRef} (h : FlashOnly s t) : findCmd c t = none := by
  rw [findCmd, h.idle]; rfl

theorem FlashOnly.complete {c : CmdRef} {st count detail : ℕ} {result : List Byte} (h : FlashOnly s t) :
    FlashOnly s (complete c st count detail result t) := by
  unfold Machine.complete
  rw [h.findCmd_none]
  exact h

theorem FlashOnly.finish {c : CmdRef} {ok : Bool} {st count detail : ℕ} {result : List Byte} (h : FlashOnly s t) :
    FlashOnly s (finish c ok st count detail result t) := by
  unfold Machine.finish
  rw [h.findCmd_none]
  exact h

/-! Blocks, superblocks and streams (R419–R422). -/

theorem FlashOnly.journal {e : JEntry} (h : FlashOnly s t) : FlashOnly s (journal e t) := h.onMed

theorem FlashOnly.setBlocks {bs : List ℕ} {st : BState} (h : FlashOnly s t) : FlashOnly s (setBlocks bs st t) :=
  h.foldl fun h => .ite h h.onMed.journal

theorem FlashOnly.formSuper {i stream sb : ℕ} (h : FlashOnly s t) (formed : formSuper i stream t = some (sb, u)) :
    FlashOnly s u := by
  unfold Machine.formSuper at formed
  dsimp only at formed
  split at formed
  · cases formed
  · cases formed
    exact h.onMed.journal.setBlocks

theorem FlashOnly.putStream {i stream : ℕ} {x : Stream} (h : FlashOnly s t) : FlashOnly s (putStream i stream x t) := h.onMed

theorem FlashOnly.openNext {i stream sb : ℕ} (h : FlashOnly s t) (opened : openNext i stream t = some (sb, u)) :
    FlashOnly s u := by
  unfold Machine.openNext at opened
  dsimp only at opened
  split at opened
  · cases opened
  · rename_i v found
    have first : FlashOnly s v := by
      split at found
      · cases found; exact h
      · exact h.formSuper found
    split at opened
    · rename_i reserved
      cases opened
      exact (first.onMed.setBlocks.formSuper reserved).putStream
    · cases opened
      exact first.onMed.setBlocks.putStream

theorem FlashOnly.closeFull {i stream : ℕ} (h : FlashOnly s t) : FlashOnly s (closeFull i stream t) := by
  unfold Machine.closeFull
  dsimp only
  split
  · exact h
  · split
    · exact h.putStream
    · exact .ite h h.setBlocks.putStream

theorem FlashOnly.takePage {i stream sb ppn : ℕ} (h : FlashOnly s t) (taken : takePage i stream t = some (sb, ppn, u)) :
    FlashOnly s u := by
  unfold Machine.takePage at taken
  dsimp only at taken
  split at taken
  · cases taken
  · rename_i v opened
    have ready : FlashOnly s v := by
      split at opened
      · cases opened; exact h.closeFull
      · exact h.closeFull.openNext opened
    split at taken
    · cases taken
    · split at taken
      · cases taken
      · cases taken
        exact ready.onMed

theorem FlashOnly.takeAnywhere {stream i n sb ppn : ℕ} (h : FlashOnly s t)
    (taken : takeAnywhere stream i n t = some (sb, ppn, u)) : FlashOnly s u := by
  induction n generalizing i with
  | zero => cases taken
  | succ n ih =>
    unfold Machine.takeAnywhere at taken
    split at taken
    · rename_i here
      cases taken
      exact h.takePage here
    · exact ih taken

/-! Programs (R418, R419, R433). -/

theorem FlashOnly.issueOp {n : ℕ} {work : OpWork} (h : FlashOnly s t) : FlashOnly s (issueOp n work t) := .ite h.onMed h.onMed

theorem FlashOnly.takeWseq (h : FlashOnly s t) : FlashOnly s (takeWseq t).2 := by
  unfold Machine.takeWseq
  dsimp only
  exact h.onMed

theorem FlashOnly.placeProgram {tag tag' : Tag} {why : ProgFor} {ppn : ℕ} (h : FlashOnly s t)
    (placed : placeProgram tag why t = some (ppn, tag', u)) : FlashOnly s u := by
  unfold Machine.placeProgram at placed
  split at placed
  · cases placed
  · rename_i taken
    cases placed
    have page := h.takeAnywhere taken
    exact .ite page.onMed.takeWseq.onMed page.onMed.takeWseq

theorem FlashOnly.program {tag : Tag} {why : ProgFor} (h : FlashOnly s t) : FlashOnly s (program tag why t) := by
  unfold Machine.program
  split
  · exact h.onMed
  · rename_i placed
    exact (h.placeProgram placed).issueOp

theorem FlashOnly.closeStripe {sb p q : ℕ} (h : FlashOnly s t) : FlashOnly s (closeStripe sb p q t) := by
  unfold Machine.closeStripe
  split
  · exact h
  · exact .ite h.takeWseq.issueOp h

theorem FlashOnly.ckptPage {ppn : ℕ} (h : FlashOnly s t) : FlashOnly s (ckptPage ppn t) := by
  unfold Machine.ckptPage
  split
  · exact h
  · exact .ite h.onMed.journal h.onMed.program

theorem FlashOnly.onMedCounts {f : MedCounts → MedCounts} (h : FlashOnly s t) : FlashOnly s (onMedCounts f t) := h.onMed

theorem FlashOnly.countProgram (h : FlashOnly s t) : FlashOnly s (countProgram t) := h.onMedCounts

theorem FlashOnly.landProgram {ppn : ℕ} {tag : Tag} {why : ProgFor} (h : FlashOnly s t) :
    FlashOnly s (landProgram ppn tag why t) := by
  have counted := (h.onMed (f := fun m => { m with pages := tput m.pages ppn tag })).countProgram
  unfold Machine.landProgram
  dsimp only
  cases why with
  | index => exact .ite counted.onMed.journal counted.onMed.journal.closeStripe
  | copy old gc cold => exact .ite (.ite counted.journal counted) (FlashOnly.ite counted.journal counted).closeStripe
  | ckpt => exact .ite counted.ckptPage counted.ckptPage.closeStripe
  | parity => exact .ite counted counted.closeStripe

/-! The journal and its checkpoints (R430–R433). -/

theorem FlashOnly.freeSuper {sb : ℕ} {x : Super} (h : FlashOnly s t) : FlashOnly s (freeSuper sb x t) :=
  h.setBlocks.onMed.foldl fun h => h.issueOp

theorem FlashOnly.sweepEmpty (h : FlashOnly s t) : FlashOnly s (sweepEmpty t) :=
  (h.foldl fun h => .ite h h.freeSuper).foldl fun h => h.onMed

theorem FlashOnly.issueSegPage (h : FlashOnly s t) : FlashOnly s (issueSegPage t) := by
  unfold Machine.issueSegPage
  split
  · exact h
  · exact h.onMed.foldl fun h => h.issueOp

theorem FlashOnly.makeDurable {handle csn : ℕ} (h : FlashOnly s t) : FlashOnly s (makeDurable handle csn t) := by
  unfold Machine.makeDurable
  split
  · exact h
  · split
    · exact h.onMut
    · exact h.onMut.finish

theorem FlashOnly.applyEntry {e : JEntry} (h : FlashOnly s t) : FlashOnly s (applyEntry t e) := by
  unfold Machine.applyEntry
  cases e with
  | map lpn ppn => exact h.onMed
  | trim first count w => exact h.onMed
  | reloc lpn new old gc cold => exact h.onMed.onMedCounts
  | group handle csn bytes => exact h.makeDurable
  | ckptCommit n root => exact .ite (h.foldl fun h => h.issueOp) h
  | block b st erases => exact h
  | super sb i stream members => exact h
  | ckptBegin n => exact h

theorem FlashOnly.commitSegment {seg : Segment} (h : FlashOnly s t) : FlashOnly s (commitSegment seg t) :=
  (h.onMed.onMedCounts.foldl fun h => h.applyEntry).sweepEmpty

theorem FlashOnly.segPageDone {n : ℕ} {programmed : Bool} (h : FlashOnly s t) : FlashOnly s (segPageDone n programmed t) := by
  unfold Machine.segPageDone
  split
  · exact h
  · extract_lets _ _ _ _ _ committed
    have done : FlashOnly s committed := .ite h.onMed.commitSegment h.onMed
    exact .ite done (.ite done.onMed done.onMed.issueSegPage)

theorem FlashOnly.anchorDone {n : ℕ} (h : FlashOnly s t) : FlashOnly s (anchorDone n t) := by
  unfold Machine.anchorDone
  split
  · exact h
  · exact .ite h (h.onMed.foldl fun h => h.complete).sweepEmpty

theorem FlashOnly.finishWork {e : ℕ × OpWork} (h : FlashOnly s t) : FlashOnly s (finishWork t e) := by
  obtain ⟨n, work⟩ := e
  cases work with
  | program ppn tag why => exact h.landProgram
  | segPage => exact h.countProgram.segPageDone
  | anchor n => exact h.countProgram.anchorDone
  | erase b => exact h

end

/-! The loss of power. -/

/-- Two states with the same host's block, board and error collector. -/
structure FlashApart (s t : State) : Prop where
  host : t.host = s.host
  board : t.board = s.board
  err : t.err = s.err

/-- The programs under way end with the commands set aside, which then stand again. -/
theorem finishPrograms_apart (s : State) : FlashApart s (finishPrograms s) := by
  have aside : FlashOnly (onHost (fun h => { h with cmds := [] }) s)
      ((underWay s).foldl finishWork (dropOps (onHost (fun h => { h with cmds := [] }) s))) :=
    (FlashOnly.refl rfl).onMed.foldl fun h => h.finishWork
  exact ⟨congrArg (fun h : HostSt => { h with cmds := s.host.cmds }) aside.host, aside.board, aside.err⟩

/-- The last gasp changes the flash alone. -/
theorem gaspFlash_apart (s : State) : FlashApart s (gaspFlash s) := by
  have ended := finishPrograms_apart s
  unfold gaspFlash
  dsimp only
  split
  · exact ⟨ended.host, ended.board, ended.err⟩
  · exact ended

/-- So do the last gasp and the power cycle of the flash. -/
theorem powerCycleFlash_gaspFlash_apart (s : State) : FlashApart s (powerCycleFlash (gaspFlash s)) := by
  have gasped := gaspFlash_apart s
  exact ⟨gasped.host, gasped.board, gasped.err⟩

end Sys2Proof.Machine
end

section
/-!
PROOFS. The power-on sequence and the resets (chapters 17 and 18). O56: where the sequence waits, where it stops and which slot it
brings up; when a reset is taken; and what it leaves, by what the loss of power leaves of the flash.
-/
namespace Sys2Proof.Machine

/-! The sequence (R508, R541). -/

/-- Whether a cause is a removal of power. -/
def removedBy (c : ResetCause) : Bool := c == .powerOn || c == .holdup

theorem removedBy_iff {c : ResetCause} : removedBy c = true ↔ c = .powerOn ∨ c = .holdup := by
  simp only [removedBy, Bool.or_eq_true, beq_iff_eq]

/-- The state in which the ROM starts: MOD_PG high, the counters at 0. -/
def romStart (c : ResetCause) (s : State) : State :=
  onBoot (fun b => { b with cause := c }) (onIsland (fun i => { i with pg := true }) { s with cycles := 0 })

section
variable {c : ResetCause} {f : BootFindings} {s : State} (phase : s.board.boot.phase = .starting c)
include phase

/-- The bank holds the sequence back while it charges after a removal of power. -/
theorem powerOn_waits (removed : removedBy c = true) (charging : holdupPct s < 90 ∨ bankNj s < 620000000) : powerOn f s = s := by
  have low : (90 ≤ holdupPct s && bankCovers s) = false := by
    simp only [bankCovers, Bool.and_eq_false_iff, decide_eq_false_iff_not]; omega
  unfold removedBy at removed
  simp only [powerOn, phase, removed, low, Bool.not_false, Bool.and_self, if_true]

/-- Else the ROM runs. -/
theorem powerOn_runs (goes : removedBy c = false ∨ (90 ≤ holdupPct s ∧ 620000000 ≤ bankNj s)) :
    powerOn f s = runRom (removedBy c) f (romStart c s) := by
  have free : (removedBy c && !(90 ≤ holdupPct s && bankCovers s)) = false := by
    obtain kept | ⟨charged, covers⟩ := goes
    · rw [kept, Bool.false_and]
    · rw [decide_eq_true charged, bankCovers, decide_eq_true covers]; exact Bool.and_false _
  unfold removedBy at free ⊢
  simp only [powerOn, phase, free, Bool.false_eq_true, if_false]
  rfl

end

/-- After a removal of power the recovery that was armed is spent. -/
def disarmed (removed : Bool) (s : State) : State :=
  if removed then onIsland (fun i => { i with armedRecovery := false }) s else s

/-- The choice of a slot as the ROM makes it. -/
def romChoice (f : BootFindings) (s : State) : BootRec × Option ℕ × Bool :=
  chooseSlot (fun n => if n = 0 then slotValid 0 f.slotA s else slotValid 1 f.slotB s) s.board.boot.record

section
variable {removed : Bool} {f : BootFindings} {m : Memory} {s : State}

/-- Without a valid copy of the identity block the ROM stops. -/
theorem runRom_noIdentity (invalid : chosenCopy f s = none) : runRom removed f s = stopAt .noIdentity s := by
  simp only [runRom, invalid]

variable (copy : chosenCopy f s = some m)
include copy

/-- A recovery armed over the SMBus is entered after a removal of power. -/
theorem runRom_forced (forced : (removed && s.board.island.armedRecovery && s.board.island.recoveryEn) = true) :
    runRom removed f s = stopAt .recovery (disarmed removed (useIdentity m s)) := by
  simp only [runRom, copy, forced, if_true]
  rfl

variable (free : (removed && s.board.island.armedRecovery && s.board.island.recoveryEn) = false)
include free

/-- Without a valid slot the ROM stops in RECOVERY. -/
theorem runRom_noSlot (invalid : (romChoice f (disarmed removed (useIdentity m s))).2.1 = none) :
    runRom removed f s = stopAt .recovery (onBoot (fun b => { b with
      record := (romChoice f (disarmed removed (useIdentity m s))).1 }) (disarmed removed (useIdentity m s))) := by
  unfold romChoice disarmed at invalid
  simp only [runRom, copy, free, Bool.false_eq_true, if_false, invalid]
  rfl

/-- The slot that is chosen comes up. -/
theorem runRom_slot {n : ℕ} (slot : (romChoice f (disarmed removed (useIdentity m s))).2.1 = some n) :
    let u := disarmed removed (useIdentity m s)
    let choice := romChoice f u
    runRom removed f s = bringUp n (!choice.2.2 && s.board.boot.record.trial != 0xFF) choice.2.2 f
      (loadFactory m (onBoot (fun b => { b with record := choice.1 }) u)) := by
  have record : (disarmed removed (useIdentity m s)).board.boot.record = s.board.boot.record := by
    unfold disarmed; split <;> rfl
  intro u choice
  unfold romChoice disarmed at slot
  simp only [runRom, copy, free, Bool.false_eq_true, if_false, slot]
  rw [← record]
  rfl

end

/-! What a valid slot has (R511–R513). -/

/-- An image that passes holds a matching manifest, the certificate of the root for firmware, its signature and an SVN that is not
spent. -/
theorem imagePasses_parts {n : ℕ} {v : SlotSigs} {s : State} (passes : imagePasses n v s = true) :
    manifestOk (getFwSlot n s) s = true ∧ s.board.boot.minSvn ≤ slotSvn (getFwSlot n s) ∧ v.cert = true ∧ v.image = true ∧
      certForm 1 (firmwareCert (getFwSlot n s)) = true ∧ isRoot s (certIssuer (firmwareCert (getFwSlot n s))) = true := by
  simp only [imagePasses, imageHolds, certOk, Bool.and_eq_true, decide_eq_true_eq] at passes
  obtain ⟨⟨manifest, ⟨⟨⟨⟨form, cert⟩, root⟩, -⟩, image⟩, -⟩, svn⟩ := passes
  exact ⟨manifest, svn, cert, image, form, root⟩

/-- Under the owner lock a slot that the owner agrees to is countersigned under an owner key. -/
theorem ownerAgrees_locked {n : ℕ} {v : SlotSigs} {s : State} (agrees : ownerAgrees n v s = true)
    (locked : s.board.boot.owner.locked = true) : v.owner = true ∧ s.board.boot.owner.key ≠ none := by
  simp only [ownerAgrees, countersigned, locked, Bool.not_true, Bool.false_or, Bool.and_eq_true] at agrees
  obtain ⟨⟨key, -⟩, signed⟩ := agrees
  exact ⟨signed, Option.isSome_iff_ne_none.1 key⟩

/-! Resets (R509, R533, R542). -/

/-- A write of BOOT_CTRL without the owner lock and without RESET writes the two enables. -/
theorem writeBootCtrl_unlocked {f : Fn} {v : ℕ} {s : State} (unlocked : s.board.boot.owner.locked = false)
    (serves : recoveryFn s = false) :
    let t := onBoot (fun b => { b with smbResetEn := bit v 30, smbRecoveryEn := bit v 29 }) s
    writeBootCtrl f v s = if bit v 31 then if v % 65536 = 0x5253 then resetModule .host t else fileBadValue f 0 0xC0000C 0xFF 0xFF t
      else t := by
  simp only [writeBootCtrl, unlocked, serves, Bool.false_eq_true, if_false]
  cases bit v 31 <;> rfl

/-- A write of BOOT_CTRL by a PF that reaches it. -/
theorem exec_bootCtrlReset {f : Fn} {v : W32} {s : State} (pf : f.vf = 0) (reaches : Reaches f 0xC0000C s) :
    exec (.bootCtrlReset f v) s = .next (writeBootCtrl f v.toNat s) :=
  congrArg Host.Outcome.next ((if_pos pf).trans (writeAt_reaches reaches))

/-- A trial that runs out has no tries left, and resets the module (R519). -/
theorem expireTrial_due {t : ℕ} {s : State} (trial : s.board.boot.trialEnd = some t) (due : t ≤ timeUs s) :
    expireTrial s = resetModule .trialExpired (onBoot (fun b => { b with record := appendRec { b.record with tries := 0 } }) s) := by
  simp only [expireTrial, trial, if_neg (Nat.not_lt.2 due)]

/-- What a reset leaves: PERST as it stood, the island, the flash after its loss of power, and what NOR and fuses hold; every other
block is as power-on leaves it. -/
theorem goDown_leaves (p : Phase) (s : State) : let t := goDown p s
    t.host = { hostReset with perst := s.host.perst } ∧ t.med = (powerCycleFlash (gaspFlash s)).med ∧
      t.board.island = s.board.island ∧ t.board.boot = bootAfterReset s.board.boot p ∧ t.err = errAfterReset s.err := by
  obtain ⟨host, board, err⟩ := powerCycleFlash_gaspFlash_apart s
  have island : (powerCycleFlash (gaspFlash s)).board.island = s.board.island := congrArg _ board
  exact ⟨congrArg (fun h : HostSt => { hostReset with perst := h.perst }) host, rfl, island,
    congrArg (fun b : BoardSt => bootAfterReset b.boot p) board, congrArg errAfterReset err⟩

/-- Settles O56: the sequence by the bank, the copy of the identity block and the slot; each reset by its condition; what a reset
leaves by the last gasp, which changes the flash alone. -/
theorem bootAndResets : Obligations.BootAndResets := by
  unfold Obligations.BootAndResets
  refine ⟨?sequence, ?validity, ?resets, ?modEn, ?leaves⟩
  case sequence =>
    intro c f s phase removed t
    have removed_iff : removedBy c = true ↔ removed := removedBy_iff
    refine ⟨fun gone charging => congrArg Host.Outcome.next (powerOn_waits phase (removed_iff.2 gone) charging), fun goes => ?_⟩
    have runs : exec (.powerOn f) s = .next (runRom (removedBy c) f t) :=
      congrArg Host.Outcome.next (powerOn_runs phase (goes.imp_left fun kept => Bool.eq_false_iff.2 (mt removed_iff.1 kept)))
    refine ⟨fun invalid => runs.trans (congrArg Host.Outcome.next (runRom_noIdentity invalid)), fun m copy => ?_⟩
    intro i u forced choice v
    have disarm : disarmed (removedBy c) i = u := by simp only [disarmed, removed_iff, u]
    have forced_iff : (removedBy c && t.board.island.armedRecovery && t.board.island.recoveryEn) = true ↔ forced := by
      rw [Bool.and_eq_true, Bool.and_eq_true, removed_iff, and_assoc]; rfl
    have free (notForced : ¬forced) := Bool.eq_false_iff.2 (mt forced_iff.1 notForced)
    have record : u.board.boot.record = s.board.boot.record := by simp only [u]; split <;> rfl
    have chosen : romChoice f (disarmed (removedBy c) i) = choice := by rw [disarm, romChoice, record]
    refine ⟨fun isForced => ?_, fun notForced => ⟨fun invalid => ?_, fun n slot => ?_⟩⟩
    · rw [runs, runRom_forced copy (forced_iff.2 isForced), disarm]
    · exact runs.trans (congrArg Host.Outcome.next ((runRom_noSlot copy (free notForced) (by rw [chosen]; exact invalid)).trans
        (by rw [chosen, disarm])))
    · exact runs.trans (congrArg Host.Outcome.next ((runRom_slot copy (free notForced) (by rw [chosen]; exact slot)).trans
        (by rw [chosen, disarm]; rfl)))
  case validity =>
    refine fun f n v s => ⟨fun first => if_pos first, fun first second => ?_, fun valid => ?_⟩
    · exact (if_neg (Bool.eq_false_iff.1 first)).trans (if_pos second)
    · obtain ⟨⟨commit, passes⟩, agrees⟩ :
          ((getFwSlot n s).commit = true ∧ imagePasses n v s = true) ∧ ownerAgrees n v s = true := by
        simpa only [slotValid, Bool.and_eq_true] using valid
      obtain ⟨manifest, svn, cert, image, form, root⟩ := imagePasses_parts passes
      exact ⟨commit, manifest, svn, cert, image, form, root, ownerAgrees_locked agrees⟩
  case resets =>
    refine fun c us now s => ⟨fun asked => ?_, fun other => ?_, fun long => ?_, fun short => ?_, fun ready => ?_, fun t trial due => ?_,
      fun f v pf reaches unlocked serves => ⟨fun keeps => ?_, fun asks key => ?_, fun asks wrong => ?_⟩⟩
    · exact congrArg Host.Outcome.next (if_pos asked)
    · exact congrArg Host.Outcome.next (if_neg other)
    · exact congrArg Host.Outcome.next (if_neg (Nat.not_lt.2 long))
    · exact congrArg Host.Outcome.next (if_pos short)
    · exact congrArg Host.Outcome.next (if_pos ready)
    · exact congrArg Host.Outcome.next (expireTrial_due trial due)
    · rw [exec_bootCtrlReset pf reaches, writeBootCtrl_unlocked unlocked serves, keeps, if_neg Bool.false_ne_true]
    · rw [exec_bootCtrlReset pf reaches, writeBootCtrl_unlocked unlocked serves, asks, if_pos rfl, if_pos key]
      rfl
    · rw [exec_bootCtrlReset pf reaches, writeBootCtrl_unlocked unlocked serves, asks, if_pos rfl, if_neg wrong]
  case modEn =>
    refine fun us s => ⟨fun off powered input => ?_, fun not => ?_, fun long powered => ?_, fun long unpowered => ?_, fun short => ?_⟩
    · exact congrArg Host.Outcome.next (if_pos ⟨off, powered, input⟩)
    · refine congrArg Host.Outcome.next (if_neg fun all => ?_)
      obtain ⟨off, powered, input⟩ := all
      obtain on | unpowered | low := not
      · exact on off
      · exact Bool.false_ne_true (unpowered.symm.trans powered)
      · exact Nat.not_le.2 low input
    · exact congrArg Host.Outcome.next ((if_neg (Nat.not_lt.2 long)).trans (if_pos powered))
    · exact congrArg Host.Outcome.next ((if_neg (Nat.not_lt.2 long)).trans (if_neg (Bool.eq_false_iff.1 unpowered)))
    · exact congrArg Host.Outcome.next (if_pos short)
  case leaves =>
    intro p s t
    obtain ⟨host, med, island, boot, err⟩ := goDown_leaves p s
    refine ⟨host, rfl, rfl, rfl, rfl, rfl, rfl, rfl, rfl, med, island, ?_⟩
    rw [show t.board.boot = bootAfterReset s.board.boot p from boot, show t.err = errAfterReset s.err from err]
    exact ⟨rfl, rfl, rfl, rfl, rfl, rfl, rfl, rfl, rfl⟩

end Sys2Proof.Machine
end

section
/-!
PROOFS. The media commands and the journal (chapter 14). O51: each media command where its checks pass, the part check and the mount, and
what starts a flush, a checkpoint and its abandonment.
-/
namespace Sys2Proof.Machine

/-! The commands (R413, R445–R447). -/

/-- Once mounted, a media command is checked by its own checks. -/
theorem medCheck_mounted {more : Cmd → List Byte → List Byte → State → Verdict} {k : Cmd} {ps inp : List Byte} {s : State}
    (served : s.med.state ≠ .mounting) : medCheck more k ps inp s = more k ps inp s :=
  if_neg fun waits => served waits.1

section
variable {c : CmdRef} {d : CmdIn} {k : Cmd} {ps inp : List Byte} {s : State}

/-- MED_PROFILE stores its profile in NOR while the flash is not formatted. -/
theorem exec_medProfile (due : Due 0x40 (fun _ => true) c d k ps inp s) (served : s.med.state ≠ .mounting) (length : k.dataLen = 128)
    (sound : profileBad inp = false) (blank : s.med.state = .unconfigured ∨ s.med.state = .unformatted) :
    exec (.medProfile c d) s = .next (completeSt k.ref stOk (onMed (fun m => { m with norProfile := some inp }) (running c s))) := by
  refine next_begin due ((medCheck_mounted served).trans (firstFail_two (by rw [length, sound]; rfl) ?_)) rfl
  obtain state | state := blank <;> rw [state] <;> rfl

/-- MED_FORMAT formats where no index is there, nothing is held, and what it asks for fits. -/
theorem exec_medFormat {bad : List ℕ} (due : Due 0x41 (fun _ => true) c d k ps inp s) (served : s.med.state ≠ .mounting)
    (unused : k.dataLen = 0) (sound : formatBad ps = false) (noIndex : s.srch.indexes = []) (profile : s.med.state ≠ .unconfigured)
    (free : s.med.held = false)
    (capacity : capacityOk (parseFormat ps).logicalPages (parseFormat ps).width (formatFlash (parseFormat ps) bad s) = true)
    (dram : nodeDramOk (formatFlash (parseFormat ps) bad s) = true) :
    exec (.medFormat c d bad) s = .next (completeSt k.ref stOk (formatFlash (parseFormat ps) bad (running c s))) := by
  refine next_begin due ((medCheck_mounted served).trans ?_) rfl
  refine (firstFail_pass (by rw [unused, sound]; rfl)).trans (firstFail_three ?_ free (by rw [capacity, dram]; rfl))
  rw [noIndex, beq_false_of_ne profile]
  rfl

/-- MED_CHECKPOINT starts a checkpoint, or joins the one that runs. -/
theorem exec_medCheckpoint (due : Due 0x42 (fun _ => true) c d k ps inp s) (served : s.med.state ≠ .mounting) (unused : k.dataLen = 0)
    (up : mediaUp s = true) :
    exec (.medCheckpoint c d) s =
      .next (startCkpt (onMed (fun m => { m with ckptWaiters := m.ckptWaiters ++ [k.ref] }) (running c s))) :=
  next_begin due ((medCheck_mounted served).trans (firstFail_two (by rw [unused]; rfl) (by rw [up]; rfl))) rfl

/-- MED_RETIRE_LUN fails a LUN and counts its valid pages. -/
theorem exec_medRetireLun (due : Due 0x43 (fun _ => true) c d k ps inp s) (served : s.med.state ≠ .mounting) (unused : k.dataLen = 0)
    (there : field ps 0 2 < lunCount s) :
    exec (.medRetireLun c d) s = .next (complete k.ref stOk
      (validPages (fun ppn _ => ppnLun ppn (running c s) == field ps 0 2) (running c s)).length 0 []
      (failLun (field ps 0 2) (running c s))) :=
  next_begin due ((medCheck_mounted served).trans
    (firstFail_one (by rw [unused, decide_eq_false (Nat.not_le.2 there)]; rfl))) rfl

/-- MED_INFO reports, also while the flash mounts. -/
theorem exec_medInfo (due : Due 0x44 (fun _ => true) c d k ps inp s) (unused : k.dataLen = 0) :
    exec (.medInfo c d) s = .next (finish k.ref d.resultOk stOk 0 0 (infoBytes (running c s)) (running c s)) :=
  next_begin due ((if_neg fun waits => waits.2 due.opcode).trans (firstFail_one (by rw [unused]; rfl))) rfl

end

/-! The mount (R414, R434). -/

/-- The media manager starts once, at READY: the part check, then the mount where the flash is formatted. -/
theorem exec_mediaMount {parts : List PartReport} {lost : List ℕ} {s : State} (ready : s.board.boot.stage = .ready)
    (fresh : s.med.wpHigh = false) :
    exec (.mediaMount parts lost) s = .next (
      if (checkParts parts s).med.state = .mounting then mountMedia lost (checkParts parts s) else checkParts parts s) :=
  congrArg Host.Outcome.next (if_pos ⟨ready, by rw [fresh]; rfl⟩)

/-- A report that does not match the profile fails its channel. -/
theorem checkParts_mismatch {r : PartReport} {b : List Byte} {i : ℕ} {s : State} (profile : s.med.profile = some b)
    (channel : r.channel < 48) (mismatch : firstMismatch b r = some i) :
    checkParts [r] s = onMed (fun m => { m with wpHigh := true }) (failChannel r.channel i s) := by
  simp only [checkParts, profile, List.filter_cons, List.filter_nil, channel, decide_true, if_true, List.foldl_cons, List.foldl_nil,
    mismatch]

/-! The journal (R432, R433). -/

section
variable {s : State}

/-- A flush that is due starts where no segment is being written. -/
theorem tryFlush_due (up : mediaUp s = true) (idle : s.med.writing = none) (due : flushNow s = true) : tryFlush s = startFlush s :=
  if_pos (by rw [up, idle, due]; rfl)

/-- A flush writes a segment where the ring has room. -/
theorem startFlush_fits
    (fits : ringFits (makeSegment false (bodyLen (takeBody 524288 s.med.entries)) (takeBody 524288 s.med.entries) s).pages s = true) :
    let es := takeBody 524288 s.med.entries
    startFlush s = issueSegPage (onMed (fun m => { m with
      entries := m.entries.drop es.length, flushDue := false, flushWaits := false, lastFlush := timeUs s, nextSeg := m.nextSeg + 1
      writing := some { seg := makeSegment false (bodyLen es) es s, page := 0, left := [], committed := false } }) s) :=
  if_pos fits

/-- Else it waits, counted once, and a checkpoint starts. -/
theorem startFlush_waits
    (full : ringFits (makeSegment false (bodyLen (takeBody 524288 s.med.entries)) (takeBody 524288 s.med.entries) s).pages s = false) :
    startFlush s = startCkpt (onMed (fun m => { m with flushWaits := true })
      (if s.med.flushWaits then s else onMedCounts (fun c => { c with journalWait := wrap64 (c.journalWait + 1) }) s)) :=
  if_neg (Bool.eq_false_iff.1 full)

/-- A checkpoint not committed after 30 s is abandoned. -/
theorem abandonCkpt_late {k : Ckpt} (runs : s.med.running = some k) (late : k.start + 30000000 ≤ timeUs s) :
    abandonCkpt s = sweepEmpty (onMed (fun m => { m with running := none, entries := m.entries.filter fun e => match e with
      | .ckptCommit n _ => n != k.num
      | _ => true }) s) := by
  simp only [abandonCkpt, runs]
  exact if_pos late

end

/-- Settles O51: each command by its checks; the mount by the state that the part check leaves; the journal by what is due. -/
theorem mediaCommandsAct : Obligations.MediaCommandsAct := by
  unfold Obligations.MediaCommandsAct
  refine ⟨fun c d k ps inp bad s => ⟨exec_medProfile, exec_medFormat, exec_medCheckpoint, exec_medRetireLun, exec_medInfo⟩,
    fun parts lost s ready fresh => ⟨fun mounts => ?mounts, fun stays => ?stays, ?mismatch⟩,
    fun now s => ⟨fun up idle due => ⟨fun fits => ?fits,
      fun full => ⟨fun first => ?first, fun again => ?again⟩⟩, ?start, ?abandon⟩⟩
  case mounts => exact (exec_mediaMount ready fresh).trans (congrArg Host.Outcome.next (if_pos mounts))
  case stays => exact (exec_mediaMount ready fresh).trans (congrArg Host.Outcome.next (if_neg stays))
  case mismatch =>
    rintro b r i profile rfl channel mismatch
    exact checkParts_mismatch profile channel mismatch
  case fits => exact congrArg Host.Outcome.next ((tryFlush_due up idle due).trans (startFlush_fits fits))
  case first =>
    refine congrArg Host.Outcome.next ((tryFlush_due up idle due).trans ((startFlush_waits full).trans ?_))
    rw [first, if_neg Bool.false_ne_true]
  case again =>
    refine congrArg Host.Outcome.next ((tryFlush_due up idle due).trans ((startFlush_waits full).trans ?_))
    rw [again, if_pos rfl]
  case start => exact fun due => congrArg Host.Outcome.next (if_pos due)
  case abandon => exact fun k runs late => congrArg Host.Outcome.next (abandonCkpt_late runs late)

end Sys2Proof.Machine
end

section
/-!
PROOFS. The work of the flash (chapter 14). O52: reads that join a LUN's queue and end there, operations that resume and end, LUNs that
fail, garbage collection and the relocation of cold data.
-/
namespace Sys2Proof.Machine

variable {u : ℕ} {s : State}

/-! Reads (R424–R427). -/

/-- The read of a hub queue that a LUN takes, taken out of the hub. -/
def leaveHub (p : ℕ) (r : FRead) (s : State) : State :=
  onMed (fun m => { m with hub := sset (fun _ => []) m.hub p ((sget (fun _ => []) m.hub p).erase r) }) s

/-- A read at the end of a LUN's queue, with whether a suspension is asked for it. -/
def queueRead (r : FRead) (p left : ℕ) (stop : Bool) (l : Lun) : Lun :=
  { l with reads := l.reads ++ [{ r with asked := stop }], turn := p, left := left - 1 }

section
variable {p left : ℕ} {r : FRead} (room : (getLun u s).reads.length < 32) (turn : nextTurn u s = some (p, left))
  (first : hubRead u p s = some r)
include room turn first

/-- A read for which the running operation is suspended. -/
theorem enqueueRead_suspends (may : maySuspend (getLun u s) s = true) :
    enqueueRead u s = beginArray u (onLun u (fun l => queueRead r p left true (suspendHead l))
      (onMedCounts (fun c => { c with suspends := wrap64 (c.suspends + 1) }) (leaveHub p r s))) := by
  have may' : maySuspend (getLun u (leaveHub p r s)) (leaveHub p r s) = true := may
  unfold leaveHub at may'
  simp only [enqueueRead, if_neg (Nat.not_le.2 room), turn, first, may', if_true]
  rfl

/-- A read that waits for its turn. -/
theorem enqueueRead_waits (mayNot : maySuspend (getLun u s) s = false) :
    enqueueRead u s = beginArray u (onLun u (queueRead r p left false) (leaveHub p r s)) := by
  have mayNot' : maySuspend (getLun u (leaveHub p r s)) (leaveHub p r s) = false := mayNot
  unfold leaveHub at mayNot'
  simp only [enqueueRead, if_neg (Nat.not_le.2 room), turn, first, mayNot', Bool.false_eq_true, if_false]
  rfl

end

/-- The read of a partition counted, as good or as uncorrectable (R451). -/
def tallyRead (r : FRead) (now : ℕ) (good : Bool) : State → State :=
  onMedPart r.part fun c => { c with
    reads := wrap64 (c.reads + 1), readUs := wrap64 (c.readUs + (now - r.queued))
    uncorr := if good then c.uncorr else wrap64 (c.uncorr + 1) }

/-- The result of the read that a LUN has begun, which leaves its queue. -/
def endedRead (u : ℕ) (r : FRead) (f : FlashRead) (s : State) : Bool × State :=
  readResult r u f (onLun u (fun l => startHead (timeUs s) { l with reads := l.reads.erase r }) s)

section
variable {r : FRead} {f : FlashRead} (begun : (getLun u (beginArray u s)).reads.find? (·.begun) = some r) (part : r.part < 64)
include begun part

/-- A good read of a partition is counted and answered. -/
theorem endRead_good (good : (endedRead u r f (beginArray u s)).1 = true) :
    endRead u f s = beginArray u (deliverRead r none
      (tallyRead r (timeUs (beginArray u s)) true (endedRead u r f (beginArray u s)).2)) := by
  unfold endedRead at good ⊢
  simp only [endRead, begun, part, if_true, good]
  rfl

/-- An uncorrectable one is counted, filed, and answered with its record. -/
theorem endRead_bad (bad : (endedRead u r f (beginArray u s)).1 = false) :
    let counted := tallyRead r (timeUs (beginArray u s)) false (endedRead u r f (beginArray u s)).2
    let e := fileErr (readRec r u f counted) none false counted
    endRead u f s = beginArray u (deliverRead r (some (e.2.1, e.2.2)) e.1) := by
  unfold endedRead at bad ⊢
  simp only [endRead, begun, part, if_true, bad, Bool.false_eq_true, if_false]
  rfl

end

/-! Operations (R421, R424, R443). -/

/-- Whether an operation is an erase. -/
def isErase : OpWork → Bool
  | .erase _ => true
  | .program _ _ _ | .segPage | .anchor _ => false

section
variable {o : LunOp} {os : List LunOp} (ops : (getLun u s).ops = o :: os)
include ops

/-- A suspended operation resumes once the queue is empty, or eight array reads have run and none runs. -/
theorem resumeOp_resumes (suspended : o.suspended = true)
    (turn : (getLun u s).reads = [] ∨ (8 ≤ o.reads ∧ ((getLun u s).reads.any (·.begun)) = false)) :
    resumeOp u s = onLun u (fun l => { l with ops := { o with suspended := false, since := timeUs s, reads := 0 } :: os }) s := by
  have resumes : (o.suspended && ((getLun u s).reads.isEmpty || (8 ≤ o.reads && !(getLun u s).reads.any (·.begun)))) = true := by
    obtain empty | ⟨spent, idle⟩ := turn
    · rw [suspended, empty]; rfl
    · rw [suspended, idle, decide_eq_true spent]; exact Bool.or_true _
  simp only [resumeOp, ops]
  exact if_pos resumes

/-- The running operation of a LUN ends with the event of its kind. -/
theorem endOp_ends {kind ok : Bool} (started : o.started = true) (runs : o.suspended = false) (same : isErase o.work = kind) :
    endOp kind u ok s = opEffect u o.work ok (dropOp u s) := by
  unfold endOp
  rw [ops]
  refine if_neg ?_
  rw [started, runs]
  subst same
  cases o.work <;> exact Bool.false_ne_true

end

/-- An erase that fails retires its block, with a record. -/
theorem eraseDone_fails {b : ℕ} : eraseDone u b false s = retireBlock b (flashFail 0xFFFFFFFF (ppnOf b 0 s) u 0xFF s) :=
  if_neg Bool.false_ne_true

/-- A LUN in use that fails gives up its operations, is recorded, and has its pages rebuilt (R443). -/
theorem failLun_fails (there : u < lunCount s) (alive : lunAlive u s = true) :
    let t := (getLun u s).ops.foldl (orphanOp u) (flashFail 0xFFFFFFFF 0xFFFFFFFF u 0xFF
      (onLun u (fun l => { l with state := .failed, ops := [] }) s))
    failLun u s = checkCapacity ((rebuildPages u t).foldl (copyPage false false) t) :=
  if_neg (by rw [decide_eq_false (Nat.not_le.2 there), alive]; exact Bool.false_ne_true)

/-! Garbage collection (R437). -/

section
variable (up : mediaUp s = true) (there : u < setCount s)
include up there

/-- At GC_HIGH garbage collection of the set ends. -/
theorem collect_ends (enough : s.med.gcHigh ≤ freeSupers u s) :
    collect u s = onMed (fun m => { m with collecting := m.collecting.filter (· != u) }) s := by
  have serves : (!mediaUp s || decide (setCount s ≤ u)) = false := by rw [up, decide_eq_false (Nat.not_le.2 there)]; rfl
  exact (if_neg (Bool.eq_false_iff.1 serves)).trans (if_pos enough)

/-- Below GC_LOW, and while it goes on, the superblock with the fewest valid pages is emptied. -/
theorem collect_empties {sb : ℕ} (few : freeSupers u s < s.med.gcHigh)
    (goes : freeSupers u s < s.med.gcLow ∨ s.med.collecting.contains u = true) :
    let t := onMed (fun m => { m with collecting := if m.collecting.contains u then m.collecting else u :: m.collecting }) s
    leastBy ((closedSupers t).map fun e => (e.1, (superValid e.1 t).length)) = some sb → collect u s = emptySuper sb t := by
  intro t least
  have serves : (!mediaUp s || decide (setCount s ≤ u)) = false := by rw [up, decide_eq_false (Nat.not_le.2 there)]; rfl
  have goes' : (freeSupers u s < s.med.gcLow || s.med.collecting.contains u) = true := by
    rw [Bool.or_eq_true, decide_eq_true_eq]; exact goes
  simp only [t] at least
  simp only [collect, serves, Bool.false_eq_true, if_false, if_neg (Nat.not_le.2 few), goes', if_true, least]
  rfl

end

/-! Cold data (R423). -/

/-- The pages of cold data that a millisecond moves. -/
def moveCold (now : ℕ) (s : State) : State :=
  (s.med.coldLeft.take s.med.wlRate).foldl (copyPage false true)
    (onMed (fun m => { m with coldLeft := m.coldLeft.drop m.wlRate, coldAt := now }) s)

/-- Once a millisecond cold data moves: what is left of a superblock, else of the next one. -/
theorem relocateCold_moves (up : mediaUp s = true) (due : s.med.coldAt + 1000 ≤ timeUs s) :
    relocateCold s = moveCold (timeUs s) (if s.med.coldLeft.isEmpty then pickCold s else s) := by
  have serves : (!mediaUp s || decide (timeUs s < s.med.coldAt + 1000)) = false := by
    rw [up, decide_eq_false (Nat.not_lt.2 due)]; rfl
  exact if_neg (Bool.eq_false_iff.1 serves)

/-- The next superblock of cold data is emptied while wear is uneven. -/
theorem pickCold_uneven {sb : ℕ} (uneven : eraseMin s + 2000 < eraseMax s)
    (holds : ((closedSupers s).any fun e =>
      e.2.members.any fun b => (getNand b s).erases == eraseMin s && (getNand b s).state != .retired) = true)
    (least : leastBy ((closedSupers s).map fun e => (e.1, superWear e.2 s)) = some sb) :
    pickCold s = sweepEmpty (onMed (fun m => { m with
      wlActive := true, victims := m.victims ++ [sb], coldLeft := superValid sb s }) s) := by
  simp only [pickCold, uneven, holds, decide_true, Bool.and_self, if_true, least]

/-- Where wear is even none is. -/
theorem pickCold_even (even : eraseMax s ≤ eraseMin s + 2000) : pickCold s = onMed (fun m => { m with wlActive := false }) s := by
  have none' : decide (eraseMin s + 2000 < eraseMax s) = false := decide_eq_false (Nat.not_lt.2 even)
  exact if_neg (by rw [none', Bool.false_and]; exact Bool.false_ne_true)

/-- Settles O52: reads by the turn of their queue and how they end; operations by their work; failures, garbage collection and wear by
their conditions. -/
theorem flashWorksAndWears : Obligations.FlashWorksAndWears := by
  unfold Obligations.FlashWorksAndWears
  refine fun u s => ⟨fun now => ⟨?enqueue, ?complete, ?resume⟩, ?ends, ?fails, ?collects, ?cold⟩
  case enqueue =>
    exact fun p left r room turn first => ⟨fun may => congrArg Host.Outcome.next (enqueueRead_suspends room turn first may),
      fun mayNot => congrArg Host.Outcome.next (enqueueRead_waits room turn first mayNot)⟩
  case complete =>
    exact fun r f begun part => ⟨fun good => congrArg Host.Outcome.next (endRead_good begun part good),
      fun bad => congrArg Host.Outcome.next (endRead_bad begun part bad)⟩
  case resume => exact fun o os ops suspended turn => congrArg Host.Outcome.next (resumeOp_resumes ops suspended turn)
  case ends =>
    intro o os ops started runs
    have ends {kind : Bool} (same : isErase o.work = kind) (ok : Bool) :
        endOp kind u ok s = opEffect u o.work ok (dropOp u s) := endOp_ends ops started runs same
    refine ⟨fun ppn tag why work => ?_, fun work => ?_, fun n work => ?_, fun b work => ?_⟩ <;> rw [work] at ends
    · exact ⟨congrArg Host.Outcome.next (ends rfl true), congrArg Host.Outcome.next (ends rfl false)⟩
    · exact ⟨congrArg Host.Outcome.next (ends rfl true), congrArg Host.Outcome.next (ends rfl false)⟩
    · exact ⟨congrArg Host.Outcome.next (ends rfl true), congrArg Host.Outcome.next (ends rfl false)⟩
    · exact ⟨congrArg Host.Outcome.next (ends rfl true), congrArg Host.Outcome.next ((ends rfl false).trans eraseDone_fails)⟩
  case fails => exact fun there alive => congrArg Host.Outcome.next (failLun_fails there alive)
  case collects =>
    exact fun up there => ⟨fun enough => congrArg Host.Outcome.next (collect_ends up there enough),
      fun sb few goes least => congrArg Host.Outcome.next (collect_empties up there few goes least)⟩
  case cold =>
    intro now t up due moved
    have moves : exec (.coldRelocation now) s = moved (if t.med.coldLeft.isEmpty then pickCold t else t) :=
      congrArg Host.Outcome.next (relocateCold_moves up due)
    refine ⟨fun left => ?_, fun spent => ⟨fun sb uneven holds least => ?_, fun even => ?_⟩⟩
    · rw [moves, if_neg (mt List.isEmpty_iff.1 left)]
    · rw [moves, if_pos (List.isEmpty_iff.2 spent), pickCold_uneven uneven holds least]
    · rw [moves, if_pos (List.isEmpty_iff.2 spent), pickCold_even even]

end Sys2Proof.Machine
end
